-- ==== Sys2Proof/Word.lean ====
section
/-! DEFINITION. The word types of the device and the numbers by which its parts are named (R10-R12, Table 0.2). -/

namespace Sys2Proof

/-- A register or scalar value. -/
abbrev Word := BitVec 64
/-- A byte of memory. -/
abbrev Byte := BitVec 8
/-- A finite map kept as a list of keys and values, keys rising, no entry at its default. -/
abbrev Sparse (α : Type) := List (Nat × α)

/-- A hardware thread: 12-bit core identifier (quarter [11:10], cluster [9:6], core [5:0]) and thread number. -/
structure Tid where
  core : Fin 4096
  th   : Fin 64
  deriving DecidableEq, Repr

/-- A job: the port, the ring and the submission count of its descriptor (R32, R45). -/
structure JobId where
  port  : Nat
  ring  : Nat
  count : Nat
  deriving DecidableEq, Repr

/-- The quarter of a core identifier. -/
def coreQ (core : Nat) : Nat := core / 1024
/-- The cluster, 0-63 over the device, of a core identifier. -/
def coreCl (core : Nat) : Nat := core / 64
/-- The number of a thread over the device. -/
def Tid.key (t : Tid) : Nat := t.core.val * 64 + t.th.val
/-- The quarter of a thread. -/
def Tid.q (t : Tid) : Nat := coreQ t.core.val
/-- The cluster, 0-63 over the device, of a thread. -/
def Tid.cl (t : Tid) : Nat := coreCl t.core.val

/-- Who sends a register access (R3, R5): a host port, firmware, a thread, or an engine of the device. -/
inductive Requester where
  | port (p : Fin 2)
  | firmware
  | thread (t : Tid)
  | engine
  deriving DecidableEq, Repr

/-- How the flash manager's decoder fared with one codeword (R352): at the block's current retry level, at another
level, in a soft decode, each with the bits corrected; not at all. -/
inductive FlashCw where
  | hard (bits : Nat)
  | retry (level bits : Nat)
  | soft (bits : Nat)
  | bad
  deriving DecidableEq, Repr

/-- What the header of a collectives message carries by kind (R334, R338): the group or channel, the sequence number, the
fields that are compared, and the place of its data: stage, chunk, byte offset. -/
structure CollHdr where
  gid   : Nat
  seq   : Nat
  op    : Nat
  red   : Nat
  inFmt : Nat
  wire  : Nat
  outFmt : Nat
  count : Nat
  n     : Nat
  phase : Nat
  layout : Nat
  crc   : Nat
  stage : Nat
  chunk : Nat
  off   : Nat
  deriving DecidableEq, Repr

/-- A place in one of a port's two memory apertures (R30): BAR2, the register region, or BAR4. -/
inductive BarOff where
  | bar2 (off : BitVec 32)
  | bar4 (off : BitVec 32)
  deriving DecidableEq, Repr

def BarOff.off (x : BarOff) : BitVec 32 :=
  match x with
  | .bar2 o => o
  | .bar4 o => o
def BarOff.isBar2 (x : BarOff) : Bool :=
  match x with
  | .bar2 _ => true
  | .bar4 _ => false

/-- An access of a host within `n` bytes of a ring's doorbell page (R33): whether it writes, its offset, its size in bytes, its data. -/
structure DbAccess (n : Nat) where
  write : Bool
  off   : Fin n
  size  : Nat
  v     : Nat
  deriving DecidableEq, Repr

/-- A write of hub `h`'s RING_CTL (R258). -/
structure RingCtlWrite where
  h : Fin 2
  v : Word
  deriving DecidableEq, Repr

/-- What failed when the stacks were trained (R309, R310): a channel of a stack, or a lane of one of its pseudo-channels. -/
inductive TrainFail where
  | channel (k : Fin 24) (c : Fin 16)
  | lane (k : Fin 24) (c : Fin 16) (pc : Fin 2) (lane : Fin 37)
  deriving DecidableEq, Repr

/-- What the header block of a message carries by kind, in its bytes 8 to 63 (Table 14.4): their places are not given (log
entry 66). -/
inductive MsgInfo where
  | none
  /-- RING_SEG (R263): pass sequence number, OP, BLOCK_BYTES, origin of the block, segment number. -/
  | seg (seq op bytes origin seg : Nat)
  /-- COLL_DATA and COLL_READY (R334, R338). -/
  | coll (hd : CollHdr)
  /-- CO_ABORT (R341, R343): the sender's OP, its group or channel, OP_SEQ; whether it answers a message that matches no operation. -/
  | coAbort (op gid seq : Nat) (mism : Bool)
  /-- KV_REQ (R275); `tag` tells a requester's requests apart. -/
  | kvReq (put : Bool) (block len tag : Nat)
  /-- KV_DATA, of a PUT or of a GET, with its offset. -/
  | kvData (put : Bool) (off tag : Nat)
  /-- KV_ACK with its status (Table 11.5). -/
  | kvAck (status tag : Nat)
  deriving DecidableEq, Repr

/-- A payload block (R317, R318): whether it is a message header, its 64 bytes as a number, its poison bits by codeword, and of
a header what it carries by kind. -/
structure WireBlk where
  som    : Bool
  data   : Nat
  poison : Nat
  info   : MsgInfo
  deriving DecidableEq, Repr

/-- A Talien frame (R317): whether its CRC matches, the positions of its bytes received in error, the header's fields (Table 14.2), the payload blocks in use with their VC. -/
structure WireFrame where
  good  : Bool
  errs  : List Nat
  fseq  : Nat
  ack   : Nat
  nak   : Bool
  credits : List Nat
  ctrl  : Nat
  cdata : Nat
  blks  : List (Nat × WireBlk)
  deriving DecidableEq, Repr

end Sys2Proof
end

