-- ==== Sys2Proof/Syntax.lean ====
section
/-! DEFINITION. The commands of the device: one constructor for every row of spec/opcode_table.json. A core
instruction carries its thread and its fields (Tables 3.5, 3.6, 3.8); an event carries what names it and what it
brings from outside. -/

namespace Sys2Proof

/-- What resets a port (R44): FLR, or its PERST#_N input going low; and that input going high again. -/
inductive PortRst where
  | flr | perst | perstEnd
  deriving DecidableEq, Repr

inductive Instr where
  /-- REGISTER_WRITE (R6). A write to a register field that has no row of its own stores, clears or sets bits by its access code. -/
  | registerWrite (rq : Requester) (addr : Word) (size : Nat) (v : Word)
  /-- LEDGER_CHANGE (R8). Firmware writes an LW field; a change of value uses one allowed change and commits a Ledger record. -/
  | ledgerChange (rq : Requester) (blk : BitVec 12) (off : BitVec 20) (v : Word)
  /-- FLIT_HOP (R19). A router or bridge checks every codeword of a flit and forwards it on its fixed route. -/
  | flitHop (id : Nat) (hdr : Nat) (payload : List Nat)
  /-- BRIDGE_FAILED (R18). A bridge loses training, a fatal error that withdraws the device. -/
  | bridgeFailed (b : Fin 8)
  /-- THROTTLE_WINDOW (R23). A 16-cycle ARITH window begins under the current throttle level and its withheld enables are applied. -/
  | throttleWindow
  /-- REFCLK_LOST (R24). Loss of REFCLK_CORE or PLL lock stops every derived clock but MGMT and drops the links. -/
  | refclkLost
  /-- PCIE_LINK_TRAINING (R29). A PCIe port trains its link to the highest common option. -/
  | pcieLinkTraining (p : Fin 2) (rates : BitVec 6) (widths : BitVec 3)
  /-- PCIE_LINK_DOWN (R427). A port's link goes down; posted writes it holds or receives are discarded. -/
  | pcieLinkDown (p : Fin 2)
  /-- BAR4_APERTURE_ACCESS (R30). An inbound host access through BAR4 reaches device memory at APERTURE_BASE, or, at a
place of BAR2, the register region. -/
  | bar4ApertureAccess (p : Fin 2) (write : Bool) (off : BarOff) (size : Nat) (v : Nat)
  /-- SQ_TAIL (R33). A host writes a submission-ring tail doorbell, performing earlier posted writes and starting fetch. The access,
a write or a read, lies within the doorbell. -/
  | sqTail (p : Fin 2) (r : Fin 64) (v : DbAccess 8)
  /-- CQ_HEAD (R33). A host writes the completion-ring head doorbell, freeing room for buffered records. The access lies between
the doorbell and the end of its page. -/
  | cqHead (p : Fin 2) (r : Fin 64) (v : DbAccess 4088)
  /-- RING_BASE_WRITE (R31). A write of SQ_BASE or CQ_BASE is accepted while the ring is disabled, otherwise ignored with CFG_REJECT. -/
  | ringBaseWrite (p : Fin 2) (r : Fin 64) (cq : Bool) (v : Word)
  /-- RING_ENABLE (R32). Setting CTL.ENABLE starts a disabled ring with all counts at zero. -/
  | ringEnable (p : Fin 2) (r : Fin 64) (v : Word)
  /-- RING_DISABLE (R428). Clearing CTL.ENABLE stops fetch, cancels the ring's jobs and enters DRAINING. -/
  | ringDisable (p : Fin 2) (r : Fin 64) (v : Word)
  /-- RING_DRAIN_DONE (R428). When the last cancelled job of a draining ring ends, the ring reads DISABLED. -/
  | ringDrainDone (p : Fin 2) (r : Fin 64)
  /-- SUBMISSION_FETCH (R34). The port issues a 512 B block read of a ring in its round-robin turn when back-pressure allows. -/
  | submissionFetch (p : Fin 2) (r : Fin 64)
  /-- SUBMISSION_BLOCK_RETURN (R34). A fetched block arrives and the device takes and validates its entries up to the tail. -/
  | submissionBlockReturn (p : Fin 2) (r : Fin 64) (words : List Word) (ep : Bool)
  /-- SEQ_REREAD (R34). 1.0 µs after a SEQ mismatch the device re-reads the block once. -/
  | seqReread (p : Fin 2) (r : Fin 64)
  /-- RUN (R37). A RUN job starts in ring order and reads its image header and root records. -/
  | run (j : JobId)
  /-- ROOT_LOAD (R162). Once target quarters have free entries, the roots take entries and their handles are written. -/
  | rootLoad (j : JobId)
  /-- ROOTS_ELIGIBLE (R162). After the handle writes are acknowledged, all roots of the job become eligible together. -/
  | rootsEligible (j : JobId)
  /-- COPY_IN (R35). A COPY_IN job moves host data into device memory by DMA. -/
  | copyIn (j : JobId)
  /-- COPY_OUT (R35). A COPY_OUT job moves device memory to the host by posted writes. -/
  | copyOut (j : JobId)
  /-- FENCE (R37). A FENCE completes once every earlier job of its ring has completed. -/
  | fence (j : JobId)
  /-- JOB_COMPLETE (R38). After a job's writes are visible, the port writes its 32 B completion record. -/
  | jobComplete (j : JobId)
  /-- COAL_TIMER_EXPIRE (R41). A record has waited COAL_TIME units and the ring's vector is raised. -/
  | coalTimerExpire (p : Fin 2) (r : Fin 64)
  /-- HOST_READ_COMPLETION (R426). A host answers a device read successfully and the data enters as codewords, poison if EP. -/
  | hostReadCompletion (id : Nat) (data : Nat) (ep : Bool)
  /-- HOST_READ_FAILURE (R426). A host read ends in UR, CA, timeout or link down, ending the load, COPY_IN or fetch. -/
  | hostReadFailure (id : Nat)
  /-- RELEASE (R42). A PART_REQ release stops new jobs on the named quarters. -/
  | release (p : Fin 2) (mask : BitVec 4)
  /-- PART_DONE (R42). When the port's jobs on released quarters have completed, they become unowned and PART_DONE is reported. -/
  | partDone (p : Fin 2)
  /-- ACQUIRE (R42). A PART_REQ acquire takes unowned quarters at once, also ending standby. -/
  | acquire (p : Fin 2) (mask : BitVec 4)
  /-- TAKEOVER (R43). A PART_REQ takeover acquires a lost peer's quarters once they have drained. -/
  | takeover (p : Fin 2) (mask : BitVec 4)
  /-- HEARTBEAT (R43). A write of HEARTBEAT.BEAT restarts the host heartbeat timer. -/
  | heartbeat (p : Fin 2)
  /-- HEARTBEAT_TIMEOUT (R43). HB_LIMIT expires without a heartbeat and the port is lost. -/
  | heartbeatTimeout (p : Fin 2)
  /-- LINK_LOSS_TIMEOUT (R43). A link down for more than 10 ms makes the port lost. -/
  | linkLossTimeout (p : Fin 2)
  /-- PORT_RESET (R44). PERST#_N or FLR resets one port, cancelling its jobs and restoring its ring registers. -/
  | portReset (p : Fin 2) (by_ : PortRst)
  /-- CANCEL (R45). An 8-byte write of JI.CANCEL cancels one job of one ring. -/
  | cancel (p : Fin 2) (size : Nat) (v : Word)
  /-- ADD (R64). Scalar add. -/
  | add (t : Tid) (g : BitVec 4) (rd : BitVec 5) (rs1 : BitVec 5) (rs2 : BitVec 5)
  /-- SUB (R64). Scalar subtract. -/
  | sub (t : Tid) (g : BitVec 4) (rd : BitVec 5) (rs1 : BitVec 5) (rs2 : BitVec 5)
  /-- AND (R64). Scalar bitwise AND. -/
  | and (t : Tid) (g : BitVec 4) (rd : BitVec 5) (rs1 : BitVec 5) (rs2 : BitVec 5)
  /-- OR (R64). Scalar bitwise OR. -/
  | or (t : Tid) (g : BitVec 4) (rd : BitVec 5) (rs1 : BitVec 5) (rs2 : BitVec 5)
  /-- XOR (R64). Scalar bitwise XOR. -/
  | xor (t : Tid) (g : BitVec 4) (rd : BitVec 5) (rs1 : BitVec 5) (rs2 : BitVec 5)
  /-- SHL (R64). Shift left by the low 6 bits of rs2. -/
  | shl (t : Tid) (g : BitVec 4) (rd : BitVec 5) (rs1 : BitVec 5) (rs2 : BitVec 5)
  /-- SHR (R64). Logical shift right. -/
  | shr (t : Tid) (g : BitVec 4) (rd : BitVec 5) (rs1 : BitVec 5) (rs2 : BitVec 5)
  /-- SRA (R64). Arithmetic shift right. -/
  | sra (t : Tid) (g : BitVec 4) (rd : BitVec 5) (rs1 : BitVec 5) (rs2 : BitVec 5)
  /-- MUL (R64). Low 64 bits of the product. -/
  | mul (t : Tid) (g : BitVec 4) (rd : BitVec 5) (rs1 : BitVec 5) (rs2 : BitVec 5)
  /-- MULHS (R64). High 64 bits of the signed product. -/
  | mulhs (t : Tid) (g : BitVec 4) (rd : BitVec 5) (rs1 : BitVec 5) (rs2 : BitVec 5)
  /-- MULHU (R64). High 64 bits of the unsigned product. -/
  | mulhu (t : Tid) (g : BitVec 4) (rd : BitVec 5) (rs1 : BitVec 5) (rs2 : BitVec 5)
  /-- MIN (R64). Signed minimum. -/
  | min (t : Tid) (g : BitVec 4) (rd : BitVec 5) (rs1 : BitVec 5) (rs2 : BitVec 5)
  /-- MAX (R64). Signed maximum. -/
  | max (t : Tid) (g : BitVec 4) (rd : BitVec 5) (rs1 : BitVec 5) (rs2 : BitVec 5)
  /-- MINU (R64). Unsigned minimum. -/
  | minu (t : Tid) (g : BitVec 4) (rd : BitVec 5) (rs1 : BitVec 5) (rs2 : BitVec 5)
  /-- MAXU (R64). Unsigned maximum. -/
  | maxu (t : Tid) (g : BitVec 4) (rd : BitVec 5) (rs1 : BitVec 5) (rs2 : BitVec 5)
  /-- SEL (R64). Selects rs1 or rs2 by the predicate named in its guard field. -/
  | sel (t : Tid) (g : BitVec 4) (rd : BitVec 5) (rs1 : BitVec 5) (rs2 : BitVec 5)
  /-- ADDI (R64). Add a sign-extended immediate. -/
  | addi (t : Tid) (g : BitVec 4) (rd : BitVec 5) (rs1 : BitVec 5) (imm : BitVec 12)
  /-- ANDI (R64). AND with a sign-extended immediate. -/
  | andi (t : Tid) (g : BitVec 4) (rd : BitVec 5) (rs1 : BitVec 5) (imm : BitVec 12)
  /-- ORI (R64). OR with a zero-extended immediate. -/
  | ori (t : Tid) (g : BitVec 4) (rd : BitVec 5) (rs1 : BitVec 5) (imm : BitVec 12)
  /-- XORI (R64). XOR with a sign-extended immediate. -/
  | xori (t : Tid) (g : BitVec 4) (rd : BitVec 5) (rs1 : BitVec 5) (imm : BitVec 12)
  /-- SHLI (R64). Shift left by an immediate. -/
  | shli (t : Tid) (g : BitVec 4) (rd : BitVec 5) (rs1 : BitVec 5) (imm : BitVec 6)
  /-- SHRI (R64). Logical shift right by an immediate. -/
  | shri (t : Tid) (g : BitVec 4) (rd : BitVec 5) (rs1 : BitVec 5) (imm : BitVec 6)
  /-- SRAI (R64). Arithmetic shift right by an immediate. -/
  | srai (t : Tid) (g : BitVec 4) (rd : BitVec 5) (rs1 : BitVec 5) (imm : BitVec 6)
  /-- MOVW (R64). Moves a 16-bit immediate into a halfword of rd, keeping or clearing the rest. -/
  | movw (t : Tid) (rd : BitVec 5) (hw : BitVec 2) (keep : Bool) (imm : BitVec 16)
  /-- CMP_EQ (R64). Sets pd to rs1 = rs2. -/
  | cmpEq (t : Tid) (g : BitVec 4) (pd : BitVec 3) (rs1 : BitVec 5) (rs2 : BitVec 5)
  /-- CMP_NE (R64). Sets pd to rs1 ≠ rs2. -/
  | cmpNe (t : Tid) (g : BitVec 4) (pd : BitVec 3) (rs1 : BitVec 5) (rs2 : BitVec 5)
  /-- CMP_LT (R64). Sets pd to signed rs1 < rs2. -/
  | cmpLt (t : Tid) (g : BitVec 4) (pd : BitVec 3) (rs1 : BitVec 5) (rs2 : BitVec 5)
  /-- CMP_LTU (R64). Sets pd to unsigned rs1 < rs2. -/
  | cmpLtu (t : Tid) (g : BitVec 4) (pd : BitVec 3) (rs1 : BitVec 5) (rs2 : BitVec 5)
  /-- CMP_GE (R64). Sets pd to signed rs1 ≥ rs2. -/
  | cmpGe (t : Tid) (g : BitVec 4) (pd : BitVec 3) (rs1 : BitVec 5) (rs2 : BitVec 5)
  /-- CMP_GEU (R64). Sets pd to unsigned rs1 ≥ rs2. -/
  | cmpGeu (t : Tid) (g : BitVec 4) (pd : BitVec 3) (rs1 : BitVec 5) (rs2 : BitVec 5)
  /-- PLOG_AND (R64). Predicate AND. -/
  | plogAnd (t : Tid) (g : BitVec 4) (pd : BitVec 3) (ps1 : BitVec 3) (ps2 : BitVec 3)
  /-- PLOG_OR (R64). Predicate OR. -/
  | plogOr (t : Tid) (g : BitVec 4) (pd : BitVec 3) (ps1 : BitVec 3) (ps2 : BitVec 3)
  /-- PLOG_XOR (R64). Predicate XOR. -/
  | plogXor (t : Tid) (g : BitVec 4) (pd : BitVec 3) (ps1 : BitVec 3) (ps2 : BitVec 3)
  /-- PLOG_ANDN (R64). Predicate ps1 AND NOT ps2. -/
  | plogAndn (t : Tid) (g : BitVec 4) (pd : BitVec 3) (ps1 : BitVec 3) (ps2 : BitVec 3)
  /-- BR (R64). Relative branch when the guard is true. -/
  | br (t : Tid) (g : BitVec 4) (disp : BitVec 22)
  /-- CALL (R64). Relative branch that saves the return address in X31. -/
  | call (t : Tid) (g : BitVec 4) (disp : BitVec 22)
  /-- JR (R64). Jump to rs1, saving PC + 4 in rd; a misaligned target gives ALIGN_FAULT. -/
  | jr (t : Tid) (g : BitVec 4) (rd : BitVec 5) (rs1 : BitVec 5)
  /-- RDSYS (R65). Reads the GTC, IDs, task record address, mode epoch or task cycles into rd. -/
  | rdsys (t : Tid) (g : BitVec 4) (rd : BitVec 5) (sel : Fin 5)
  /-- YIELD (R64). Makes the thread not READY for 16 ARITH cycles. -/
  | yield (t : Tid) (g : BitVec 4)
  /-- YIELD_EXPIRE (R64). The 16-cycle yield ends and the thread is READY again. -/
  | yieldExpire (t : Tid)
  /-- TASK_END (R51). The thread issues TASK.END and waits for its stores, AMOs, tile and vector work to take effect. -/
  | taskEnd (t : Tid) (g : BitVec 4)
  /-- TASK_END_REPORT (R51). Once the ending task's work has taken effect, the core reports the end and frees the thread. -/
  | taskEndReport (t : Tid)
  /-- NOP (R64). No operation. -/
  | nop (t : Tid) (g : BitVec 4)
  /-- LD (R64). Loads 1–8 bytes, from own scratch in 4 cycles or by parking on a fabric request. -/
  | ld (t : Tid) (g : BitVec 4) (rd : BitVec 5) (rb : BitVec 5) (sz : BitVec 2) (sx : Bool) (imm : BitVec 9)
  /-- ST (R64). Stores 1–8 bytes to scratch or through the fabric. -/
  | st (t : Tid) (g : BitVec 4) (rs : BitVec 5) (rb : BitVec 5) (sz : BitVec 2) (imm : BitVec 9)
  /-- AMO_FADD_32 (R66). Atomic FP32 add at the operand's home. -/
  | amoFadd32 (t : Tid) (g : BitVec 4) (rd : BitVec 5) (rs1 : BitVec 5) (rs2 : BitVec 5)
  /-- AMO_FMIN_32 (R66). Atomic FP32 minimum at the operand's home. -/
  | amoFmin32 (t : Tid) (g : BitVec 4) (rd : BitVec 5) (rs1 : BitVec 5) (rs2 : BitVec 5)
  /-- AMO_FMAX_32 (R66). Atomic FP32 maximum at the operand's home. -/
  | amoFmax32 (t : Tid) (g : BitVec 4) (rd : BitVec 5) (rs1 : BitVec 5) (rs2 : BitVec 5)
  /-- AMO_OR_32 (R66). Atomic 32-bit OR at the operand's home. -/
  | amoOr32 (t : Tid) (g : BitVec 4) (rd : BitVec 5) (rs1 : BitVec 5) (rs2 : BitVec 5)
  /-- AMO_OR_64 (R66). Atomic 64-bit OR at the operand's home. -/
  | amoOr64 (t : Tid) (g : BitVec 4) (rd : BitVec 5) (rs1 : BitVec 5) (rs2 : BitVec 5)
  /-- ILLEGAL_INSTR (R62). An undefined or malformed instruction word aborts the task. -/
  | illegalInstr (t : Tid) (w : BitVec 32)
  /-- THREAD_FREE_AFTER_ABORT (R51). After every fabric request of an aborted thread has been answered, the thread becomes FREE. -/
  | threadFreeAfterAbort (t : Tid)
  /-- ICACHE_FILL (R63). A 128 B instruction-cache line fill returns and the parked thread resumes. -/
  | icacheFill (t : Tid)
  /-- LOAD_RETURN (R50). Data for a parked load returns and the thread becomes READY, or the task aborts on poison. -/
  | loadReturn (t : Tid)
  /-- AMO_RETURN (R66). The old value of a fetching AMO returns to its parked thread. -/
  | amoReturn (t : Tid)
  /-- TASK_START (R52). The core starts the RUN task on its lowest FREE thread and moves NEXT into RUN. -/
  | taskStart (core : Fin 4096)
  /-- CORE_GATE (R53). After 8 idle ARITH cycles a core gates its thread engine, arrays and vector unit. -/
  | coreGate (core : Fin 4096)
  /-- ICACHE_INV (R76). A write of CLUS_CTL.ICACHE_INV invalidates the cluster's instruction caches. -/
  | icacheInv (cl : Fin 64)
  /-- TMMA (R70). Queues a dense multiply-accumulate into an array, binding it on START. -/
  | tmma (t : Tid) (g : BitVec 4) (xa : BitVec 5) (xb : BitVec 5) (a : Fin 4) (start : Bool)
  /-- TSMMA (R111). Queues a sparse multiply-accumulate with A from a sparse tile. -/
  | tsmma (t : Tid) (g : BitVec 4) (xa : BitVec 5) (xb : BitVec 5) (a : Fin 4) (start : Bool)
  /-- TDRAIN (R69). Unbinds the array and queues the move of the accumulation to the shadow set and its write-out. -/
  | tdrain (t : Tid) (g : BitVec 4) (xa : BitVec 5) (xb : BitVec 5) (a : Fin 4)
  /-- ARRAY_QUEUE_HEAD (R68). A tile instruction reaches the head of its array queue, is checked and begins its k-steps. -/
  | arrayQueueHead (core : Fin 4096) (a : Fin 4) (ce : Nat) (bad : Bool)
  /-- SEGMENT_BOUNDARY (R86). After 2^20 products the cell adds the segment into S and zeroes the accumulator. -/
  | segmentBoundary (core : Fin 4096) (a : Fin 4)
  /-- SHADOW_MOVE (R92). After the adder pipeline, the accumulation moves to the shadow set once it is free. -/
  | shadowMove (core : Fin 4096) (a : Fin 4)
  /-- DRAIN_COMPLETE (R89). The shadow set has written the eight converted rows. -/
  | drainComplete (core : Fin 4096) (a : Fin 4)
  /-- VFMA (R94). Vector fused multiply-add per lane. -/
  | vfma (t : Tid) (g : BitVec 4) (xd : BitVec 5) (xa : BitVec 5) (xb : BitVec 5) (xc : BitVec 5)
  /-- VEXP (R95). Vector exponential assist. -/
  | vexp (t : Tid) (g : BitVec 4) (xd : BitVec 5) (xa : BitVec 5)
  /-- VRCP (R95). Vector reciprocal assist. -/
  | vrcp (t : Tid) (g : BitVec 4) (xd : BitVec 5) (xa : BitVec 5)
  /-- VRSQ (R95). Vector reciprocal square root assist. -/
  | vrsq (t : Tid) (g : BitVec 4) (xd : BitVec 5) (xa : BitVec 5)
  /-- VMAX (R94). Vector per-lane maximum. -/
  | vmax (t : Tid) (g : BitVec 4) (xd : BitVec 5) (xa : BitVec 5) (xb : BitVec 5)
  /-- VSUM (R71). Fixed-tree sum of the 32 lanes of each row. -/
  | vsum (t : Tid) (g : BitVec 4) (xd : BitVec 5) (xa : BitVec 5)
  /-- VSOFT (R72). One online-softmax step over a score vector. -/
  | vsoft (t : Tid) (g : BitVec 4) (xd : BitVec 5) (xa : BitVec 5) (xb : BitVec 5) (xc : BitVec 5)
  /-- ARRAY_STEAL (R122). An idle array takes a whole waiting accumulation from another core of its octet. -/
  | arraySteal (core : Fin 4096) (a : Fin 4)
  /-- CLEAR (R99). DIG_CTL.CLEAR zeroes one digest slot and its count. -/
  | clear (q : Fin 4) (slot : Fin 64)
  /-- CLEAR_ALL (R102). DIG_CTL.CLEAR_ALL zeroes all 64 digest slots and counts. -/
  | clearAll (q : Fin 4)
  /-- COMPRESS_CSR (R116). The Press encodes a dense tile as Curd CSR or dense fallback. -/
  | compressCsr (c : Fin 64) (x : Fin 64)
  /-- COMPRESS_K8 (R117). The Press encodes a dense tile as K-of-8, counting drops. -/
  | compressK8 (c : Fin 64) (x : Fin 64)
  /-- FIX_MASK (R119). The Press encodes W and the tile of its transpose with a fixed mask. -/
  | fixMask (c : Fin 64) (x : Fin 64)
  /-- AUDIT (R118). The Press checks a CSR tile and removes bad curds. -/
  | audit (c : Fin 64) (x : Fin 64)
  /-- TRANSPOSE (R119). The Press rebuilds the transpose tile of an existing K-of-8 tile. -/
  | transpose (c : Fin 64) (x : Fin 64)
  /-- STRM_GO (R126). Arms a stream context with a chain or queues it in NEXT. -/
  | strmGo (t : Tid) (g : BitVec 4) (xd : BitVec 5) (xa : BitVec 5) (xb : BitVec 5)
  /-- STRM_WAIT (R126). Parks until the owned context holds no chain. -/
  | strmWait (t : Tid) (g : BitVec 4) (xd : BitVec 5) (xa : BitVec 5)
  /-- DESCRIPTOR_BLOCK_READ (R129). A 512 B descriptor block read returns to the engine. -/
  | descriptorBlockRead (c : Fin 64) (x : Fin 64)
  /-- LINEAR (R133). A LINEAR descriptor becomes current and copies LENGTH bytes. -/
  | linear (c : Fin 64) (x : Fin 64)
  /-- STRIDED (R133). A STRIDED descriptor becomes current and copies rows. -/
  | strided (c : Fin 64) (x : Fin 64)
  /-- INDEXED (R134). An INDEXED descriptor becomes current and gathers rows by index. -/
  | indexed (c : Fin 64) (x : Fin 64)
  /-- BITMAP (R135). A BITMAP descriptor becomes current and fetches the active rows. -/
  | bitmap (c : Fin 64) (x : Fin 64)
  /-- MULTICAST (R143). A MULTICAST descriptor becomes current and reserves store space. -/
  | multicast (c : Fin 64) (x : Fin 64)
  /-- RELAY (R144). A RELAY descriptor becomes current and feeds member 0. -/
  | relay (c : Fin 64) (x : Fin 64)
  /-- STREAM_REQUEST_SLOT (R146). The engine grants request slots to eligible contexts by deadline. -/
  | streamRequestSlot (c : Fin 64)
  /-- STREAM_READ_RETURN (R132). Data of a stream read returns and is delivered. -/
  | streamReadReturn (c : Fin 64) (x : Fin 64) (i : Nat)
  /-- CREDIT_WAIT_GRANTED (R138). An engine credit wait on SPACE is satisfied and the next write may begin. -/
  | creditWaitGranted (c : Fin 64) (x : Fin 64)
  /-- SEGMENT_WRITTEN (R138). All writes of a segment are acknowledged and DATA_OBJ is signalled. -/
  | segmentWritten (c : Fin 64) (x : Fin 64) (r : Nat)
  /-- MC_STORE_ENTRY (R143). A multicast segment tries to enter the store. -/
  | mcStoreEntry (c : Fin 64) (x : Fin 64)
  /-- RELAY_HOP (R144). A forwarder begins moving a segment to the next member. -/
  | relayHop (c : Fin 64) (x : Fin 64) (seg : Nat) (mem : Nat)
  /-- RELAY_HOP_DONE (R144). A hop has been written and the member's DATA object is signalled. -/
  | relayHopDone (c : Fin 64) (x : Fin 64) (seg : Nat) (mem : Nat)
  /-- ENGINE_SIGNAL_ANSWER (R138). An answer to an engine signal returns; a bad object ends the chain with SYNC_OBJ_FAULT. -/
  | engineSignalAnswer (c : Fin 64) (x : Fin 64)
  /-- DESCRIPTOR_COMPLETE (R148). A descriptor's writes are acknowledged and it writes its record and signals DONE. -/
  | descriptorComplete (c : Fin 64) (x : Fin 64)
  /-- CONTEXT_FREE (R152). A cancelled context becomes FREE once all its requests are answered. -/
  | contextFree (c : Fin 64) (x : Fin 64)
  /-- TASK_SPAWN (R157). Reads a task record and parks until the scheduler returns a handle. -/
  | taskSpawn (t : Tid) (g : BitVec 4) (xd : BitVec 5) (xa : BitVec 5)
  /-- SPAWN_RECORD_RETURN (R157). The spawned record arrives and is checked and sent to the target scheduler. -/
  | spawnRecordReturn (t : Tid)
  /-- SPAWN_ACCEPT (R158). The scheduler copies the record into the lowest free entry when one exists. -/
  | spawnAccept (q : Fin 4)
  /-- SPAWN_HANDLE_ARRIVAL (R158). The handle returns to xd and the spawning thread is READY. -/
  | spawnHandleArrival (t : Tid)
  /-- TASK_FLAG (R159). Sends flag bits to a task handle as a release. -/
  | taskFlag (t : Tid) (g : BitVec 4) (xa : BitVec 5) (xb : BitVec 5)
  /-- FLAG_ARRIVAL (R159). A flag reaches the scheduler and is ORed into the entry or dropped. -/
  | flagArrival (q : Fin 4)
  /-- TASK_PLACEMENT (R166). Each cluster places a ready eligible task into a core's RUN or NEXT slot. -/
  | taskPlacement (cl : Fin 64)
  /-- LAT_WINDOW_RESET (R163). At each 89,600-cycle boundary LAT_USED returns to 0. -/
  | latWindowReset
  /-- SYNC_SIG (R184). Signals a sync object as a release. -/
  | syncSig (t : Tid) (g : BitVec 4) (xa : BitVec 5) (xb : BitVec 5)
  /-- SYNC_WAIT (R185). Waits on a COUNTER or EVENT. -/
  | syncWait (t : Tid) (g : BitVec 4) (xd : BitVec 5) (xa : BitVec 5) (xb : BitVec 5)
  /-- SYNC_BAR (R188). Arrives at a BARRIER and parks. -/
  | syncBar (t : Tid) (g : BitVec 4) (xd : BitVec 5) (xa : BitVec 5)
  /-- SYNC_OPERATION (R181). The sync table performs one arriving operation on an object. -/
  | syncOperation (i : Nat)
  /-- BARRIER_CHAINED_COMPLETION (R188). A next generation already full completes in its own operation. -/
  | barrierChainedCompletion (q : Fin 4) (n : Fin 65536)
  /-- GRANTING_PASS (R185). When the queue head changes, the table grants waiters COUNT can satisfy. -/
  | grantingPass (q : Fin 4) (n : Fin 65536)
  /-- WAKE_ARRIVAL (R192). A wake message reaches a core or engine and the waiter acquires. -/
  | wakeArrival (i : Nat)
  /-- OBJ_WRITE (R190). A write of SYNC.OBJ re-initialises the object and wakes waiters with RESET. -/
  | objWrite (q : Fin 4) (n : Fin 65536) (half : Option Bool) (v : Word)
  /-- MODE_NEXT_WRITE (R194). A permitted writer stages mode values, refused during TRANSITION. -/
  | modeNextWrite (rq : Requester) (v : Word)
  /-- COMMIT (R195). Starts a mode transition and holds mode-sensitive tasks. -/
  | commit (rq : Requester)
  /-- MODE_ABORT (R196). Abandons a transition before its commit. -/
  | modeAbort (rq : Requester)
  /-- MODE_ACK (R195). A unit acknowledges the epoch once it holds no old mode-sensitive work. -/
  | modeAck (u : Fin 6)
  /-- WATCHDOG_CHECK (R197). Every 2^20 cycles the watchdog checks wait ages against WAIT_LIMIT. -/
  | watchdogCheck (q : Fin 4)
  /-- CUPPING_DUMP_DONE (R198). After the dump, the table resumes, reports and ends the affected jobs. -/
  | cuppingDumpDone (q : Fin 4)
  /-- RESUME (R199). WD_CTL.RESUME clears STOPPED or is refused. -/
  | resume (q : Fin 4)
  /-- DUMP_BASE_WRITE (R200). Firmware sets the dump region base within the quarter's stacks. -/
  | dumpBaseWrite (q : Fin 4) (rq : Requester) (v : Word)
  /-- GRIND_SUBMIT (R208). A store of a command address reaches a Grinder's SUBMIT. -/
  | grindSubmit (id : Nat)
  /-- GRIND_QUEUE_ROOM (R209). A held SUBMIT is accepted when queue room frees. -/
  | grindQueueRoom (id : Nat)
  /-- LOOKUP (R212). A LOOKUP command begins. -/
  | lookup (g : Fin 16)
  /-- BAG_BEGIN (R213). A bag begins, latching slot and epoch. -/
  | bagBegin (id : Nat)
  /-- ENTRY_READ_RETURN (R213). A directory entry returns and the index is dropped, read, deferred or faulted. -/
  | entryReadReturn (id : Nat) (b : Nat)
  /-- ROW_READ_RETURN (R214). A row returns and is pooled in index-list order. -/
  | rowReadReturn (id : Nat) (b : Nat) (p : Nat)
  /-- DEFERRED_ROW_ARRIVAL (R215). A flash row for a parked bag arrives. -/
  | deferredRowArrival (id : Nat) (b : Nat) (res : List FlashCw)
  /-- BAG_RESUME (R216). A parked bag with its row resumes when fewer than 64 are active. -/
  | bagResume (id : Nat) (b : Nat)
  /-- UPDATE (R220). An UPDATE command begins at the home Grinder. -/
  | update (g : Fin 16)
  /-- UPDATE_ROW (R222). The home applies the optimiser to one row as one read-modify-write. -/
  | updateRow (id : Nat)
  /-- MIGRATE (R226). A MIGRATE command begins. -/
  | migrate (g : Fin 16)
  /-- REPLACE (R230). A REPLACE command begins. -/
  | replace (g : Fin 16)
  /-- MOVE_RECORD_BEGIN (R227). A migrate or replace record begins, setting MOVING or copying the new row. -/
  | moveRecordBegin (id : Nat) (res : List FlashCw)
  /-- ROW_SWAP (R227). After the copy is acknowledged the entry is swapped and deferred updates applied. -/
  | rowSwap (id : Nat) (r : Nat)
  /-- SNAPSHOT (R235). Writes the slot's statistics, optionally clearing them. -/
  | snapshot (g : Fin 16)
  /-- HORIZON_PUBLISH (R229). Every 256 GTC counts each Grinder publishes HORIZON. -/
  | horizonPublish
  /-- GRIND_COMPLETE (R211). A Grinder command writes its record and signals DONE_OBJ. -/
  | grindComplete (id : Nat)
  /-- APPLY (R203). Copies one slot's staged values to the live copy. -/
  | apply (g : Fin 16) (t : Fin 32)
  /-- APPLY_ALL (R203). Copies all 32 slots' staged values to the live copies. -/
  | applyAll (g : Fin 16)
  /-- SK_CTL_WRITE (R234). A change to a sketch unit's control clears the unit. -/
  | skCtlWrite (g : Fin 16) (u : Fin 16) (half : Option Bool) (v : Word)
  /-- HOME_ACCESS (R172). A load, store or stream access is performed at its home. -/
  | homeAccess (id : Nat)
  /-- AMO_AT_HOME (R66). An AMO is performed atomically at its home. -/
  | amoAtHome (id : Nat)
  /-- SUBMIT (R261). A pass record address is stored to PERC.SUBMIT. -/
  | submit (id : Nat)
  /-- CIRCULATE (R264). A CIRCULATE pass begins. -/
  | circulate (h : Fin 2)
  /-- ACCUM (R266). An ACCUM pass begins. -/
  | accum (h : Fin 2)
  /-- KV_GET (R275). A KV_GET request is sent to PEER. -/
  | kvGet (h : Fin 2)
  /-- KV_PUT (R275). A KV_PUT request is sent to PEER with its data. -/
  | kvPut (h : Fin 2)
  /-- PERC_RING_ENABLE (R259). Setting RING_CTL.ENABLE enters HANDSHAKE and sends hellos. -/
  | percRingEnable (h : Fin 2) (v : Word)
  /-- PERC_RING_DISABLE (R271). Clearing ENABLE returns the ring to DOWN and discards passes. -/
  | percRingDisable (h : RingCtlWrite)
  /-- RING_HELLO (R259). A ring hello arrives and is checked. -/
  | ringHello (h : Fin 2) (i : Fin 9) (ringId : Nat) (n : Nat) (pos : Nat) (cnt : Nat)
  /-- RING_HELLO_ACK (R259). A successor's acknowledgement arrives; READY when all hold. -/
  | ringHelloAck (h : Fin 2) (i : Fin 9)
  /-- RING_SEG (R263). A ring segment message arrives and enters staging. The fields are those of
the message's header. -/
  | ringSeg (t : Fin 18) (seq op bytes origin seg : Nat)
  /-- BLOCK_LANDED (R265). A block is landed and its data object is signalled. -/
  | blockLanded (h : Fin 2)
  /-- PASS_COMPLETE (R268). A pass completes and writes its record. -/
  | passComplete (id : Nat)
  /-- RING_STALL (R272). A pass without progress for RING_LIMIT ends. -/
  | ringStall (h : Fin 2)
  /-- ABORT (R271). A ring abort frame arrives, ending the pass and is forwarded. -/
  | abort (t : Fin 18)
  /-- KV_REQ (R276). A key/value request reaches a serving Percolator. The fields are those
of the message's header; `res`: how a flash block's codewords decode. -/
  | kvReq (t : Fin 18) (put : Bool) (block len tag : Nat) (res : List FlashCw)
  /-- KV_DATA (R275). Key/value data arrives and is written. -/
  | kvData (t : Fin 18) (put : Bool) (off tag : Nat)
  /-- KV_ACK (R275). A key/value reply arrives and the request completes. -/
  | kvAck (t : Fin 18) (status : Nat)
  /-- KV_CTL_WRITE (R274). Firmware sets SERVE, refused unless ROLE is CACHE. -/
  | kvCtlWrite (h : Fin 2) (rq : Requester) (v : Word)
  /-- BANK_OWN_WRITE (R283). A write of BANK_OWN starts a handover or power change, or is refused. -/
  | bankOwnWrite (q : Fin 4) (b : Fin 56) (rq : Requester) (v : Word)
  /-- BANK_TRANSITION_DONE (R284). After draining, zeroing or power change the new state takes effect. -/
  | bankTransitionDone (q : Fin 4) (b : Fin 56)
  /-- CACHE_ENABLE (R288). Enables the Cellar cache or refuses with ENABLE_REJECT. -/
  | cacheEnable (q : Fin 4)
  /-- CACHE_DISABLE (R288). Starts writing back and invalidating the cache. -/
  | cacheDisable (q : Fin 4)
  /-- CACHE_DISABLE_DONE (R288). The cache is clean and the stacks become home. -/
  | cacheDisableDone (q : Fin 4)
  /-- CACHE_MISS_FILL (R285). A missed line returns from the stacks and is filled. -/
  | cacheMissFill (id : Nat)
  /-- WRITEBACK_ACK (R287). A dirty line's write-back is acknowledged and its buffer entry frees. -/
  | writebackAck (q : Fin 4) (line : Nat)
  /-- INVALIDATE (R290). Range engine removes lines without writing back. -/
  | invalidate (q : Fin 4) (all : Bool)
  /-- CLEAN (R290). Range engine writes back dirty lines. -/
  | clean (q : Fin 4) (all : Bool)
  /-- FLUSH (R290). Range engine writes back and removes lines. -/
  | flush (q : Fin 4) (all : Bool)
  /-- RANGE_DONE (R290). The range operation's write-backs are acknowledged. -/
  | rangeDone (q : Fin 4)
  /-- MARCH_TEST (R295). Starts a March C- test of one bank. -/
  | marchTest (q : Fin 4) (bank : Fin 64) (preserve : Bool)
  /-- MARCH_DONE (R295). A march finishes and reports its result. -/
  | marchDone (q : Fin 4) (fails : Nat) (first : Nat)
  /-- STACK_COMMAND_ISSUE (R303). A pseudo-channel chooses and issues its next command. -/
  | stackCommandIssue (k : Fin 24) (ch : Fin 16) (pc : Fin 2)
  /-- STACK_READ_DATA (R302). Read data returns and is checked. -/
  | stackReadData (k : Fin 24) (ch : Fin 16) (pc : Fin 2)
  /-- CA_PARITY_ERROR (R306). A stack reports a parity error and commands are reissued. -/
  | caParityError (k : Fin 24) (ch : Fin 16)
  /-- REFRESH_DUE (R307). A per-bank refresh interval expires. -/
  | refreshDue (k : Fin 24) (ch : Fin 16) (pc : Fin 2) (bank : Fin 64)
  /-- STACK_TEMP_READING (R307). A stack temperature changes the refresh rate. -/
  | stackTempReading (k : Fin 24) (t : Nat)
  /-- LAT_SHARE_WINDOW (R304). A 1,024-cycle latency share window begins. -/
  | latShareWindow (k : Fin 24)
  /-- SCRUB_READ (R308). The scrubber reads one block and writes back corrections. -/
  | scrubRead (k : Fin 24)
  /-- LANE_FAILING (R310). A lane's corrections pass LANE_LIMIT and it is marked failing. -/
  | laneFailing (k : Fin 24) (ch : Fin 16) (pc : Fin 2) (lane : Fin 36)
  /-- RETRAIN (R310). TRAIN_CTL.RETRAIN starts retraining one channel. -/
  | retrain (k : Fin 24) (ch : Fin 16)
  /-- RETRAIN_DONE (R310). Retraining ends and waiting requests proceed. -/
  | retrainDone (k : Fin 24) (ch : Fin 16) (ok : Bool) (bad : List (Fin 2 × Fin 37))
  /-- TEST_MODE_WRITE (R313). Setting TEST_MODE is accepted or refused. -/
  | testModeWrite (k : Fin 24) (on : Bool)
  /-- TRAFFIC_GEN_GO (R314). Starts a traffic generator run. -/
  | trafficGenGo (k : Fin 24) (ch : Fin 16)
  /-- TRAFFIC_GEN_DONE (R314). The run's accesses complete and DONE sets. -/
  | trafficGenDone (k : Fin 24) (ch : Fin 16) (errs : Nat) (lanes : List (Fin 2 × Fin 36 × Nat))
  /-- TALIEN_ENABLE (R326). Setting PORT_CTL.ENABLE starts training. -/
  | talienEnable (t : Fin 18)
  /-- TALIEN_DISABLE (R326). Clearing ENABLE returns the port to DOWN. -/
  | talienDisable (t : Fin 18)
  /-- TALIEN_TRAINING_DONE (R326). Training chooses lanes or fails the port. -/
  | talienTrainingDone (t : Fin 18) (partner : Bool) (pass : BitVec 9)
  /-- TRAINING_RETRY (R326). Without a partner, training repeats every 10 ms. -/
  | trainingRetry (t : Fin 18)
  /-- HELLO (R326). A HELLO frame arrives. -/
  | hello (t : Fin 18)
  /-- HELLO_ACK (R326). A HELLO_ACK arrives and the port enters UP. -/
  | helloAck (t : Fin 18)
  /-- FRAME_RECEIVED (R324). A frame is checked and accepted or discarded with NAK. -/
  | frameReceived (t : Fin 18) (f : WireFrame) (eighth : Fin 8)
  /-- REPLAY_TIMEOUT (R324). ACK does not advance for 16 µs and frames are replayed. -/
  | replayTimeout (t : Fin 18)
  /-- RECOVERY_ENTRY (R325). Eight replays or loss of lock enter RECOVERY. -/
  | recoveryEntry (t : Fin 18)
  /-- RECOVERY_DONE (R325). Recovery ends and the port returns to UP or fails. -/
  | recoveryDone (t : Fin 18) (ok : Bool)
  /-- LANE_LOCK_LOST (R327). A lane loses lock. -/
  | laneLockLost (t : Fin 18) (l : Fin 9)
  /-- LANE_WINDOW (R327). A 2^20-frame window of lane counts ends. -/
  | laneWindow (t : Fin 18)
  /-- REPAIR_REQ (R327). A REPAIR_REQ frame arrives. -/
  | repairReq (t : Fin 18)
  /-- REPAIR_ACK (R327). A REPAIR_ACK frame arrives. -/
  | repairAck (t : Fin 18)
  /-- GTC_SYNC_SEND (R329). Every 4,096 ticks the master sends GTC_SYNC. -/
  | gtcSyncSend
  /-- GTC_SYNC (R329). A follower takes GTC_SYNC and corrects its GTC. -/
  | gtcSync (t : Fin 18)
  /-- DELAY_REQ (R329). A DELAY_REQ frame arrives. -/
  | delayReq (t : Fin 18)
  /-- DELAY_RESP (R329). A DELAY_RESP frame arrives. -/
  | delayResp (t : Fin 18)
  /-- GTC_SLEW (R329). The follower adds or withholds one increment. -/
  | gtcSlew
  /-- HOLDOVER (R330). No sync for 262,144 ticks enters HOLDOVER. -/
  | holdover
  /-- GTC_CTL_WRITE (R329). A write of GTC_CTL changes mode and sync ports. -/
  | gtcCtlWrite (v : Word)
  /-- LAUNCH_RELEASE (R331). A held job's roots become eligible when the GTC reaches LAUNCH_AT. -/
  | launchRelease (j : JobId)
  /-- COLL_DATA (R334). A collectives data message arrives. -/
  | collData (t : Fin 18) (hd : CollHdr)
  /-- COLL_READY (R338). A COLL_READY message arrives. -/
  | collReady (t : Fin 18) (chan seq count layout : Nat)
  /-- CO_ABORT (R341). A CO_ABORT message arrives. -/
  | coAbort (t : Fin 18) (op gid seq : Nat) (mism : Bool)
  /-- COLL_SUBMIT (R332). A record address is stored to COLL.SUBMIT. -/
  | collSubmit (id : Nat)
  /-- REDUCE_SCATTER (R335). A REDUCE_SCATTER operation begins. -/
  | reduceScatter (h : Fin 2)
  /-- ALLGATHER (R336). An ALLGATHER operation begins. -/
  | allgather (h : Fin 2)
  /-- ALLREDUCE (R336). An ALLREDUCE operation begins. -/
  | allreduce (h : Fin 2)
  /-- SEND (R338). A SEND operation begins. -/
  | send (h : Fin 2)
  /-- RECV (R338). A RECV operation begins. -/
  | recv (h : Fin 2)
  /-- COLL_COMPLETE (R340). An operation completes and writes its record. -/
  | collComplete (id : Nat)
  /-- CO_STALL (R341). An operation without progress ends. -/
  | coStall (id : Nat)
  /-- RESHARD (R343). LAYOUT_CMD starts a re-shard. -/
  | reshard (h : Fin 2) (v : Word)
  /-- ANNOUNCE (R346). Sends ALIAS_CLAIM on every UP port. -/
  | announce (rq : Requester) (i : Fin 8)
  /-- ALIAS_CLAIM (R346). A claim arrives and is counted. -/
  | aliasClaim (t : Fin 18)
  /-- ROUTE_DATA_WRITE (R348). Firmware writes a route entry to both hubs. -/
  | routeDataWrite (rq : Requester) (v : Word)
  /-- ROLE_WRITE (R345). Firmware writes ROLE, refused while SERVE is 1. -/
  | roleWrite (rq : Requester) (v : Word)
  /-- FLASH_SUBMIT (R362). A spill command address is stored to FMh.SUBMIT. -/
  | flashSubmit (id : Nat)
  /-- READ (R363). A spill READ begins. -/
  | read (h : Fin 2)
  /-- WRITE (R363). A spill WRITE begins. -/
  | write (h : Fin 2)
  /-- TRIM (R363). A spill TRIM begins. -/
  | trim (h : Fin 2)
  /-- FLASH_PAGE_READ_DONE (R352). A page read returns and is decoded. -/
  | flashPageReadDone (h : Fin 2) (id : Nat) (k : Nat) (res : List FlashCw)
  /-- FLASH_PAGE_COMMIT (R355). Program and journal are done and the page commits. -/
  | flashPageCommit (h : Fin 2) (id : Nat) (k : Nat) (fail : Bool)
  /-- FLASH_CMD_COMPLETE (R364). A spill command completes and writes its record. -/
  | flashCmdComplete (id : Nat)
  /-- GC_COLLECT (R356). A target short of free superblocks collects one. -/
  | gcCollect (h : Fin 2) (x : Fin 32)
  /-- STATIC_WEAR_LEVEL (R357). A wide erase-count spread moves the coldest superblock. -/
  | staticWearLevel (h : Fin 2) (x : Fin 32)
  /-- RETENTION_SCRUB (R360). The scrub reads a page and rewrites it if needed. -/
  | retentionScrub (h : Fin 2) (res : List FlashCw)
  /-- TARGET_FAILED (R361). A target stops answering and fails. -/
  | targetFailed (h : Fin 2) (x : Fin 32)
  /-- FORMAT (R367). Erases every good block and unmaps every handle. -/
  | format (h : Fin 2) (rq : Requester) (marked : List Nat)
  /-- FLASH_MAP_REBUILT (R355). The map is rebuilt and the manager is READY. -/
  | flashMapRebuilt (h : Fin 2) (present : BitVec 32) (ok : BitVec 32) (blocks : Nat) (pages : Nat)
  /-- ERROR_REPORT (R376). A unit's report reaches the logger and a record is written. -/
  | errorReport (n : Nat)
  /-- SENSOR_READING (R383). Junction sensors are read every 1 µs. -/
  | sensorReading (die : Fin 6) (sensor : BitVec 8) (temp : Nat)
  /-- RAIL_OUT_OF_TOLERANCE (R387). A rail leaves tolerance for over 1 µs and starts a COLD reset. -/
  | railOutOfTolerance (rail : Fin 14) (beyond : Bool)
  /-- PWR_GOOD_LOW (R387). PWR_GOOD falls and the device holds in COLD reset. -/
  | pwrGoodLow
  /-- COLD_RST_N_LOW (R390). COLD_RST_N falls and holds a COLD reset. -/
  | coldRstNLow
  /-- COLD_RESET_RELEASE (R389). PWR_GOOD and COLD_RST_N are high and the PLL locks and releases dividers. -/
  | coldResetRelease (refOk : Bool)
  /-- LEDGER_READ (R389). The boot ROM reads the Ledger and maps. -/
  | ledgerRead
  /-- FIRMWARE_VERIFIED (R412). The boot chain verifies an image bank and starts firmware. -/
  | firmwareVerified
  /-- STACKS_TRAINED (R389). Stacks are trained and march tests and cache invalidation complete. -/
  | stacksTrained (failed : List TrainFail) (banks : List (Fin 4 × Fin 58 × Nat))
  /-- QUARTERS_READY (R389). Scratch is zeroed and quarters read READY. -/
  | quartersReady
  /-- PROFILE_APPLIED (R42). Firmware writes power class, partition, modes and role. -/
  | profileApplied (cls : Bool) (parts : Option (BitVec 4 × BitVec 4)) (modes : Option (BitVec 11)) (role : Fin 5)
  /-- CONFIG_READY (R389). PCIe ports stop answering with Request Retry Status. -/
  | configReady
  /-- WARM_RST_N (R392). A low pulse on WARM_RST_N starts a WARM reset. -/
  | warmRstN
  /-- COLD (R390). Firmware writes RESET_CMD.COLD. -/
  | cold (rq : Requester)
  /-- WARM (R392). Firmware writes RESET_CMD.WARM. -/
  | warm (rq : Requester)
  /-- MGMT (R395). RESET_CMD.MGMT restarts the management core and flash managers. -/
  | mgmt (rq : Requester)
  /-- SMBUS_MGMT_RESET (R390). A board management SMBus command starts a MGMT reset. -/
  | smbusMgmtReset
  /-- MGMT_WD_EXPIRE (R408). The MGMT watchdog expires and starts a MGMT reset. -/
  | mgmtWdExpire
  /-- KICK (R408). Firmware restarts the MGMT watchdog. -/
  | kick (rq : Requester)
  /-- QRESET (R393). Starts a QUARTER reset by cancelling its jobs. -/
  | qreset (q : Fin 4) (rq : Requester)
  /-- QUARTER_RESET_PROCEED (R393). After its jobs complete the quarter's logic is reset. -/
  | quarterResetProceed (q : Fin 4)
  /-- CLUSTER_RESET (R394). Resets the named clusters, aborting their tasks. -/
  | clusterReset (q : Fin 4) (mask : BitVec 16) (rq : Requester)
  /-- CLUSTER_RESET_PROCEED (R394). After the tasks end the clusters are reset and scratch zeroed. -/
  | clusterResetProceed (q : Fin 4)
  /-- THROTTLE_UPDATE (R396). Every 10 µs the throttle level is raised or lowered. -/
  | throttleUpdate (est : Nat)
  /-- PWR_ALERT_N_LOW (R398). PWR_ALERT_N falls and the level goes to 12. -/
  | pwrAlertNLow
  /-- PWR_ALERT_N_HIGH (R398). PWR_ALERT_N rises and the level may fall again. -/
  | pwrAlertNHigh
  /-- CLUSTER_POWER_OFF (R400). An idle cluster powers off after IDLE_LIMIT. -/
  | clusterPowerOff (cl : Fin 64)
  /-- CLUSTER_POWER_ON (R400). A powered-off cluster powers on for work or an access. -/
  | clusterPowerOn (cl : Fin 64)
  /-- STANDBY_ENTER (R401). Setting STANDBY starts quarter standby entry. -/
  | standbyEnter (q : Fin 4) (rq : Requester)
  /-- STANDBY_ENTRY_DONE (R401). The cache is disabled, banks retained and the quarter reads STANDBY. -/
  | standbyEntryDone (q : Fin 4)
  /-- STANDBY_EXIT (R403). Clearing STANDBY starts leaving standby. -/
  | standbyExit (q : Fin 4) (rq : Requester)
  /-- STANDBY_EXIT_DONE (R403). The quarter reads READY with Q_LOST set. -/
  | standbyExitDone (q : Fin 4)
  /-- D3HOT_ENTRY (R404). A port enters D3hot and stops fetching. -/
  | d3hotEntry (p : Fin 2)
  /-- D0_RETURN (R404). A port returns to D0 and resumes. -/
  | d0Return (p : Fin 2)
  /-- REQ_ADDR_WRITE (R415). A port writes REQ_ADDR to submit a signed request. -/
  | reqAddrWrite (p : Fin 2) (rq : Requester) (v : Word)
  /-- FW_UPDATE (R414). Firmware verifies and installs images in the other bank. -/
  | fwUpdate (sig : Bool) (images : BitVec 3)
  /-- RAISE_FLOOR (R416). Raises SVN_FLOOR in the Ledger. -/
  | raiseFloor (sig : Bool)
  /-- OWNER_KEY (R416). Installs or rotates the owner key. -/
  | ownerKey (sig : Bool)
  /-- DEBUG (R423). Moves the debug state. -/
  | debug (sig : Bool)
  /-- GET_VERSION (R419). SPDM GET_VERSION is answered. -/
  | getVersion (p : Fin 2)
  /-- GET_CAPABILITIES (R419). SPDM GET_CAPABILITIES is answered. -/
  | getCapabilities (p : Fin 2)
  /-- NEGOTIATE_ALGORITHMS (R419). SPDM NEGOTIATE_ALGORITHMS is answered. -/
  | negotiateAlgorithms (p : Fin 2) (offered : Bool)
  /-- GET_DIGESTS (R419). SPDM GET_DIGESTS is answered. -/
  | getDigests (p : Fin 2)
  /-- GET_CERTIFICATE (R419). SPDM GET_CERTIFICATE returns the chain. -/
  | getCertificate (p : Fin 2) (slot : Fin 8) (off : BitVec 16) (len : BitVec 16)
  /-- CHALLENGE (R419). SPDM CHALLENGE is signed with the identity key. -/
  | challenge (p : Fin 2) (slot : Fin 8) (nonce : Nat)
  /-- GET_MEASUREMENTS (R419). SPDM GET_MEASUREMENTS returns measurements. -/
  | getMeasurements (p : Fin 2) (index : BitVec 8) (signed : Bool) (nonce : Nat)
  /-- VECTOR_OP_COMPLETE (R71). A queued vector instruction finishes its COUNT rows, writes its results to scratch and frees its vector-queue entry. -/
  | vectorOpComplete (core : Fin 4096)
  /-- FLASH_ERASE_DONE (R358). A multi-plane erase of a collected or levelled superblock completes, freeing the superblock or retiring a block as grown bad. -/
  | flashEraseDone (h : Fin 2) (x : Fin 32) (b : Nat) (fail : Bool)
  /-- FRAME_TRANSMIT (R317). Every 8.0 ns a Talien port sends its next frame, filling payload blocks for which it holds credits, or an IDLE frame, and keeping it in the retry buffer. -/
  | frameTransmit (t : Fin 18) (eighth : Fin 8)
  deriving DecidableEq, Repr

end Sys2Proof
end

