-- ==== Sys2Proof/Decode.lean ====
section
/-! DEFINITION. Commands as words of the opcode table. -/

namespace Sys2Proof

/-- The command that a word of the table spells: the table gives no row any bits (its rows are commands and events, not words),
so no word spells one. -/
def decodeTableWord (_nbits _w : Nat) : Option Instr := none

end Sys2Proof
end

