-- ==== Sys2Proof/Config.lean ====
section
/-! DEFINITION. What the spec leaves open: values that nothing constrains. Each has no body, so no proof can lean on a
particular value (log entry 3). -/

namespace Sys2Proof.Config

/-- A value the spec leaves open; the step reads it at its own counter and advances the counter. -/
opaque freeWord : Nat → BitVec 64

/-- The fixed functions of the assists (R95): the same output for the same input everywhere; the spec bounds their error
and does not give their bits. -/
opaque vexp : BitVec 32 → BitVec 32
opaque vrcp : BitVec 32 → BitVec 32
opaque vrsq : BitVec 32 → BitVec 32

/-- SHA-512 as a number (R411, R419): the spec names the function and this model does not compute it. -/
opaque sha512 : List Byte → Nat
/-- Measurement 1: the digest of the boot ROM, whose contents the spec does not give. -/
opaque romDigest : Nat

end Sys2Proof.Config
end

