-- ==== Sys2Proof/Machine/Registers.lean ====
section
/-! DEFINITION. The register blocks of Table 1.9 (R27): every field of the field tables with its register's offset,
place, width, access code (Table 0.3), value at cold reset and legal values (R7). Written out from the tables of the
spec's chapters; the rule beside each block names its tables. -/

namespace Sys2Proof.Machine

/-- Access codes of Table 0.3 (R6). -/
inductive Acc where
  | rw | ro | w1c | w1s | wo | lw
  deriving DecidableEq, Repr

/-- Which values of a field are legal: a value outside is a reserved encoding (R7). -/
inductive Limit where
  | any
  | range (lo hi : Nat)
  /-- a row dimension: a multiple of 16 from 16 to 2,048 -/
  | dim
  /-- a port mask naming one to four ports of one hub -/
  | route
  /-- a dump region inside the quarter's own stacks (R200) -/
  | dump
  deriving DecidableEq, Repr

/-- One register field: the register's offset in its block, the strides and counts where it is an array, the
field's lowest bit and width, its access code, its value at cold reset, its legal values. -/
structure Fld where
  reg : Nat
  idx : List (Nat × Nat)
  lo  : Nat
  w   : Nat
  acc : Acc
  rst : Nat
  lim : Limit
  deriving DecidableEq, Repr


-- CLK (R28)
def F.CLK.CLK_STATUS.PLL_LOCK : Fld := ⟨0x0, [], 0, 1, .ro, 1, .any⟩
def F.CLK.CLK_STATUS.ALIGNED : Fld := ⟨0x0, [], 1, 1, .ro, 1, .any⟩
def F.CLK.CLK_STATUS.REFCLK_LOST : Fld := ⟨0x0, [], 2, 1, .w1c, 0, .any⟩
def F.CLK.THROTTLE.LEVEL : Fld := ⟨0x8, [], 0, 4, .ro, 0, .any⟩
def F.CLK.THROTTLE.ACTIVE : Fld := ⟨0x8, [], 4, 1, .ro, 0, .any⟩
def F.CLK.THROTTLE_SKIPS.SKIPS : Fld := ⟨0x10, [], 0, 64, .ro, 0, .any⟩
/-- The fields of a CLK block. -/
def Regs.CLK : List Fld :=
  [F.CLK.CLK_STATUS.PLL_LOCK,
   F.CLK.CLK_STATUS.ALIGNED,
   F.CLK.CLK_STATUS.REFCLK_LOST,
   F.CLK.THROTTLE.LEVEL,
   F.CLK.THROTTLE.ACTIVE,
   F.CLK.THROTTLE_SKIPS.SKIPS]

-- FAB (R28)
def F.FAB.BRIDGE_STATUS.UP : Fld := ⟨0x0, [], 0, 8, .ro, 255, .any⟩
def F.FAB.BRIDGE_CE.COUNT : Fld := ⟨0x100, [(8, 8)], 0, 32, .w1c, 0, .any⟩
def F.FAB.UNMAPPED_ADDR.ADDR : Fld := ⟨0x200, [], 0, 49, .ro, 0, .any⟩
def F.FAB.UNMAPPED_COUNT.COUNT : Fld := ⟨0x208, [], 0, 32, .w1c, 0, .any⟩
/-- The fields of a FAB block. -/
def Regs.FAB : List Fld :=
  [F.FAB.BRIDGE_STATUS.UP,
   F.FAB.BRIDGE_CE.COUNT,
   F.FAB.UNMAPPED_ADDR.ADDR,
   F.FAB.UNMAPPED_COUNT.COUNT]

-- JI (R45)
def F.JI.STATUS.PART_RESULT : Fld := ⟨0x0, [], 0, 2, .ro, 0, .any⟩
def F.JI.STATUS.CFG_REJECT : Fld := ⟨0x0, [], 2, 1, .w1c, 0, .any⟩
def F.JI.STATUS.DB_IGNORED : Fld := ⟨0x0, [], 16, 32, .w1c, 0, .any⟩
def F.JI.PARTITION.OWNED : Fld := ⟨0x8, [], 0, 4, .ro, 0, .any⟩
def F.JI.PART_REQ.RELEASE : Fld := ⟨0x10, [], 0, 4, .wo, 0, .any⟩
def F.JI.PART_REQ.ACQUIRE : Fld := ⟨0x10, [], 4, 4, .wo, 0, .any⟩
def F.JI.PART_REQ.TAKEOVER : Fld := ⟨0x10, [], 8, 1, .wo, 0, .any⟩
def F.JI.HEARTBEAT.BEAT : Fld := ⟨0x18, [], 0, 1, .wo, 0, .any⟩
def F.JI.HB_LIMIT.LIMIT : Fld := ⟨0x20, [], 0, 16, .rw, 0, .any⟩
def F.JI.DEV_EVENT.CAUSE : Fld := ⟨0x28, [], 0, 6, .w1c, 0, .any⟩
def F.JI.FETCH_STALLS.CYCLES : Fld := ⟨0x30, [], 0, 64, .ro, 0, .any⟩
def F.JI.CANCEL.RING : Fld := ⟨0x38, [], 0, 6, .wo, 0, .any⟩
def F.JI.CANCEL.COUNT : Fld := ⟨0x38, [], 32, 32, .wo, 0, .any⟩
def F.JI.APERTURE_BASE.BASE : Fld := ⟨0x40, [], 32, 17, .rw, 0, .any⟩
def F.JI.RING_SQ_BASE.BASE : Fld := ⟨0x1000, [(64, 64)], 12, 34, .rw, 0, .any⟩
def F.JI.RING_CQ_BASE.BASE : Fld := ⟨0x1008, [(64, 64)], 12, 34, .rw, 0, .any⟩
def F.JI.RING_CTL.ENABLE : Fld := ⟨0x1010, [(64, 64)], 0, 1, .rw, 0, .any⟩
def F.JI.RING_CTL.SQ_LOG2 : Fld := ⟨0x1010, [(64, 64)], 8, 5, .rw, 4, (.range 4 16)⟩
def F.JI.RING_CTL.CQ_LOG2 : Fld := ⟨0x1010, [(64, 64)], 16, 5, .rw, 4, (.range 4 16)⟩
def F.JI.RING_CQ_CTL.VECTOR : Fld := ⟨0x1018, [(64, 64)], 0, 6, .rw, 1, (.range 1 63)⟩
def F.JI.RING_CQ_CTL.COAL_COUNT : Fld := ⟨0x1018, [(64, 64)], 8, 8, .rw, 0, .any⟩
def F.JI.RING_CQ_CTL.COAL_TIME : Fld := ⟨0x1018, [(64, 64)], 16, 8, .rw, 0, .any⟩
def F.JI.RING_STATE.STATE : Fld := ⟨0x1020, [(64, 64)], 0, 2, .ro, 0, .any⟩
def F.JI.RING_STATE.CAUSE : Fld := ⟨0x1020, [(64, 64)], 2, 3, .ro, 0, .any⟩
def F.JI.RING_STATE.HEAD : Fld := ⟨0x1020, [(64, 64)], 32, 32, .ro, 0, .any⟩
/-- The fields of a JI block. -/
def Regs.JI : List Fld :=
  [F.JI.STATUS.PART_RESULT,
   F.JI.STATUS.CFG_REJECT,
   F.JI.STATUS.DB_IGNORED,
   F.JI.PARTITION.OWNED,
   F.JI.PART_REQ.RELEASE,
   F.JI.PART_REQ.ACQUIRE,
   F.JI.PART_REQ.TAKEOVER,
   F.JI.HEARTBEAT.BEAT,
   F.JI.HB_LIMIT.LIMIT,
   F.JI.DEV_EVENT.CAUSE,
   F.JI.FETCH_STALLS.CYCLES,
   F.JI.CANCEL.RING,
   F.JI.CANCEL.COUNT,
   F.JI.APERTURE_BASE.BASE,
   F.JI.RING_SQ_BASE.BASE,
   F.JI.RING_CQ_BASE.BASE,
   F.JI.RING_CTL.ENABLE,
   F.JI.RING_CTL.SQ_LOG2,
   F.JI.RING_CTL.CQ_LOG2,
   F.JI.RING_CQ_CTL.VECTOR,
   F.JI.RING_CQ_CTL.COAL_COUNT,
   F.JI.RING_CQ_CTL.COAL_TIME,
   F.JI.RING_STATE.STATE,
   F.JI.RING_STATE.CAUSE,
   F.JI.RING_STATE.HEAD]

-- CLUS (R76)
def F.CLUS.CLUS_CTL.GATE_ENABLE : Fld := ⟨0x0, [], 0, 1, .rw, 1, .any⟩
def F.CLUS.CLUS_CTL.ICACHE_INV : Fld := ⟨0x0, [], 1, 1, .wo, 0, .any⟩
def F.CLUS.FAULT_LAST.CORE : Fld := ⟨0x8, [], 0, 12, .ro, 0, .any⟩
def F.CLUS.FAULT_LAST.THREAD : Fld := ⟨0x8, [], 12, 6, .ro, 0, .any⟩
def F.CLUS.FAULT_LAST.CODE : Fld := ⟨0x8, [], 24, 8, .ro, 0, .any⟩
def F.CLUS.FAULT_LAST.COUNT_AT : Fld := ⟨0x8, [], 32, 32, .ro, 0, .any⟩
def F.CLUS.FAULT_PC.PC : Fld := ⟨0x10, [], 0, 64, .ro, 0, .any⟩
def F.CLUS.FAULT_COUNT.COUNT : Fld := ⟨0x18, [], 0, 32, .w1c, 0, .any⟩
def F.CLUS.BANK_REFUSALS.COUNT : Fld := ⟨0x20, [], 0, 64, .ro, 0, .any⟩
def F.CLUS.SCRATCH_CE.COUNT : Fld := ⟨0x28, [], 0, 32, .w1c, 0, .any⟩
def F.CLUS.CORE_STATE.IN_USE : Fld := ⟨0x100, [(8, 64)], 0, 7, .ro, 0, .any⟩
def F.CLUS.CORE_STATE.PARKED : Fld := ⟨0x100, [(8, 64)], 7, 7, .ro, 0, .any⟩
def F.CLUS.CORE_STATE.RUN_VALID : Fld := ⟨0x100, [(8, 64)], 14, 1, .ro, 0, .any⟩
def F.CLUS.CORE_STATE.NEXT_VALID : Fld := ⟨0x100, [(8, 64)], 15, 1, .ro, 0, .any⟩
def F.CLUS.CORE_STATE.GATED : Fld := ⟨0x100, [(8, 64)], 16, 1, .ro, 0, .any⟩
def F.CLUS.CORE_STATE.BOUND : Fld := ⟨0x100, [(8, 64)], 17, 4, .ro, 0, .any⟩
def F.CLUS.GATED_CYCLES.CYCLES : Fld := ⟨0x300, [(8, 64)], 0, 64, .ro, 0, .any⟩
def F.CLUS.ARRAY_DISCARD.COUNT : Fld := ⟨0x500, [(8, 64)], 0, 32, .w1c, 0, .any⟩
/-- The fields of a CLUS block. -/
def Regs.CLUS : List Fld :=
  [F.CLUS.CLUS_CTL.GATE_ENABLE,
   F.CLUS.CLUS_CTL.ICACHE_INV,
   F.CLUS.FAULT_LAST.CORE,
   F.CLUS.FAULT_LAST.THREAD,
   F.CLUS.FAULT_LAST.CODE,
   F.CLUS.FAULT_LAST.COUNT_AT,
   F.CLUS.FAULT_PC.PC,
   F.CLUS.FAULT_COUNT.COUNT,
   F.CLUS.BANK_REFUSALS.COUNT,
   F.CLUS.SCRATCH_CE.COUNT,
   F.CLUS.CORE_STATE.IN_USE,
   F.CLUS.CORE_STATE.PARKED,
   F.CLUS.CORE_STATE.RUN_VALID,
   F.CLUS.CORE_STATE.NEXT_VALID,
   F.CLUS.CORE_STATE.GATED,
   F.CLUS.CORE_STATE.BOUND,
   F.CLUS.GATED_CYCLES.CYCLES,
   F.CLUS.ARRAY_DISCARD.COUNT]

-- DIGEST (R102)
def F.DIGEST.DIG_CTL.SLOT : Fld := ⟨0x0, [], 0, 6, .wo, 0, .any⟩
def F.DIGEST.DIG_CTL.CLEAR : Fld := ⟨0x0, [], 8, 1, .wo, 0, .any⟩
def F.DIGEST.DIG_CTL.CLEAR_ALL : Fld := ⟨0x0, [], 9, 1, .wo, 0, .any⟩
def F.DIGEST.ARITH_STATUS.SAT : Fld := ⟨0x8, [], 0, 1, .w1c, 0, .any⟩
def F.DIGEST.ARITH_STATUS.NAN_DRAINED : Fld := ⟨0x8, [], 1, 1, .w1c, 0, .any⟩
def F.DIGEST.ARITH_STATUS.CONV_SAT : Fld := ⟨0x8, [], 2, 1, .w1c, 0, .any⟩
def F.DIGEST.ARITH_STATUS.SEGMENTED : Fld := ⟨0x8, [], 3, 1, .w1c, 0, .any⟩
def F.DIGEST.ACC_SEGMENTS.COUNT : Fld := ⟨0x10, [], 0, 64, .w1c, 0, .any⟩
def F.DIGEST.SAT_COUNT.COUNT : Fld := ⟨0x18, [], 0, 32, .w1c, 0, .any⟩
def F.DIGEST.CONV_SAT_COUNT.COUNT : Fld := ⟨0x20, [], 0, 32, .w1c, 0, .any⟩
def F.DIGEST.OPERAND_CE.COUNT : Fld := ⟨0x28, [], 0, 32, .w1c, 0, .any⟩
def F.DIGEST.DIGEST.VALUE : Fld := ⟨0x1000, [(16, 64)], 0, 64, .ro, 0, .any⟩
def F.DIGEST.DCOUNT.COUNT : Fld := ⟨0x1008, [(16, 64)], 0, 32, .ro, 0, .any⟩
/-- The fields of a DIGEST block. -/
def Regs.DIGEST : List Fld :=
  [F.DIGEST.DIG_CTL.SLOT,
   F.DIGEST.DIG_CTL.CLEAR,
   F.DIGEST.DIG_CTL.CLEAR_ALL,
   F.DIGEST.ARITH_STATUS.SAT,
   F.DIGEST.ARITH_STATUS.NAN_DRAINED,
   F.DIGEST.ARITH_STATUS.CONV_SAT,
   F.DIGEST.ARITH_STATUS.SEGMENTED,
   F.DIGEST.ACC_SEGMENTS.COUNT,
   F.DIGEST.SAT_COUNT.COUNT,
   F.DIGEST.CONV_SAT_COUNT.COUNT,
   F.DIGEST.OPERAND_CE.COUNT,
   F.DIGEST.DIGEST.VALUE,
   F.DIGEST.DCOUNT.COUNT]

-- PRESS (R124)
def F.PRESS.PRESS_CTL.STEAL_ENABLE : Fld := ⟨0x0, [], 0, 1, .rw, 1, .any⟩
def F.PRESS.PRESS_CTL.STEAL_IDLE : Fld := ⟨0x0, [], 8, 8, .rw, 32, (.range 1 255)⟩
def F.PRESS.PRESS_STATUS.BUSY : Fld := ⟨0x8, [], 0, 1, .ro, 0, .any⟩
def F.PRESS.PRESS_STATUS.OP : Fld := ⟨0x8, [], 1, 4, .ro, 0, .any⟩
def F.PRESS.PRESS_STATUS.CONTEXT : Fld := ⟨0x8, [], 5, 6, .ro, 0, .any⟩
def F.PRESS.PRESS_DROP_COUNT.COUNT : Fld := ⟨0x10, [], 0, 32, .w1c, 0, .any⟩
def F.PRESS.AUDIT_FAULTS.COUNT : Fld := ⟨0x18, [], 0, 32, .w1c, 0, .any⟩
def F.PRESS.AUDIT_BAD_TILES.COUNT : Fld := ⟨0x20, [], 0, 32, .w1c, 0, .any⟩
def F.PRESS.TILES_OUT.COUNT : Fld := ⟨0x28, [], 0, 32, .w1c, 0, .any⟩
def F.PRESS.FALLBACK_COUNT.COUNT : Fld := ⟨0x30, [], 0, 32, .w1c, 0, .any⟩
def F.PRESS.STEALS.COUNT : Fld := ⟨0x38, [], 0, 32, .w1c, 0, .any⟩
def F.PRESS.DENSE_PATH_COUNT.COUNT : Fld := ⟨0x40, [], 0, 32, .w1c, 0, .any⟩
/-- The fields of a PRESS block. -/
def Regs.PRESS : List Fld :=
  [F.PRESS.PRESS_CTL.STEAL_ENABLE,
   F.PRESS.PRESS_CTL.STEAL_IDLE,
   F.PRESS.PRESS_STATUS.BUSY,
   F.PRESS.PRESS_STATUS.OP,
   F.PRESS.PRESS_STATUS.CONTEXT,
   F.PRESS.PRESS_DROP_COUNT.COUNT,
   F.PRESS.AUDIT_FAULTS.COUNT,
   F.PRESS.AUDIT_BAD_TILES.COUNT,
   F.PRESS.TILES_OUT.COUNT,
   F.PRESS.FALLBACK_COUNT.COUNT,
   F.PRESS.STEALS.COUNT,
   F.PRESS.DENSE_PATH_COUNT.COUNT]

-- STRM (R154)
def F.STRM.STRM_CTL.AGE_LIMIT : Fld := ⟨0x0, [], 0, 16, .rw, 4096, (.range 1 65535)⟩
def F.STRM.FAULT_LAST.CONTEXT : Fld := ⟨0x8, [], 0, 6, .ro, 0, .any⟩
def F.STRM.FAULT_LAST.CORE : Fld := ⟨0x8, [], 6, 12, .ro, 0, .any⟩
def F.STRM.FAULT_LAST.THREAD : Fld := ⟨0x8, [], 18, 6, .ro, 0, .any⟩
def F.STRM.FAULT_LAST.CODE : Fld := ⟨0x8, [], 24, 8, .ro, 0, .any⟩
def F.STRM.FAULT_LAST.COUNT_AT : Fld := ⟨0x8, [], 32, 32, .ro, 0, .any⟩
def F.STRM.FAULT_DESC.ADDR : Fld := ⟨0x10, [], 0, 49, .ro, 0, .any⟩
def F.STRM.FAULT_COUNT.COUNT : Fld := ⟨0x18, [], 0, 32, .w1c, 0, .any⟩
def F.STRM.REARM_REJECTS.COUNT : Fld := ⟨0x20, [], 0, 32, .w1c, 0, .any⟩
def F.STRM.OOB_INDICES.COUNT : Fld := ⟨0x28, [], 0, 32, .w1c, 0, .any⟩
def F.STRM.SHED_RECEIVERS.COUNT : Fld := ⟨0x30, [], 0, 32, .w1c, 0, .any⟩
def F.STRM.MC_WAITS.CYCLES : Fld := ⟨0x38, [], 0, 64, .ro, 0, .any⟩
def F.STRM.CREDIT_WAITS.CYCLES : Fld := ⟨0x40, [], 0, 64, .ro, 0, .any⟩
def F.STRM.BYTES_READ.BYTES : Fld := ⟨0x48, [], 0, 64, .ro, 0, .any⟩
def F.STRM.BYTES_WRITTEN.BYTES : Fld := ⟨0x50, [], 0, 64, .ro, 0, .any⟩
def F.STRM.CTX_STATE.STATE : Fld := ⟨0x100, [(8, 64)], 0, 2, .ro, 0, .any⟩
def F.STRM.CTX_STATE.NEXT_VALID : Fld := ⟨0x100, [(8, 64)], 2, 1, .ro, 0, .any⟩
def F.STRM.CTX_STATE.CREDIT_WAIT : Fld := ⟨0x100, [(8, 64)], 3, 1, .ro, 0, .any⟩
def F.STRM.CTX_STATE.REARM_REJECT : Fld := ⟨0x100, [(8, 64)], 4, 1, .w1c, 0, .any⟩
def F.STRM.CTX_STATE.OWNER_CORE : Fld := ⟨0x100, [(8, 64)], 5, 12, .ro, 0, .any⟩
def F.STRM.CTX_STATE.OWNER_THREAD : Fld := ⟨0x100, [(8, 64)], 17, 6, .ro, 0, .any⟩
def F.STRM.CTX_STATE.OWNER_ENDED : Fld := ⟨0x100, [(8, 64)], 23, 1, .ro, 0, .any⟩
def F.STRM.CTX_STATE.SEGS : Fld := ⟨0x100, [(8, 64)], 32, 32, .ro, 0, .any⟩
def F.STRM.CTX_DESC.ADDR : Fld := ⟨0x300, [(8, 64)], 0, 49, .ro, 0, .any⟩
/-- The fields of a STRM block. -/
def Regs.STRM : List Fld :=
  [F.STRM.STRM_CTL.AGE_LIMIT,
   F.STRM.FAULT_LAST.CONTEXT,
   F.STRM.FAULT_LAST.CORE,
   F.STRM.FAULT_LAST.THREAD,
   F.STRM.FAULT_LAST.CODE,
   F.STRM.FAULT_LAST.COUNT_AT,
   F.STRM.FAULT_DESC.ADDR,
   F.STRM.FAULT_COUNT.COUNT,
   F.STRM.REARM_REJECTS.COUNT,
   F.STRM.OOB_INDICES.COUNT,
   F.STRM.SHED_RECEIVERS.COUNT,
   F.STRM.MC_WAITS.CYCLES,
   F.STRM.CREDIT_WAITS.CYCLES,
   F.STRM.BYTES_READ.BYTES,
   F.STRM.BYTES_WRITTEN.BYTES,
   F.STRM.CTX_STATE.STATE,
   F.STRM.CTX_STATE.NEXT_VALID,
   F.STRM.CTX_STATE.CREDIT_WAIT,
   F.STRM.CTX_STATE.REARM_REJECT,
   F.STRM.CTX_STATE.OWNER_CORE,
   F.STRM.CTX_STATE.OWNER_THREAD,
   F.STRM.CTX_STATE.OWNER_ENDED,
   F.STRM.CTX_STATE.SEGS,
   F.STRM.CTX_DESC.ADDR]

-- TSCHED (R171)
def F.TSCHED.SCHED_CTL.LAT_CAP : Fld := ⟨0x0, [], 0, 9, .rw, 128, (.range 0 256)⟩
def F.TSCHED.SCHED_STATUS.STOPPED : Fld := ⟨0x8, [], 0, 1, .ro, 0, .any⟩
def F.TSCHED.SCHED_STATUS.MODE_HOLD : Fld := ⟨0x8, [], 1, 1, .ro, 0, .any⟩
def F.TSCHED.SCHED_STATUS.FREE_ENTRIES : Fld := ⟨0x8, [], 16, 15, .ro, 16384, .any⟩
def F.TSCHED.SCHED_STATUS.WAITING : Fld := ⟨0x8, [], 32, 15, .ro, 0, .any⟩
def F.TSCHED.LAT_USED.COUNT : Fld := ⟨0x10, [], 0, 40, .ro, 0, .any⟩
def F.TSCHED.FLAG_REJECTS.COUNT : Fld := ⟨0x18, [], 0, 32, .w1c, 0, .any⟩
def F.TSCHED.SPAWN_PARKS.COUNT : Fld := ⟨0x20, [], 0, 32, .w1c, 0, .any⟩
def F.TSCHED.TASKS_STARTED.COUNT : Fld := ⟨0x28, [], 0, 32, .w1c, 0, .any⟩
def F.TSCHED.TASKS_ENDED.COUNT : Fld := ⟨0x30, [], 0, 32, .w1c, 0, .any⟩
def F.TSCHED.TASKS_ABORTED.COUNT : Fld := ⟨0x38, [], 0, 32, .w1c, 0, .any⟩
def F.TSCHED.TASKS_CANCELLED.COUNT : Fld := ⟨0x40, [], 0, 32, .w1c, 0, .any⟩
def F.TSCHED.LAT_DEPTH.DEPTH : Fld := ⟨0x100, [(8, 16)], 0, 15, .ro, 0, .any⟩
def F.TSCHED.GROUP_CTL.WEIGHT : Fld := ⟨0x180, [(8, 8)], 0, 8, .rw, 1, (.range 1 255)⟩
def F.TSCHED.GROUP_CTL.DEFICIT : Fld := ⟨0x180, [(8, 8)], 16, 48, .ro, 0, .any⟩
def F.TSCHED.BULK_DEPTH.DEPTH : Fld := ⟨0x1c0, [(8, 8)], 0, 15, .ro, 0, .any⟩
def F.TSCHED.HIST_LAT.COUNT : Fld := ⟨0x200, [(8, 16)], 0, 32, .w1c, 0, .any⟩
def F.TSCHED.HIST_BULK.COUNT : Fld := ⟨0x280, [(8, 16)], 0, 32, .w1c, 0, .any⟩
def F.TSCHED.CORE_BUSY.CYCLES : Fld := ⟨0x1000, [(8, 1024)], 0, 64, .ro, 0, .any⟩
/-- The fields of a TSCHED block. -/
def Regs.TSCHED : List Fld :=
  [F.TSCHED.SCHED_CTL.LAT_CAP,
   F.TSCHED.SCHED_STATUS.STOPPED,
   F.TSCHED.SCHED_STATUS.MODE_HOLD,
   F.TSCHED.SCHED_STATUS.FREE_ENTRIES,
   F.TSCHED.SCHED_STATUS.WAITING,
   F.TSCHED.LAT_USED.COUNT,
   F.TSCHED.FLAG_REJECTS.COUNT,
   F.TSCHED.SPAWN_PARKS.COUNT,
   F.TSCHED.TASKS_STARTED.COUNT,
   F.TSCHED.TASKS_ENDED.COUNT,
   F.TSCHED.TASKS_ABORTED.COUNT,
   F.TSCHED.TASKS_CANCELLED.COUNT,
   F.TSCHED.LAT_DEPTH.DEPTH,
   F.TSCHED.GROUP_CTL.WEIGHT,
   F.TSCHED.GROUP_CTL.DEFICIT,
   F.TSCHED.BULK_DEPTH.DEPTH,
   F.TSCHED.HIST_LAT.COUNT,
   F.TSCHED.HIST_BULK.COUNT,
   F.TSCHED.CORE_BUSY.CYCLES]

-- SYNC (R202)
def F.SYNC.SYNC_CTL.EVENT_OVERRUN_IRQ : Fld := ⟨0x0, [], 0, 1, .rw, 0, .any⟩
def F.SYNC.WAIT_LIMIT.LIMIT : Fld := ⟨0x8, [], 0, 32, .rw, 65536, (.range 1 4294967295)⟩
def F.SYNC.WD_STATUS.FIRED : Fld := ⟨0x10, [], 0, 1, .w1c, 0, .any⟩
def F.SYNC.WD_STATUS.DUMPING : Fld := ⟨0x10, [], 1, 1, .ro, 0, .any⟩
def F.SYNC.WD_STATUS.DUMP_SLOT : Fld := ⟨0x10, [], 2, 1, .ro, 0, .any⟩
def F.SYNC.WD_STATUS.RESUME_REJECT : Fld := ⟨0x10, [], 3, 1, .w1c, 0, .any⟩
def F.SYNC.WD_STATUS.DUMP_SEQ : Fld := ⟨0x10, [], 32, 32, .ro, 0, .any⟩
def F.SYNC.WD_CTL.RESUME : Fld := ⟨0x18, [], 0, 1, .wo, 0, .any⟩
def F.SYNC.DUMP_BASE.BASE : Fld := ⟨0x20, [], 24, 25, .rw, 0, .dump⟩
def F.SYNC.FAULT_LAST.OBJECT : Fld := ⟨0x28, [], 0, 16, .ro, 0, .any⟩
def F.SYNC.FAULT_LAST.CAUSE : Fld := ⟨0x28, [], 16, 3, .ro, 0, .any⟩
def F.SYNC.FAULT_LAST.COUNT_AT : Fld := ⟨0x28, [], 32, 32, .ro, 0, .any⟩
def F.SYNC.FAULT_COUNT.COUNT : Fld := ⟨0x30, [], 0, 32, .w1c, 0, .any⟩
def F.SYNC.SIG_REJECTS.COUNT : Fld := ⟨0x38, [], 0, 32, .w1c, 0, .any⟩
def F.SYNC.OVERRUN_EVENTS.COUNT : Fld := ⟨0x40, [], 0, 32, .w1c, 0, .any⟩
def F.SYNC.PARKED_WAITS.COUNT : Fld := ⟨0x48, [], 0, 20, .ro, 0, .any⟩
def F.SYNC.OBJ.TYPE : Fld := ⟨0x80000, [(8, 65536)], 0, 2, .rw, 0, .any⟩
def F.SYNC.OBJ.FAULTED : Fld := ⟨0x80000, [(8, 65536)], 2, 1, .ro, 0, .any⟩
def F.SYNC.OBJ.CAUSE : Fld := ⟨0x80000, [(8, 65536)], 3, 3, .ro, 0, .any⟩
def F.SYNC.OBJ.SET : Fld := ⟨0x80000, [(8, 65536)], 6, 1, .rw, 0, .any⟩
def F.SYNC.OBJ.GEN : Fld := ⟨0x80000, [(8, 65536)], 7, 1, .rw, 0, .any⟩
def F.SYNC.OBJ.OVERRUN : Fld := ⟨0x80000, [(8, 65536)], 8, 8, .ro, 0, .any⟩
def F.SYNC.OBJ.PARTICIPANTS : Fld := ⟨0x80000, [(8, 65536)], 16, 16, .rw, 0, .any⟩
def F.SYNC.OBJ.COUNT : Fld := ⟨0x80000, [(8, 65536)], 32, 32, .rw, 0, .any⟩
def F.SYNC.OBJ.ARRIVED : Fld := ⟨0x80000, [(8, 65536)], 32, 16, .ro, 0, .any⟩
def F.SYNC.OBJ.NEXT : Fld := ⟨0x80000, [(8, 65536)], 48, 16, .ro, 0, .any⟩
/-- The fields of a SYNC block. -/
def Regs.SYNC : List Fld :=
  [F.SYNC.SYNC_CTL.EVENT_OVERRUN_IRQ,
   F.SYNC.WAIT_LIMIT.LIMIT,
   F.SYNC.WD_STATUS.FIRED,
   F.SYNC.WD_STATUS.DUMPING,
   F.SYNC.WD_STATUS.DUMP_SLOT,
   F.SYNC.WD_STATUS.RESUME_REJECT,
   F.SYNC.WD_STATUS.DUMP_SEQ,
   F.SYNC.WD_CTL.RESUME,
   F.SYNC.DUMP_BASE.BASE,
   F.SYNC.FAULT_LAST.OBJECT,
   F.SYNC.FAULT_LAST.CAUSE,
   F.SYNC.FAULT_LAST.COUNT_AT,
   F.SYNC.FAULT_COUNT.COUNT,
   F.SYNC.SIG_REJECTS.COUNT,
   F.SYNC.OVERRUN_EVENTS.COUNT,
   F.SYNC.PARKED_WAITS.COUNT,
   F.SYNC.OBJ.TYPE,
   F.SYNC.OBJ.FAULTED,
   F.SYNC.OBJ.CAUSE,
   F.SYNC.OBJ.SET,
   F.SYNC.OBJ.GEN,
   F.SYNC.OBJ.OVERRUN,
   F.SYNC.OBJ.PARTICIPANTS,
   F.SYNC.OBJ.COUNT,
   F.SYNC.OBJ.ARRIVED,
   F.SYNC.OBJ.NEXT]

-- MODE (R202)
def F.MODE.MODE_EPOCH.EPOCH : Fld := ⟨0x0, [], 0, 32, .ro, 0, .any⟩
def F.MODE.MODE_STATUS.TRANSITION : Fld := ⟨0x8, [], 0, 1, .ro, 0, .any⟩
def F.MODE.MODE_STATUS.STAGE_REJECT : Fld := ⟨0x8, [], 1, 1, .w1c, 0, .any⟩
def F.MODE.MODE_STATUS.ABORT_LATE : Fld := ⟨0x8, [], 2, 1, .w1c, 0, .any⟩
def F.MODE.MODE_STATUS.PENDING : Fld := ⟨0x8, [], 8, 6, .ro, 0, .any⟩
def F.MODE.MODE_STATUS.TARGET : Fld := ⟨0x8, [], 32, 32, .ro, 0, .any⟩
def F.MODE.MODE_CURRENT.ROUND : Fld := ⟨0x10, [], 0, 2, .ro, 0, .any⟩
def F.MODE.MODE_CURRENT.DETERMINISTIC : Fld := ⟨0x10, [], 2, 1, .ro, 0, .any⟩
def F.MODE.MODE_CURRENT.SPARSE_DENSE_THRESH : Fld := ⟨0x10, [], 4, 7, .ro, 56, .any⟩
def F.MODE.MODE_NEXT.ROUND : Fld := ⟨0x18, [], 0, 2, .rw, 0, .any⟩
def F.MODE.MODE_NEXT.DETERMINISTIC : Fld := ⟨0x18, [], 2, 1, .rw, 0, .any⟩
def F.MODE.MODE_NEXT.SPARSE_DENSE_THRESH : Fld := ⟨0x18, [], 4, 7, .rw, 56, .any⟩
def F.MODE.MODE_CMD.COMMIT : Fld := ⟨0x20, [], 0, 1, .wo, 0, .any⟩
def F.MODE.MODE_CMD.ABORT : Fld := ⟨0x20, [], 1, 1, .wo, 0, .any⟩
/-- The fields of a MODE block. -/
def Regs.MODE : List Fld :=
  [F.MODE.MODE_EPOCH.EPOCH,
   F.MODE.MODE_STATUS.TRANSITION,
   F.MODE.MODE_STATUS.STAGE_REJECT,
   F.MODE.MODE_STATUS.ABORT_LATE,
   F.MODE.MODE_STATUS.PENDING,
   F.MODE.MODE_STATUS.TARGET,
   F.MODE.MODE_CURRENT.ROUND,
   F.MODE.MODE_CURRENT.DETERMINISTIC,
   F.MODE.MODE_CURRENT.SPARSE_DENSE_THRESH,
   F.MODE.MODE_NEXT.ROUND,
   F.MODE.MODE_NEXT.DETERMINISTIC,
   F.MODE.MODE_NEXT.SPARSE_DENSE_THRESH,
   F.MODE.MODE_CMD.COMMIT,
   F.MODE.MODE_CMD.ABORT]

-- GRIND (R238)
def F.GRIND.GR_CTL.OUT_LIMIT : Fld := ⟨0x0, [], 0, 12, .rw, 2048, (.range 1 2048)⟩
def F.GRIND.GR_CTL.STATS_ENABLE : Fld := ⟨0x0, [], 12, 1, .rw, 1, .any⟩
def F.GRIND.SUBMIT.CMD : Fld := ⟨0x8, [], 0, 64, .wo, 0, .any⟩
def F.GRIND.GR_STATUS.QUEUED : Fld := ⟨0x10, [], 0, 9, .ro, 0, .any⟩
def F.GRIND.GR_STATUS.PARKED : Fld := ⟨0x10, [], 9, 9, .ro, 0, .any⟩
def F.GRIND.GR_STATUS.DEFERRED : Fld := ⟨0x10, [], 18, 13, .ro, 0, .any⟩
def F.GRIND.GR_STATUS.MIGRATING : Fld := ⟨0x10, [], 31, 7, .ro, 0, .any⟩
def F.GRIND.HORIZON.GTC : Fld := ⟨0x18, [], 0, 64, .ro, 0, .any⟩
def F.GRIND.FAULT_LAST.CORE : Fld := ⟨0x20, [], 0, 12, .ro, 0, .any⟩
def F.GRIND.FAULT_LAST.THREAD : Fld := ⟨0x20, [], 12, 6, .ro, 0, .any⟩
def F.GRIND.FAULT_LAST.CODE : Fld := ⟨0x20, [], 24, 8, .ro, 0, .any⟩
def F.GRIND.FAULT_LAST.COUNT_AT : Fld := ⟨0x20, [], 32, 32, .ro, 0, .any⟩
def F.GRIND.FAULT_CMD.ADDR : Fld := ⟨0x28, [], 0, 49, .ro, 0, .any⟩
def F.GRIND.FAULT_COUNT.COUNT : Fld := ⟨0x30, [], 0, 32, .w1c, 0, .any⟩
def F.GRIND.GRIND_DROP.COUNT : Fld := ⟨0x38, [], 0, 32, .w1c, 0, .any⟩
def F.GRIND.COLD_DEFERS.COUNT : Fld := ⟨0x40, [], 0, 32, .w1c, 0, .any⟩
def F.GRIND.COLD_SKIPS.COUNT : Fld := ⟨0x48, [], 0, 32, .w1c, 0, .any⟩
def F.GRIND.UPD_COLD.COUNT : Fld := ⟨0x50, [], 0, 32, .w1c, 0, .any⟩
def F.GRIND.STALE_MOVING.COUNT : Fld := ⟨0x58, [], 0, 32, .w1c, 0, .any⟩
def F.GRIND.SUBMIT_STALLS.CYCLES : Fld := ⟨0x60, [], 0, 64, .ro, 0, .any⟩
def F.GRIND.DEFER_STALLS.CYCLES : Fld := ⟨0x68, [], 0, 64, .ro, 0, .any⟩
def F.GRIND.ROWS_READ.COUNT : Fld := ⟨0x70, [], 0, 64, .ro, 0, .any⟩
def F.GRIND.ROWS_UPDATED.COUNT : Fld := ⟨0x78, [], 0, 64, .ro, 0, .any⟩
def F.GRIND.MIGRATIONS.COUNT : Fld := ⟨0x80, [], 0, 64, .ro, 0, .any⟩
def F.GRIND.TAB_APPLY.SLOT : Fld := ⟨0x88, [], 0, 5, .wo, 0, .any⟩
def F.GRIND.TAB_APPLY.APPLY : Fld := ⟨0x88, [], 8, 1, .wo, 0, .any⟩
def F.GRIND.TAB_APPLY.APPLY_ALL : Fld := ⟨0x88, [], 9, 1, .wo, 0, .any⟩
def F.GRIND.TAB_PENDING.PENDING : Fld := ⟨0x90, [], 0, 32, .ro, 0, .any⟩
def F.GRIND.TAB_DIR.DIR_BASE : Fld := ⟨0x1000, [(32, 32)], 12, 37, .rw, 0, .any⟩
def F.GRIND.TAB_ROWS.ROWS : Fld := ⟨0x1008, [(32, 32)], 0, 40, .rw, 0, .any⟩
def F.GRIND.TAB_CFG.DIM : Fld := ⟨0x1010, [(32, 32)], 0, 12, .rw, 16, .dim⟩
def F.GRIND.TAB_CFG.OPT : Fld := ⟨0x1010, [(32, 32)], 12, 2, .rw, 0, .any⟩
def F.GRIND.TAB_CFG.HOME : Fld := ⟨0x1010, [(32, 32)], 14, 1, .rw, 0, .any⟩
def F.GRIND.TAB_CFG.VALID : Fld := ⟨0x1010, [(32, 32)], 15, 1, .rw, 0, .any⟩
def F.GRIND.TAB_CFG.SHARD_LOG2 : Fld := ⟨0x1010, [(32, 32)], 16, 6, .rw, 0, (.range 0 40)⟩
def F.GRIND.SK_CTL.ENABLE : Fld := ⟨0x2000, [(8, 16)], 0, 1, .rw, 0, .any⟩
def F.GRIND.SK_CTL.TABLE : Fld := ⟨0x2000, [(8, 16)], 1, 5, .rw, 0, .any⟩
def F.GRIND.SK_CTL.SHARD : Fld := ⟨0x2000, [(8, 16)], 32, 32, .rw, 0, .any⟩
/-- The fields of a GRIND block. -/
def Regs.GRIND : List Fld :=
  [F.GRIND.GR_CTL.OUT_LIMIT,
   F.GRIND.GR_CTL.STATS_ENABLE,
   F.GRIND.SUBMIT.CMD,
   F.GRIND.GR_STATUS.QUEUED,
   F.GRIND.GR_STATUS.PARKED,
   F.GRIND.GR_STATUS.DEFERRED,
   F.GRIND.GR_STATUS.MIGRATING,
   F.GRIND.HORIZON.GTC,
   F.GRIND.FAULT_LAST.CORE,
   F.GRIND.FAULT_LAST.THREAD,
   F.GRIND.FAULT_LAST.CODE,
   F.GRIND.FAULT_LAST.COUNT_AT,
   F.GRIND.FAULT_CMD.ADDR,
   F.GRIND.FAULT_COUNT.COUNT,
   F.GRIND.GRIND_DROP.COUNT,
   F.GRIND.COLD_DEFERS.COUNT,
   F.GRIND.COLD_SKIPS.COUNT,
   F.GRIND.UPD_COLD.COUNT,
   F.GRIND.STALE_MOVING.COUNT,
   F.GRIND.SUBMIT_STALLS.CYCLES,
   F.GRIND.DEFER_STALLS.CYCLES,
   F.GRIND.ROWS_READ.COUNT,
   F.GRIND.ROWS_UPDATED.COUNT,
   F.GRIND.MIGRATIONS.COUNT,
   F.GRIND.TAB_APPLY.SLOT,
   F.GRIND.TAB_APPLY.APPLY,
   F.GRIND.TAB_APPLY.APPLY_ALL,
   F.GRIND.TAB_PENDING.PENDING,
   F.GRIND.TAB_DIR.DIR_BASE,
   F.GRIND.TAB_ROWS.ROWS,
   F.GRIND.TAB_CFG.DIM,
   F.GRIND.TAB_CFG.OPT,
   F.GRIND.TAB_CFG.HOME,
   F.GRIND.TAB_CFG.VALID,
   F.GRIND.TAB_CFG.SHARD_LOG2,
   F.GRIND.SK_CTL.ENABLE,
   F.GRIND.SK_CTL.TABLE,
   F.GRIND.SK_CTL.SHARD]

-- PERC (R277)
def F.PERC.RING_CTL.ENABLE : Fld := ⟨0x0, [], 0, 1, .rw, 0, .any⟩
def F.PERC.RING_CTL.N : Fld := ⟨0x0, [], 1, 11, .rw, 2, (.range 2 1024)⟩
def F.PERC.RING_CTL.POS : Fld := ⟨0x0, [], 12, 11, .rw, 0, .any⟩
def F.PERC.RING_CTL.RING_ID : Fld := ⟨0x0, [], 32, 16, .rw, 0, .any⟩
def F.PERC.RING_PORTS.SEND : Fld := ⟨0x8, [], 0, 9, .rw, 0, .any⟩
def F.PERC.RING_PORTS.RECV : Fld := ⟨0x8, [], 16, 9, .rw, 0, .any⟩
def F.PERC.STAGE.QSEL : Fld := ⟨0x10, [], 0, 1, .rw, 0, .any⟩
def F.PERC.STAGE.BANK : Fld := ⟨0x10, [], 1, 6, .rw, 0, .any⟩
def F.PERC.STAGE.NBANK : Fld := ⟨0x10, [], 7, 4, .rw, 4, (.range 1 8)⟩
def F.PERC.RING_LIMIT.LIMIT : Fld := ⟨0x18, [], 0, 32, .rw, 16384, (.range 1 4294967295)⟩
def F.PERC.RING_STATUS.STATE : Fld := ⟨0x20, [], 0, 2, .ro, 0, .any⟩
def F.PERC.RING_STATUS.CAUSE : Fld := ⟨0x20, [], 2, 3, .ro, 0, .any⟩
def F.PERC.RING_STATUS.CFG_REJECT : Fld := ⟨0x20, [], 5, 1, .w1c, 0, .any⟩
def F.PERC.RING_STATUS.PASS_SEQ : Fld := ⟨0x20, [], 32, 32, .ro, 0, .any⟩
def F.PERC.SUBMIT.CMD : Fld := ⟨0x28, [], 0, 64, .wo, 0, .any⟩
def F.PERC.PC_STATUS.QUEUED : Fld := ⟨0x30, [], 0, 5, .ro, 0, .any⟩
def F.PERC.PC_STATUS.ACTIVE : Fld := ⟨0x30, [], 5, 1, .ro, 0, .any⟩
def F.PERC.PC_STATUS.BLOCKS : Fld := ⟨0x30, [], 16, 11, .ro, 0, .any⟩
def F.PERC.FAULT_LAST.CORE : Fld := ⟨0x38, [], 0, 12, .ro, 0, .any⟩
def F.PERC.FAULT_LAST.THREAD : Fld := ⟨0x38, [], 12, 6, .ro, 0, .any⟩
def F.PERC.FAULT_LAST.CODE : Fld := ⟨0x38, [], 24, 8, .ro, 0, .any⟩
def F.PERC.FAULT_LAST.COUNT_AT : Fld := ⟨0x38, [], 32, 32, .ro, 0, .any⟩
def F.PERC.FAULT_CMD.ADDR : Fld := ⟨0x40, [], 0, 49, .ro, 0, .any⟩
def F.PERC.FAULT_COUNT.COUNT : Fld := ⟨0x48, [], 0, 32, .w1c, 0, .any⟩
def F.PERC.BYTES_SENT.BYTES : Fld := ⟨0x50, [], 0, 64, .ro, 0, .any⟩
def F.PERC.BYTES_RECV.BYTES : Fld := ⟨0x58, [], 0, 64, .ro, 0, .any⟩
def F.PERC.SEND_STALLS.CYCLES : Fld := ⟨0x60, [], 0, 64, .ro, 0, .any⟩
def F.PERC.LAND_STALLS.CYCLES : Fld := ⟨0x68, [], 0, 64, .ro, 0, .any⟩
def F.PERC.POISON_PASSED.COUNT : Fld := ⟨0x70, [], 0, 32, .w1c, 0, .any⟩
def F.PERC.KV_CTL.SERVE : Fld := ⟨0x78, [], 0, 1, .rw, 0, .any⟩
def F.PERC.KV_DIR.BASE : Fld := ⟨0x80, [], 12, 37, .rw, 0, .any⟩
def F.PERC.KV_BLOCKS.COUNT : Fld := ⟨0x88, [], 0, 40, .rw, 0, .any⟩
def F.PERC.KV_SERVED.COUNT : Fld := ⟨0x90, [], 0, 32, .w1c, 0, .any⟩
def F.PERC.KV_MISSES.COUNT : Fld := ⟨0x98, [], 0, 32, .w1c, 0, .any⟩
def F.PERC.CACHE_HORIZON.GTC : Fld := ⟨0xa0, [], 0, 64, .ro, 0, .any⟩
/-- The fields of a PERC block. -/
def Regs.PERC : List Fld :=
  [F.PERC.RING_CTL.ENABLE,
   F.PERC.RING_CTL.N,
   F.PERC.RING_CTL.POS,
   F.PERC.RING_CTL.RING_ID,
   F.PERC.RING_PORTS.SEND,
   F.PERC.RING_PORTS.RECV,
   F.PERC.STAGE.QSEL,
   F.PERC.STAGE.BANK,
   F.PERC.STAGE.NBANK,
   F.PERC.RING_LIMIT.LIMIT,
   F.PERC.RING_STATUS.STATE,
   F.PERC.RING_STATUS.CAUSE,
   F.PERC.RING_STATUS.CFG_REJECT,
   F.PERC.RING_STATUS.PASS_SEQ,
   F.PERC.SUBMIT.CMD,
   F.PERC.PC_STATUS.QUEUED,
   F.PERC.PC_STATUS.ACTIVE,
   F.PERC.PC_STATUS.BLOCKS,
   F.PERC.FAULT_LAST.CORE,
   F.PERC.FAULT_LAST.THREAD,
   F.PERC.FAULT_LAST.CODE,
   F.PERC.FAULT_LAST.COUNT_AT,
   F.PERC.FAULT_CMD.ADDR,
   F.PERC.FAULT_COUNT.COUNT,
   F.PERC.BYTES_SENT.BYTES,
   F.PERC.BYTES_RECV.BYTES,
   F.PERC.SEND_STALLS.CYCLES,
   F.PERC.LAND_STALLS.CYCLES,
   F.PERC.POISON_PASSED.COUNT,
   F.PERC.KV_CTL.SERVE,
   F.PERC.KV_DIR.BASE,
   F.PERC.KV_BLOCKS.COUNT,
   F.PERC.KV_SERVED.COUNT,
   F.PERC.KV_MISSES.COUNT,
   F.PERC.CACHE_HORIZON.GTC]

-- CELLAR (R297)
def F.CELLAR.CACHE_CTL.ENABLE : Fld := ⟨0x0, [], 0, 1, .rw, 1, .any⟩
def F.CELLAR.CACHE_CTL.STREAM_DETECT : Fld := ⟨0x0, [], 1, 1, .rw, 1, .any⟩
def F.CELLAR.CACHE_STATUS.ENABLED : Fld := ⟨0x8, [], 0, 1, .ro, 1, .any⟩
def F.CELLAR.CACHE_STATUS.DISABLING : Fld := ⟨0x8, [], 1, 1, .ro, 0, .any⟩
def F.CELLAR.CACHE_STATUS.ENABLE_REJECT : Fld := ⟨0x8, [], 2, 1, .w1c, 0, .any⟩
def F.CELLAR.CACHE_STATUS.CACHE_BANKS : Fld := ⟨0x8, [], 8, 6, .ro, 56, .any⟩
def F.CELLAR.CELLAR_STATUS.HANDOVER_REJECT : Fld := ⟨0x10, [], 0, 1, .w1c, 0, .any⟩
def F.CELLAR.RANGE_CMD.OP : Fld := ⟨0x18, [], 0, 2, .rw, 0, .any⟩
def F.CELLAR.RANGE_CMD.ALL : Fld := ⟨0x18, [], 2, 1, .rw, 0, .any⟩
def F.CELLAR.RANGE_CMD.GO : Fld := ⟨0x18, [], 8, 1, .wo, 0, .any⟩
def F.CELLAR.RANGE_START.ADDR : Fld := ⟨0x20, [], 8, 41, .rw, 0, .any⟩
def F.CELLAR.RANGE_LEN.LEN : Fld := ⟨0x28, [], 8, 32, .rw, 0, .any⟩
def F.CELLAR.RANGE_STATUS.BUSY : Fld := ⟨0x30, [], 0, 1, .ro, 0, .any⟩
def F.CELLAR.RANGE_STATUS.DONE : Fld := ⟨0x30, [], 1, 1, .w1c, 0, .any⟩
def F.CELLAR.RANGE_STATUS.REJECT : Fld := ⟨0x30, [], 2, 1, .w1c, 0, .any⟩
def F.CELLAR.RANGE_STATUS.DISCARDED : Fld := ⟨0x30, [], 32, 32, .w1c, 0, .any⟩
def F.CELLAR.MARCH_CTL.BANK : Fld := ⟨0x38, [], 0, 6, .rw, 0, (.range 0 57)⟩
def F.CELLAR.MARCH_CTL.PRESERVE : Fld := ⟨0x38, [], 6, 1, .rw, 0, .any⟩
def F.CELLAR.MARCH_CTL.GO : Fld := ⟨0x38, [], 8, 1, .wo, 0, .any⟩
def F.CELLAR.MARCH_STATUS.BUSY : Fld := ⟨0x40, [], 0, 1, .ro, 0, .any⟩
def F.CELLAR.MARCH_STATUS.DONE : Fld := ⟨0x40, [], 1, 1, .w1c, 0, .any⟩
def F.CELLAR.MARCH_STATUS.FAIL : Fld := ⟨0x40, [], 2, 1, .w1c, 0, .any⟩
def F.CELLAR.MARCH_STATUS.REJECT : Fld := ⟨0x40, [], 3, 1, .w1c, 0, .any⟩
def F.CELLAR.MARCH_STATUS.FAIL_WORDS : Fld := ⟨0x40, [], 8, 20, .ro, 0, .any⟩
def F.CELLAR.MARCH_STATUS.FIRST_FAIL : Fld := ⟨0x40, [], 32, 19, .ro, 0, .any⟩
def F.CELLAR.REFUSED_ADDR.ADDR : Fld := ⟨0x48, [], 0, 49, .ro, 0, .any⟩
def F.CELLAR.REFUSED_COUNT.COUNT : Fld := ⟨0x50, [], 0, 32, .w1c, 0, .any⟩
def F.CELLAR.CACHE_HITS.COUNT : Fld := ⟨0x58, [], 0, 64, .ro, 0, .any⟩
def F.CELLAR.CACHE_MISSES.COUNT : Fld := ⟨0x60, [], 0, 64, .ro, 0, .any⟩
def F.CELLAR.WRITEBACKS.COUNT : Fld := ⟨0x68, [], 0, 64, .ro, 0, .any⟩
def F.CELLAR.NOALLOC_WRITES.COUNT : Fld := ⟨0x70, [], 0, 64, .ro, 0, .any⟩
def F.CELLAR.EVB_WAITS.COUNT : Fld := ⟨0x78, [], 0, 64, .ro, 0, .any⟩
def F.CELLAR.SPARE_MAP.SPARE0_FOR : Fld := ⟨0x80, [], 0, 6, .lw, 0, .any⟩
def F.CELLAR.SPARE_MAP.SPARE0_USED : Fld := ⟨0x80, [], 6, 1, .lw, 0, .any⟩
def F.CELLAR.SPARE_MAP.SPARE1_FOR : Fld := ⟨0x80, [], 8, 6, .lw, 0, .any⟩
def F.CELLAR.SPARE_MAP.SPARE1_USED : Fld := ⟨0x80, [], 14, 1, .lw, 0, .any⟩
def F.CELLAR.BANK_OWN.OWNER_KIND : Fld := ⟨0x1000, [(8, 56)], 0, 3, .rw, 1, (.range 0 6)⟩
def F.CELLAR.BANK_OWN.OWNER_ID : Fld := ⟨0x1000, [(8, 56)], 4, 4, .rw, 0, .any⟩
def F.CELLAR.BANK_OWN.MODE : Fld := ⟨0x1000, [(8, 56)], 8, 2, .rw, 0, .any⟩
def F.CELLAR.BANK_OWN.POWER : Fld := ⟨0x1000, [(8, 56)], 10, 2, .rw, 0, (.range 0 2)⟩
def F.CELLAR.BANK_OWN.ZERO : Fld := ⟨0x1000, [(8, 56)], 12, 1, .wo, 0, .any⟩
def F.CELLAR.BANK_STATUS.BUSY : Fld := ⟨0x1400, [(8, 56)], 0, 1, .ro, 0, .any⟩
def F.CELLAR.BANK_STATUS.INV : Fld := ⟨0x1400, [(8, 56)], 1, 1, .ro, 1, .any⟩
def F.CELLAR.BANK_STATUS.POWER_STATE : Fld := ⟨0x1400, [(8, 56)], 2, 2, .ro, 0, .any⟩
def F.CELLAR.BANK_STATUS.FAILED : Fld := ⟨0x1400, [(8, 56)], 4, 1, .ro, 0, .any⟩
def F.CELLAR.BANK_STATUS.CE : Fld := ⟨0x1400, [(8, 56)], 32, 32, .w1c, 0, .any⟩
/-- The fields of a CELLAR block. -/
def Regs.CELLAR : List Fld :=
  [F.CELLAR.CACHE_CTL.ENABLE,
   F.CELLAR.CACHE_CTL.STREAM_DETECT,
   F.CELLAR.CACHE_STATUS.ENABLED,
   F.CELLAR.CACHE_STATUS.DISABLING,
   F.CELLAR.CACHE_STATUS.ENABLE_REJECT,
   F.CELLAR.CACHE_STATUS.CACHE_BANKS,
   F.CELLAR.CELLAR_STATUS.HANDOVER_REJECT,
   F.CELLAR.RANGE_CMD.OP,
   F.CELLAR.RANGE_CMD.ALL,
   F.CELLAR.RANGE_CMD.GO,
   F.CELLAR.RANGE_START.ADDR,
   F.CELLAR.RANGE_LEN.LEN,
   F.CELLAR.RANGE_STATUS.BUSY,
   F.CELLAR.RANGE_STATUS.DONE,
   F.CELLAR.RANGE_STATUS.REJECT,
   F.CELLAR.RANGE_STATUS.DISCARDED,
   F.CELLAR.MARCH_CTL.BANK,
   F.CELLAR.MARCH_CTL.PRESERVE,
   F.CELLAR.MARCH_CTL.GO,
   F.CELLAR.MARCH_STATUS.BUSY,
   F.CELLAR.MARCH_STATUS.DONE,
   F.CELLAR.MARCH_STATUS.FAIL,
   F.CELLAR.MARCH_STATUS.REJECT,
   F.CELLAR.MARCH_STATUS.FAIL_WORDS,
   F.CELLAR.MARCH_STATUS.FIRST_FAIL,
   F.CELLAR.REFUSED_ADDR.ADDR,
   F.CELLAR.REFUSED_COUNT.COUNT,
   F.CELLAR.CACHE_HITS.COUNT,
   F.CELLAR.CACHE_MISSES.COUNT,
   F.CELLAR.WRITEBACKS.COUNT,
   F.CELLAR.NOALLOC_WRITES.COUNT,
   F.CELLAR.EVB_WAITS.COUNT,
   F.CELLAR.SPARE_MAP.SPARE0_FOR,
   F.CELLAR.SPARE_MAP.SPARE0_USED,
   F.CELLAR.SPARE_MAP.SPARE1_FOR,
   F.CELLAR.SPARE_MAP.SPARE1_USED,
   F.CELLAR.BANK_OWN.OWNER_KIND,
   F.CELLAR.BANK_OWN.OWNER_ID,
   F.CELLAR.BANK_OWN.MODE,
   F.CELLAR.BANK_OWN.POWER]
  ++ [F.CELLAR.BANK_OWN.ZERO,
   F.CELLAR.BANK_STATUS.BUSY,
   F.CELLAR.BANK_STATUS.INV,
   F.CELLAR.BANK_STATUS.POWER_STATE,
   F.CELLAR.BANK_STATUS.FAILED,
   F.CELLAR.BANK_STATUS.CE]

-- STACK (R315)
def F.STACK.STACK_CTL.LAT_SHARE : Fld := ⟨0x0, [], 0, 9, .rw, 64, (.range 0 256)⟩
def F.STACK.STACK_CTL.SCRUB_ENABLE : Fld := ⟨0x0, [], 9, 1, .rw, 1, .any⟩
def F.STACK.STACK_CTL.SCRUB_HOURS : Fld := ⟨0x0, [], 16, 8, .rw, 24, (.range 1 255)⟩
def F.STACK.STACK_CTL.TEST_MODE : Fld := ⟨0x0, [], 24, 1, .rw, 0, .any⟩
def F.STACK.STACK_CTL.LANE_LIMIT : Fld := ⟨0x0, [], 48, 16, .rw, 1024, (.range 1 65535)⟩
def F.STACK.STACK_STATUS.STATE : Fld := ⟨0x8, [], 0, 3, .ro, 1, .any⟩
def F.STACK.STACK_STATUS.REFRESH_2X : Fld := ⟨0x8, [], 3, 1, .ro, 0, .any⟩
def F.STACK.STACK_STATUS.TEST_REJECT : Fld := ⟨0x8, [], 4, 1, .w1c, 0, .any⟩
def F.STACK.STACK_STATUS.TEMP : Fld := ⟨0x8, [], 8, 8, .ro, 0, .any⟩
def F.STACK.TRAIN_CTL.CHANNEL : Fld := ⟨0x10, [], 0, 4, .rw, 0, .any⟩
def F.STACK.TRAIN_CTL.RETRAIN : Fld := ⟨0x10, [], 4, 1, .wo, 0, .any⟩
def F.STACK.CE_COUNT.COUNT : Fld := ⟨0x18, [], 0, 32, .w1c, 0, .any⟩
def F.STACK.UE_COUNT.COUNT : Fld := ⟨0x20, [], 0, 32, .w1c, 0, .any⟩
def F.STACK.UE_ADDR.ADDR : Fld := ⟨0x28, [], 0, 49, .ro, 0, .any⟩
def F.STACK.SCRUB_STATUS.PASSES : Fld := ⟨0x30, [], 0, 32, .ro, 0, .any⟩
def F.STACK.SCRUB_STATUS.SCRUB_CORRECTED : Fld := ⟨0x30, [], 32, 32, .w1c, 0, .any⟩
def F.STACK.WITHDRAWN_ACCESSES.COUNT : Fld := ⟨0x38, [], 0, 32, .ro, 0, .any⟩
def F.STACK.READ_BYTES.COUNT : Fld := ⟨0x40, [], 0, 64, .ro, 0, .any⟩
def F.STACK.WRITE_BYTES.COUNT : Fld := ⟨0x48, [], 0, 64, .ro, 0, .any⟩
def F.STACK.LAT_LIMITED.COUNT : Fld := ⟨0x50, [], 0, 64, .ro, 0, .any⟩
def F.STACK.CH_STATUS.TRAINED : Fld := ⟨0x1000, [(64, 16)], 0, 1, .ro, 1, .any⟩
def F.STACK.CH_STATUS.FAILED : Fld := ⟨0x1000, [(64, 16)], 1, 1, .ro, 0, .any⟩
def F.STACK.CH_STATUS.FAILING : Fld := ⟨0x1000, [(64, 16)], 8, 8, .ro, 0, .any⟩
def F.STACK.CH_STATUS.CA_ERRORS : Fld := ⟨0x1000, [(64, 16)], 32, 32, .w1c, 0, .any⟩
def F.STACK.REPAIR.PC0_LANE : Fld := ⟨0x1008, [(64, 16)], 0, 6, .lw, 0, .any⟩
def F.STACK.REPAIR.PC0_USED : Fld := ⟨0x1008, [(64, 16)], 6, 1, .lw, 0, .any⟩
def F.STACK.REPAIR.PC1_LANE : Fld := ⟨0x1008, [(64, 16)], 8, 6, .lw, 0, .any⟩
def F.STACK.REPAIR.PC1_USED : Fld := ⟨0x1008, [(64, 16)], 14, 1, .lw, 0, .any⟩
def F.STACK.REPAIR.CA_LANE : Fld := ⟨0x1008, [(64, 16)], 16, 5, .lw, 0, .any⟩
def F.STACK.REPAIR.CA_USED : Fld := ⟨0x1008, [(64, 16)], 21, 1, .lw, 0, .any⟩
def F.STACK.TG_CTL.PATTERN : Fld := ⟨0x1010, [(64, 16)], 0, 2, .rw, 0, (.range 0 2)⟩
def F.STACK.TG_CTL.PC_MASK : Fld := ⟨0x1010, [(64, 16)], 2, 2, .rw, 3, (.range 1 3)⟩
def F.STACK.TG_CTL.WRITE_PCT : Fld := ⟨0x1010, [(64, 16)], 4, 4, .rw, 8, .any⟩
def F.STACK.TG_CTL.GO : Fld := ⟨0x1010, [(64, 16)], 8, 1, .wo, 0, .any⟩
def F.STACK.TG_RANGE.START : Fld := ⟨0x1018, [(64, 16)], 0, 32, .rw, 0, .any⟩
def F.STACK.TG_RANGE.LEN : Fld := ⟨0x1018, [(64, 16)], 32, 32, .rw, 0, .any⟩
def F.STACK.TG_COUNT.COUNT : Fld := ⟨0x1020, [(64, 16)], 0, 32, .rw, 0, .any⟩
def F.STACK.TG_COUNT.SEED : Fld := ⟨0x1020, [(64, 16)], 32, 31, .rw, 1, (.range 1 2147483647)⟩
def F.STACK.TG_STATUS.BUSY : Fld := ⟨0x1028, [(64, 16)], 0, 1, .ro, 0, .any⟩
def F.STACK.TG_STATUS.DONE : Fld := ⟨0x1028, [(64, 16)], 1, 1, .w1c, 0, .any⟩
def F.STACK.TG_STATUS.REJECT : Fld := ⟨0x1028, [(64, 16)], 2, 1, .w1c, 0, .any⟩
def F.STACK.TG_ERRORS.COUNT : Fld := ⟨0x1030, [(64, 16)], 0, 32, .w1c, 0, .any⟩
def F.STACK.LANE_CE.COUNT : Fld := ⟨0x2000, [(1024, 16), (512, 2), (8, 36)], 0, 32, .w1c, 0, .any⟩
/-- The fields of a STACK block. -/
def Regs.STACK : List Fld :=
  [F.STACK.STACK_CTL.LAT_SHARE,
   F.STACK.STACK_CTL.SCRUB_ENABLE,
   F.STACK.STACK_CTL.SCRUB_HOURS,
   F.STACK.STACK_CTL.TEST_MODE,
   F.STACK.STACK_CTL.LANE_LIMIT,
   F.STACK.STACK_STATUS.STATE,
   F.STACK.STACK_STATUS.REFRESH_2X,
   F.STACK.STACK_STATUS.TEST_REJECT,
   F.STACK.STACK_STATUS.TEMP,
   F.STACK.TRAIN_CTL.CHANNEL,
   F.STACK.TRAIN_CTL.RETRAIN,
   F.STACK.CE_COUNT.COUNT,
   F.STACK.UE_COUNT.COUNT,
   F.STACK.UE_ADDR.ADDR,
   F.STACK.SCRUB_STATUS.PASSES,
   F.STACK.SCRUB_STATUS.SCRUB_CORRECTED,
   F.STACK.WITHDRAWN_ACCESSES.COUNT,
   F.STACK.READ_BYTES.COUNT,
   F.STACK.WRITE_BYTES.COUNT,
   F.STACK.LAT_LIMITED.COUNT,
   F.STACK.CH_STATUS.TRAINED,
   F.STACK.CH_STATUS.FAILED,
   F.STACK.CH_STATUS.FAILING,
   F.STACK.CH_STATUS.CA_ERRORS,
   F.STACK.REPAIR.PC0_LANE,
   F.STACK.REPAIR.PC0_USED,
   F.STACK.REPAIR.PC1_LANE,
   F.STACK.REPAIR.PC1_USED,
   F.STACK.REPAIR.CA_LANE,
   F.STACK.REPAIR.CA_USED,
   F.STACK.TG_CTL.PATTERN,
   F.STACK.TG_CTL.PC_MASK,
   F.STACK.TG_CTL.WRITE_PCT,
   F.STACK.TG_CTL.GO,
   F.STACK.TG_RANGE.START,
   F.STACK.TG_RANGE.LEN,
   F.STACK.TG_COUNT.COUNT,
   F.STACK.TG_COUNT.SEED,
   F.STACK.TG_STATUS.BUSY,
   F.STACK.TG_STATUS.DONE]
  ++ [F.STACK.TG_STATUS.REJECT,
   F.STACK.TG_ERRORS.COUNT,
   F.STACK.LANE_CE.COUNT]

-- TL (R347)
def F.TL.PORT_CTL.ENABLE : Fld := ⟨0x0, [], 0, 1, .rw, 0, .any⟩
def F.TL.PORT_CTL.LANE_LIMIT : Fld := ⟨0x0, [], 16, 16, .rw, 4096, (.range 1 65535)⟩
def F.TL.PORT_STATUS.STATE : Fld := ⟨0x8, [], 0, 3, .ro, 0, .any⟩
def F.TL.PORT_STATUS.CAUSE : Fld := ⟨0x8, [], 3, 3, .ro, 0, .any⟩
def F.TL.PORT_STATUS.SPARE_USED : Fld := ⟨0x8, [], 6, 1, .ro, 0, .any⟩
def F.TL.PORT_STATUS.SPARE_FOR : Fld := ⟨0x8, [], 7, 4, .ro, 0, .any⟩
def F.TL.PORT_STATUS.CFG_REJECT : Fld := ⟨0x8, [], 11, 1, .w1c, 0, .any⟩
def F.TL.PEER.DEV : Fld := ⟨0x10, [], 0, 16, .ro, 0, .any⟩
def F.TL.PEER.PORT : Fld := ⟨0x10, [], 16, 5, .ro, 0, .any⟩
def F.TL.FEC_CORRECTED.COUNT : Fld := ⟨0x18, [], 0, 32, .w1c, 0, .any⟩
def F.TL.FRAMES_BAD.COUNT : Fld := ⟨0x20, [], 0, 32, .w1c, 0, .any⟩
def F.TL.REPLAYS.COUNT : Fld := ⟨0x28, [], 0, 32, .w1c, 0, .any⟩
def F.TL.RECOVERIES.COUNT : Fld := ⟨0x30, [], 0, 32, .w1c, 0, .any⟩
def F.TL.REPAIRS.COUNT : Fld := ⟨0x38, [], 0, 32, .w1c, 0, .any⟩
def F.TL.TX_BYTES.COUNT : Fld := ⟨0x40, [], 0, 64, .ro, 0, .any⟩
def F.TL.RX_BYTES.COUNT : Fld := ⟨0x48, [], 0, 64, .ro, 0, .any⟩
def F.TL.CREDIT_STALLS.COUNT : Fld := ⟨0x50, [], 0, 64, .ro, 0, .any⟩
def F.TL.LANE_CE.COUNT : Fld := ⟨0x100, [(8, 9)], 0, 32, .w1c, 0, .any⟩
/-- The fields of a TL block. -/
def Regs.TL : List Fld :=
  [F.TL.PORT_CTL.ENABLE,
   F.TL.PORT_CTL.LANE_LIMIT,
   F.TL.PORT_STATUS.STATE,
   F.TL.PORT_STATUS.CAUSE,
   F.TL.PORT_STATUS.SPARE_USED,
   F.TL.PORT_STATUS.SPARE_FOR,
   F.TL.PORT_STATUS.CFG_REJECT,
   F.TL.PEER.DEV,
   F.TL.PEER.PORT,
   F.TL.FEC_CORRECTED.COUNT,
   F.TL.FRAMES_BAD.COUNT,
   F.TL.REPLAYS.COUNT,
   F.TL.RECOVERIES.COUNT,
   F.TL.REPAIRS.COUNT,
   F.TL.TX_BYTES.COUNT,
   F.TL.RX_BYTES.COUNT,
   F.TL.CREDIT_STALLS.COUNT,
   F.TL.LANE_CE.COUNT]

-- GTC (R348)
def F.GTC.GTC.COUNT : Fld := ⟨0x0, [], 0, 64, .ro, 0, .any⟩
def F.GTC.GTC_CTL.MODE : Fld := ⟨0x8, [], 0, 2, .rw, 0, (.range 0 2)⟩
def F.GTC.GTC_CTL.SYNC_PORT : Fld := ⟨0x8, [], 2, 5, .rw, 0, (.range 0 17)⟩
def F.GTC.GTC_CTL.SYNC_OUT : Fld := ⟨0x8, [], 8, 18, .rw, 0, .any⟩
def F.GTC.GTC_STATUS.LOCKED : Fld := ⟨0x10, [], 0, 1, .ro, 0, .any⟩
def F.GTC.GTC_STATUS.HOLDOVER : Fld := ⟨0x10, [], 1, 1, .ro, 0, .any⟩
def F.GTC.GTC_STATUS.STEPPED : Fld := ⟨0x10, [], 2, 1, .w1c, 0, .any⟩
def F.GTC.GTC_STATUS.LEVEL : Fld := ⟨0x10, [], 3, 5, .ro, 0, .any⟩
def F.GTC.GTC_STATUS.OFFSET : Fld := ⟨0x10, [], 32, 32, .ro, 0, .any⟩
def F.GTC.GTC_SLEWS.COUNT : Fld := ⟨0x18, [], 0, 64, .ro, 0, .any⟩
def F.GTC.LAUNCH_HELD.COUNT : Fld := ⟨0x20, [], 0, 16, .ro, 0, .any⟩
def F.GTC.LAUNCH_LATE.COUNT : Fld := ⟨0x28, [], 0, 32, .w1c, 0, .any⟩
def F.GTC.DEV_NUM.NUM : Fld := ⟨0x30, [], 0, 16, .rw, 65535, .any⟩
def F.GTC.ROLE.ROLE : Fld := ⟨0x38, [], 0, 3, .rw, 0, (.range 0 4)⟩
def F.GTC.ANNOUNCE.ALIAS : Fld := ⟨0x40, [], 0, 3, .wo, 0, .any⟩
def F.GTC.ANNOUNCE.GO : Fld := ⟨0x40, [], 8, 1, .wo, 0, .any⟩
def F.GTC.FENCE.FENCED : Fld := ⟨0x48, [], 0, 1, .w1c, 0, .any⟩
def F.GTC.ROUTE_IDX.INDEX : Fld := ⟨0x50, [], 0, 16, .rw, 0, .any⟩
def F.GTC.ROUTE_DATA.PORTS : Fld := ⟨0x58, [], 0, 18, .rw, 0, .route⟩
def F.GTC.ROUTE_DATA.HOPS : Fld := ⟨0x58, [], 18, 5, .rw, 0, .any⟩
def F.GTC.ROUTE_DATA.VALID : Fld := ⟨0x58, [], 31, 1, .rw, 0, .any⟩
def F.GTC.ROUTE_DROPS.COUNT : Fld := ⟨0x60, [], 0, 32, .w1c, 0, .any⟩
def F.GTC.ROUTE_DROPS.LAST_DST : Fld := ⟨0x60, [], 48, 16, .ro, 0, .any⟩
def F.GTC.CLAIMS_SEEN.COUNT : Fld := ⟨0x68, [], 0, 32, .w1c, 0, .any⟩
def F.GTC.ALIAS.NUM : Fld := ⟨0x100, [(8, 8)], 0, 16, .rw, 0, .any⟩
def F.GTC.ALIAS.GEN : Fld := ⟨0x100, [(8, 8)], 16, 8, .rw, 0, .any⟩
def F.GTC.ALIAS.VALID : Fld := ⟨0x100, [(8, 8)], 24, 1, .rw, 0, .any⟩
def F.GTC.ALIAS.FENCED : Fld := ⟨0x100, [(8, 8)], 25, 1, .w1c, 0, .any⟩
/-- The fields of a GTC block. -/
def Regs.GTC : List Fld :=
  [F.GTC.GTC.COUNT,
   F.GTC.GTC_CTL.MODE,
   F.GTC.GTC_CTL.SYNC_PORT,
   F.GTC.GTC_CTL.SYNC_OUT,
   F.GTC.GTC_STATUS.LOCKED,
   F.GTC.GTC_STATUS.HOLDOVER,
   F.GTC.GTC_STATUS.STEPPED,
   F.GTC.GTC_STATUS.LEVEL,
   F.GTC.GTC_STATUS.OFFSET,
   F.GTC.GTC_SLEWS.COUNT,
   F.GTC.LAUNCH_HELD.COUNT,
   F.GTC.LAUNCH_LATE.COUNT,
   F.GTC.DEV_NUM.NUM,
   F.GTC.ROLE.ROLE,
   F.GTC.ANNOUNCE.ALIAS,
   F.GTC.ANNOUNCE.GO,
   F.GTC.FENCE.FENCED,
   F.GTC.ROUTE_IDX.INDEX,
   F.GTC.ROUTE_DATA.PORTS,
   F.GTC.ROUTE_DATA.HOPS,
   F.GTC.ROUTE_DATA.VALID,
   F.GTC.ROUTE_DROPS.COUNT,
   F.GTC.ROUTE_DROPS.LAST_DST,
   F.GTC.CLAIMS_SEEN.COUNT,
   F.GTC.ALIAS.NUM,
   F.GTC.ALIAS.GEN,
   F.GTC.ALIAS.VALID,
   F.GTC.ALIAS.FENCED]

-- COLL (R349)
def F.COLL.SUBMIT.CMD : Fld := ⟨0x0, [], 0, 64, .wo, 0, .any⟩
def F.COLL.CO_STATUS.QUEUED : Fld := ⟨0x8, [], 0, 7, .ro, 0, .any⟩
def F.COLL.CO_STATUS.ACTIVE : Fld := ⟨0x8, [], 7, 4, .ro, 0, .any⟩
def F.COLL.STAGE.QSEL : Fld := ⟨0x10, [], 0, 1, .rw, 1, .any⟩
def F.COLL.STAGE.BANK : Fld := ⟨0x10, [], 1, 6, .rw, 0, .any⟩
def F.COLL.STAGE.NBANK : Fld := ⟨0x10, [], 7, 4, .rw, 4, (.range 1 8)⟩
def F.COLL.COLL_LIMIT.LIMIT : Fld := ⟨0x18, [], 0, 32, .rw, 16384, (.range 1 4294967295)⟩
def F.COLL.LAYOUT.CUR : Fld := ⟨0x20, [], 0, 16, .ro, 0, .any⟩
def F.COLL.LAYOUT.DRAINING : Fld := ⟨0x20, [], 16, 1, .ro, 0, .any⟩
def F.COLL.LAYOUT.EPOCH_DRAINED : Fld := ⟨0x20, [], 17, 1, .w1c, 0, .any⟩
def F.COLL.LAYOUT.LAYOUT_REJECT : Fld := ⟨0x20, [], 18, 1, .w1c, 0, .any⟩
def F.COLL.LAYOUT_CMD.NEW : Fld := ⟨0x28, [], 0, 16, .wo, 0, .any⟩
def F.COLL.LAYOUT_CMD.RESHARD : Fld := ⟨0x28, [], 16, 1, .wo, 0, .any⟩
def F.COLL.FAULT_LAST.CORE : Fld := ⟨0x30, [], 0, 12, .ro, 0, .any⟩
def F.COLL.FAULT_LAST.THREAD : Fld := ⟨0x30, [], 12, 6, .ro, 0, .any⟩
def F.COLL.FAULT_LAST.CODE : Fld := ⟨0x30, [], 24, 8, .ro, 0, .any⟩
def F.COLL.FAULT_LAST.COUNT_AT : Fld := ⟨0x30, [], 32, 32, .ro, 0, .any⟩
def F.COLL.FAULT_CMD.ADDR : Fld := ⟨0x38, [], 0, 49, .ro, 0, .any⟩
def F.COLL.FAULT_COUNT.COUNT : Fld := ⟨0x40, [], 0, 32, .w1c, 0, .any⟩
def F.COLL.POISON_PASSED.COUNT : Fld := ⟨0x48, [], 0, 32, .w1c, 0, .any⟩
def F.COLL.BYTES_SENT.BYTES : Fld := ⟨0x50, [], 0, 64, .ro, 0, .any⟩
def F.COLL.BYTES_RECV.BYTES : Fld := ⟨0x58, [], 0, 64, .ro, 0, .any⟩
def F.COLL.EARLY_MSGS.COUNT : Fld := ⟨0x60, [], 0, 32, .ro, 0, .any⟩
/-- The fields of a COLL block. -/
def Regs.COLL : List Fld :=
  [F.COLL.SUBMIT.CMD,
   F.COLL.CO_STATUS.QUEUED,
   F.COLL.CO_STATUS.ACTIVE,
   F.COLL.STAGE.QSEL,
   F.COLL.STAGE.BANK,
   F.COLL.STAGE.NBANK,
   F.COLL.COLL_LIMIT.LIMIT,
   F.COLL.LAYOUT.CUR,
   F.COLL.LAYOUT.DRAINING,
   F.COLL.LAYOUT.EPOCH_DRAINED,
   F.COLL.LAYOUT.LAYOUT_REJECT,
   F.COLL.LAYOUT_CMD.NEW,
   F.COLL.LAYOUT_CMD.RESHARD,
   F.COLL.FAULT_LAST.CORE,
   F.COLL.FAULT_LAST.THREAD,
   F.COLL.FAULT_LAST.CODE,
   F.COLL.FAULT_LAST.COUNT_AT,
   F.COLL.FAULT_CMD.ADDR,
   F.COLL.FAULT_COUNT.COUNT,
   F.COLL.POISON_PASSED.COUNT,
   F.COLL.BYTES_SENT.BYTES,
   F.COLL.BYTES_RECV.BYTES,
   F.COLL.EARLY_MSGS.COUNT]

-- FM (R367)
def F.FM.FM_CTL.FORMAT : Fld := ⟨0x0, [], 0, 1, .wo, 0, .any⟩
def F.FM.FM_STATUS.STATE : Fld := ⟨0x8, [], 0, 3, .ro, 1, .any⟩
def F.FM.FM_STATUS.DEGRADED : Fld := ⟨0x8, [], 3, 1, .ro, 0, .any⟩
def F.FM.FM_STATUS.FAILED_TARGETS : Fld := ⟨0x8, [], 4, 32, .ro, 0, .any⟩
def F.FM.SUBMIT.CMD : Fld := ⟨0x10, [], 0, 64, .wo, 0, .any⟩
def F.FM.CAPACITY.LPAGES : Fld := ⟨0x18, [], 0, 30, .ro, 0, .any⟩
def F.FM.MAP_BASE.BASE : Fld := ⟨0x20, [], 12, 37, .rw, 0, .any⟩
def F.FM.WEAR_CTL.GC_LOW : Fld := ⟨0x28, [], 0, 8, .rw, 8, (.range 3 255)⟩
def F.FM.WEAR_CTL.WEAR_SPREAD : Fld := ⟨0x28, [], 16, 16, .rw, 512, (.range 1 65535)⟩
def F.FM.SCRUB_CTL.REFRESH_BITS : Fld := ⟨0x30, [], 0, 8, .rw, 48, (.range 1 255)⟩
def F.FM.SCRUB_CTL.RET_HOURS : Fld := ⟨0x30, [], 8, 16, .rw, 2160, (.range 1 65535)⟩
def F.FM.SCRUB_CTL.PASS_HOURS : Fld := ⟨0x30, [], 24, 16, .rw, 168, (.range 1 65535)⟩
def F.FM.WEAR_STATUS.PE_MAX : Fld := ⟨0x38, [], 0, 20, .ro, 0, .any⟩
def F.FM.WEAR_STATUS.PE_MIN : Fld := ⟨0x38, [], 20, 20, .ro, 0, .any⟩
def F.FM.WEAR_STATUS.BAD_BLOCKS : Fld := ⟨0x38, [], 40, 24, .ro, 0, .any⟩
def F.FM.FAULT_LAST.CORE : Fld := ⟨0x40, [], 0, 12, .ro, 0, .any⟩
def F.FM.FAULT_LAST.THREAD : Fld := ⟨0x40, [], 12, 6, .ro, 0, .any⟩
def F.FM.FAULT_LAST.CODE : Fld := ⟨0x40, [], 24, 8, .ro, 0, .any⟩
def F.FM.FAULT_LAST.COUNT_AT : Fld := ⟨0x40, [], 32, 32, .ro, 0, .any⟩
def F.FM.FAULT_CMD.ADDR : Fld := ⟨0x48, [], 0, 49, .ro, 0, .any⟩
def F.FM.FAULT_COUNT.COUNT : Fld := ⟨0x50, [], 0, 32, .w1c, 0, .any⟩
def F.FM.UNCORRECTABLE.COUNT : Fld := ⟨0x58, [], 0, 32, .w1c, 0, .any⟩
def F.FM.UNMAPPED_READS.COUNT : Fld := ⟨0x60, [], 0, 32, .w1c, 0, .any⟩
def F.FM.RETRY_READS.COUNT : Fld := ⟨0x68, [], 0, 64, .ro, 0, .any⟩
def F.FM.SOFT_READS.COUNT : Fld := ⟨0x70, [], 0, 64, .ro, 0, .any⟩
def F.FM.GC_STALLS.COUNT : Fld := ⟨0x78, [], 0, 64, .ro, 0, .any⟩
def F.FM.PAGES_WRITTEN.COUNT : Fld := ⟨0x80, [], 0, 64, .ro, 0, .any⟩
def F.FM.PAGES_PROGRAMMED.COUNT : Fld := ⟨0x88, [], 0, 64, .ro, 0, .any⟩
def F.FM.SCRUB_PASSES.COUNT : Fld := ⟨0x90, [], 0, 64, .ro, 0, .any⟩
/-- The fields of a FM block. -/
def Regs.FM : List Fld :=
  [F.FM.FM_CTL.FORMAT,
   F.FM.FM_STATUS.STATE,
   F.FM.FM_STATUS.DEGRADED,
   F.FM.FM_STATUS.FAILED_TARGETS,
   F.FM.SUBMIT.CMD,
   F.FM.CAPACITY.LPAGES,
   F.FM.MAP_BASE.BASE,
   F.FM.WEAR_CTL.GC_LOW,
   F.FM.WEAR_CTL.WEAR_SPREAD,
   F.FM.SCRUB_CTL.REFRESH_BITS,
   F.FM.SCRUB_CTL.RET_HOURS,
   F.FM.SCRUB_CTL.PASS_HOURS,
   F.FM.WEAR_STATUS.PE_MAX,
   F.FM.WEAR_STATUS.PE_MIN,
   F.FM.WEAR_STATUS.BAD_BLOCKS,
   F.FM.FAULT_LAST.CORE,
   F.FM.FAULT_LAST.THREAD,
   F.FM.FAULT_LAST.CODE,
   F.FM.FAULT_LAST.COUNT_AT,
   F.FM.FAULT_CMD.ADDR,
   F.FM.FAULT_COUNT.COUNT,
   F.FM.UNCORRECTABLE.COUNT,
   F.FM.UNMAPPED_READS.COUNT,
   F.FM.RETRY_READS.COUNT,
   F.FM.SOFT_READS.COUNT,
   F.FM.GC_STALLS.COUNT,
   F.FM.PAGES_WRITTEN.COUNT,
   F.FM.PAGES_PROGRAMMED.COUNT,
   F.FM.SCRUB_PASSES.COUNT]

-- F (R368)
def F.F.CH_STATUS.PRESENT : Fld := ⟨0x0, [], 0, 4, .ro, 0, .any⟩
def F.F.CH_STATUS.FAILED : Fld := ⟨0x0, [], 4, 4, .ro, 0, .any⟩
def F.F.PROG_FAILS.COUNT : Fld := ⟨0x8, [], 0, 32, .w1c, 0, .any⟩
def F.F.ERASE_FAILS.COUNT : Fld := ⟨0x10, [], 0, 32, .w1c, 0, .any⟩
def F.F.TIMEOUTS.COUNT : Fld := ⟨0x18, [], 0, 32, .w1c, 0, .any⟩
def F.F.BYTES.COUNT : Fld := ⟨0x20, [], 0, 64, .ro, 0, .any⟩
/-- The fields of a F block. -/
def Regs.F : List Fld :=
  [F.F.CH_STATUS.PRESENT,
   F.F.CH_STATUS.FAILED,
   F.F.PROG_FAILS.COUNT,
   F.F.ERASE_FAILS.COUNT,
   F.F.TIMEOUTS.COUNT,
   F.F.BYTES.COUNT]

-- SILPAOT (R384/R424)
def F.SILPAOT.LOG.WORD : Fld := ⟨0x80000, [(64, 4096), (8, 8)], 0, 64, .ro, 0, .any⟩
def F.SILPAOT.BLK_LOG.REG_ACCESS : Fld := ⟨0xc0000, [(8, 4096)], 0, 32, .w1c, 0, .any⟩
def F.SILPAOT.BLK_LOG.LAST_OFFSET : Fld := ⟨0xc0000, [(8, 4096)], 32, 20, .ro, 0, .any⟩
def F.SILPAOT.BLK_LOG.LAST_WRITE : Fld := ⟨0xc0000, [(8, 4096)], 52, 1, .ro, 0, .any⟩
def F.SILPAOT.BLK_LOG.LAST_KIND : Fld := ⟨0xc0000, [(8, 4096)], 53, 1, .ro, 0, .any⟩
def F.SILPAOT.BLK_LOG.DROPPED : Fld := ⟨0xc0000, [(8, 4096)], 56, 8, .w1c, 0, .any⟩
def F.SILPAOT.JOURNAL.WORD : Fld := ⟨0xd0000, [(64, 64), (8, 8)], 0, 64, .ro, 0, .any⟩
def F.SILPAOT.LOG_HEAD.SEQ : Fld := ⟨0xe0000, [], 0, 32, .ro, 0, .any⟩
def F.SILPAOT.LOG_HEAD.JHEAD : Fld := ⟨0xe0000, [], 32, 6, .ro, 0, .any⟩
def F.SILPAOT.LOG_CTL.CE_RECORDS : Fld := ⟨0xe0008, [], 0, 1, .rw, 1, .any⟩
def F.SILPAOT.BOOT_STATUS.BANK : Fld := ⟨0x0, [], 0, 1, .ro, 0, .any⟩
def F.SILPAOT.BOOT_STATUS.SVN_FW : Fld := ⟨0x0, [], 8, 8, .ro, 0, .any⟩
def F.SILPAOT.BOOT_STATUS.SVN_QM : Fld := ⟨0x0, [], 16, 8, .ro, 0, .any⟩
def F.SILPAOT.BOOT_STATUS.SVN_TL : Fld := ⟨0x0, [], 24, 8, .ro, 0, .any⟩
def F.SILPAOT.REQ_ADDR.ADDR : Fld := ⟨0x8, [(16, 2)], 0, 49, .wo, 0, .any⟩
def F.SILPAOT.REQ_STATUS.BUSY : Fld := ⟨0x10, [(16, 2)], 0, 1, .ro, 0, .any⟩
def F.SILPAOT.REQ_STATUS.DONE : Fld := ⟨0x10, [(16, 2)], 1, 1, .w1c, 0, .any⟩
def F.SILPAOT.REQ_STATUS.REJECT : Fld := ⟨0x10, [(16, 2)], 2, 1, .w1c, 0, .any⟩
def F.SILPAOT.REQ_STATUS.RESULT : Fld := ⟨0x10, [(16, 2)], 8, 8, .ro, 0, .any⟩
def F.SILPAOT.LEDGER_SEQ.SEQ : Fld := ⟨0x28, [], 0, 32, .ro, 0, .any⟩
def F.SILPAOT.SVN_FLOOR.FLOOR : Fld := ⟨0x30, [], 0, 8, .lw, 0, .any⟩
def F.SILPAOT.DEBUG.STATE : Fld := ⟨0x38, [], 0, 2, .lw, 0, (.range 0 2)⟩
def F.SILPAOT.DEBUG.IN_EFFECT : Fld := ⟨0x38, [], 2, 2, .ro, 0, .any⟩
def F.SILPAOT.LEDGER_LEFT.FLOOR : Fld := ⟨0x40, [], 0, 8, .ro, 0, .any⟩
def F.SILPAOT.LEDGER_LEFT.OWNER : Fld := ⟨0x40, [], 8, 5, .ro, 0, .any⟩
def F.SILPAOT.LEDGER_LEFT.DEBUG : Fld := ⟨0x40, [], 13, 4, .ro, 0, .any⟩
def F.SILPAOT.OWNER_KEY.KEY : Fld := ⟨0x100, [(8, 4)], 0, 64, .ro, 0, .any⟩
/-- The fields of a SILPAOT block. -/
def Regs.SILPAOT : List Fld :=
  [F.SILPAOT.LOG.WORD,
   F.SILPAOT.BLK_LOG.REG_ACCESS,
   F.SILPAOT.BLK_LOG.LAST_OFFSET,
   F.SILPAOT.BLK_LOG.LAST_WRITE,
   F.SILPAOT.BLK_LOG.LAST_KIND,
   F.SILPAOT.BLK_LOG.DROPPED,
   F.SILPAOT.JOURNAL.WORD,
   F.SILPAOT.LOG_HEAD.SEQ,
   F.SILPAOT.LOG_HEAD.JHEAD,
   F.SILPAOT.LOG_CTL.CE_RECORDS,
   F.SILPAOT.BOOT_STATUS.BANK,
   F.SILPAOT.BOOT_STATUS.SVN_FW,
   F.SILPAOT.BOOT_STATUS.SVN_QM,
   F.SILPAOT.BOOT_STATUS.SVN_TL,
   F.SILPAOT.REQ_ADDR.ADDR,
   F.SILPAOT.REQ_STATUS.BUSY,
   F.SILPAOT.REQ_STATUS.DONE,
   F.SILPAOT.REQ_STATUS.REJECT,
   F.SILPAOT.REQ_STATUS.RESULT,
   F.SILPAOT.LEDGER_SEQ.SEQ,
   F.SILPAOT.SVN_FLOOR.FLOOR,
   F.SILPAOT.DEBUG.STATE,
   F.SILPAOT.DEBUG.IN_EFFECT,
   F.SILPAOT.LEDGER_LEFT.FLOOR,
   F.SILPAOT.LEDGER_LEFT.OWNER,
   F.SILPAOT.LEDGER_LEFT.DEBUG,
   F.SILPAOT.OWNER_KEY.KEY]

-- QCTL (R407)
def F.QCTL.Q_CTL.QRESET : Fld := ⟨0x0, [], 0, 1, .wo, 0, .any⟩
def F.QCTL.Q_CTL.STANDBY : Fld := ⟨0x0, [], 1, 1, .rw, 0, .any⟩
def F.QCTL.Q_CTL.CL_OFF_EN : Fld := ⟨0x0, [], 2, 1, .rw, 1, .any⟩
def F.QCTL.Q_STATUS.STATE : Fld := ⟨0x8, [], 0, 3, .ro, 1, .any⟩
def F.QCTL.Q_STATUS.CMD_REJECT : Fld := ⟨0x8, [], 3, 1, .w1c, 0, .any⟩
def F.QCTL.Q_STATUS.Q_LOST : Fld := ⟨0x8, [], 4, 1, .w1c, 0, .any⟩
def F.QCTL.Q_STATUS.TEMP : Fld := ⟨0x8, [], 8, 8, .ro, 0, .any⟩
def F.QCTL.CLUSTER_RESET.CLUSTERS : Fld := ⟨0x10, [], 0, 16, .wo, 0, .any⟩
def F.QCTL.CLUSTER_PWR.OFF : Fld := ⟨0x18, [], 0, 16, .ro, 0, .any⟩
def F.QCTL.CLUSTER_PWR.CL_LOST : Fld := ⟨0x18, [], 16, 16, .w1c, 0, .any⟩
def F.QCTL.IDLE_LIMIT.LIMIT : Fld := ⟨0x20, [], 0, 16, .rw, 16, .any⟩
def F.QCTL.STANDBY_REFUSALS.COUNT : Fld := ⟨0x28, [], 0, 32, .w1c, 0, .any⟩
def F.QCTL.CL_OFF_COUNT.COUNT : Fld := ⟨0x30, [], 0, 32, .w1c, 0, .any⟩
/-- The fields of a QCTL block. -/
def Regs.QCTL : List Fld :=
  [F.QCTL.Q_CTL.QRESET,
   F.QCTL.Q_CTL.STANDBY,
   F.QCTL.Q_CTL.CL_OFF_EN,
   F.QCTL.Q_STATUS.STATE,
   F.QCTL.Q_STATUS.CMD_REJECT,
   F.QCTL.Q_STATUS.Q_LOST,
   F.QCTL.Q_STATUS.TEMP,
   F.QCTL.CLUSTER_RESET.CLUSTERS,
   F.QCTL.CLUSTER_PWR.OFF,
   F.QCTL.CLUSTER_PWR.CL_LOST,
   F.QCTL.IDLE_LIMIT.LIMIT,
   F.QCTL.STANDBY_REFUSALS.COUNT,
   F.QCTL.CL_OFF_COUNT.COUNT]

-- HCTL (R408)
def F.HCTL.PWR_STATUS.RAILS_GOOD : Fld := ⟨0x0, [], 0, 14, .ro, 0, .any⟩
def F.HCTL.PWR_STATUS.LAST_CAUSE : Fld := ⟨0x0, [], 16, 4, .ro, 0, .any⟩
def F.HCTL.PWR_STATUS.LAST_RAIL : Fld := ⟨0x0, [], 20, 4, .ro, 0, .any⟩
def F.HCTL.PWR_CLASS.CLASS : Fld := ⟨0x8, [], 0, 1, .rw, 0, .any⟩
def F.HCTL.THROTTLE_CTL.FLOOR : Fld := ⟨0x10, [], 0, 4, .rw, 0, (.range 0 12)⟩
def F.HCTL.THROTTLE_CTL.MARGIN : Fld := ⟨0x10, [], 4, 4, .rw, 2, .any⟩
def F.HCTL.THROTTLE_CTL.T_JUNC : Fld := ⟨0x10, [], 8, 8, .rw, 100, .any⟩
def F.HCTL.THROTTLE_CTL.T_STACK : Fld := ⟨0x10, [], 16, 8, .rw, 95, .any⟩
def F.HCTL.PWR_EST.WATTS : Fld := ⟨0x18, [], 0, 16, .ro, 0, .any⟩
def F.HCTL.TEMP.JUNC_MAX : Fld := ⟨0x20, [], 0, 8, .ro, 0, .any⟩
def F.HCTL.TEMP.STACK_MAX : Fld := ⟨0x20, [], 8, 8, .ro, 0, .any⟩
def F.HCTL.RESET_CMD.COLD : Fld := ⟨0x28, [], 0, 1, .wo, 0, .any⟩
def F.HCTL.RESET_CMD.WARM : Fld := ⟨0x28, [], 1, 1, .wo, 0, .any⟩
def F.HCTL.RESET_CMD.MGMT : Fld := ⟨0x28, [], 2, 1, .wo, 0, .any⟩
def F.HCTL.LOST.WARM : Fld := ⟨0x30, [], 0, 1, .w1c, 0, .any⟩
def F.HCTL.LOST.MGMT : Fld := ⟨0x30, [], 1, 1, .w1c, 0, .any⟩
def F.HCTL.LOST.PORT0 : Fld := ⟨0x30, [], 2, 1, .w1c, 0, .any⟩
def F.HCTL.LOST.PORT1 : Fld := ⟨0x30, [], 3, 1, .w1c, 0, .any⟩
def F.HCTL.ALERT_COUNT.COUNT : Fld := ⟨0x38, [], 0, 32, .w1c, 0, .any⟩
def F.HCTL.MGMT_WD.LIMIT : Fld := ⟨0x40, [], 0, 16, .rw, 1024, .any⟩
def F.HCTL.MGMT_WD.KICK : Fld := ⟨0x40, [], 16, 1, .wo, 0, .any⟩
/-- The fields of a HCTL block. -/
def Regs.HCTL : List Fld :=
  [F.HCTL.PWR_STATUS.RAILS_GOOD,
   F.HCTL.PWR_STATUS.LAST_CAUSE,
   F.HCTL.PWR_STATUS.LAST_RAIL,
   F.HCTL.PWR_CLASS.CLASS,
   F.HCTL.THROTTLE_CTL.FLOOR,
   F.HCTL.THROTTLE_CTL.MARGIN,
   F.HCTL.THROTTLE_CTL.T_JUNC,
   F.HCTL.THROTTLE_CTL.T_STACK,
   F.HCTL.PWR_EST.WATTS,
   F.HCTL.TEMP.JUNC_MAX,
   F.HCTL.TEMP.STACK_MAX,
   F.HCTL.RESET_CMD.COLD,
   F.HCTL.RESET_CMD.WARM,
   F.HCTL.RESET_CMD.MGMT,
   F.HCTL.LOST.WARM,
   F.HCTL.LOST.MGMT,
   F.HCTL.LOST.PORT0,
   F.HCTL.LOST.PORT1,
   F.HCTL.ALERT_COUNT.COUNT,
   F.HCTL.MGMT_WD.LIMIT,
   F.HCTL.MGMT_WD.KICK]

-- ID (R424)
def F.ID.PART.PART : Fld := ⟨0x0, [], 0, 8, .ro, 36, .any⟩
def F.ID.PART.STACK_GIB : Fld := ⟨0x0, [], 8, 8, .ro, 96, .any⟩
def F.ID.PART.STEPPING : Fld := ⟨0x0, [], 16, 8, .ro, 161, .any⟩
def F.ID.UNIT_ID_LO.ID : Fld := ⟨0x8, [], 0, 64, .ro, 0, .any⟩
def F.ID.UNIT_ID_HI.ID : Fld := ⟨0x10, [], 0, 64, .ro, 0, .any⟩
def F.ID.DIE_SERIAL.SERIAL : Fld := ⟨0x100, [(8, 10)], 0, 64, .ro, 0, .any⟩
def F.ID.IDKEY.KEY : Fld := ⟨0x200, [(8, 4)], 0, 64, .ro, 0, .any⟩
/-- The fields of a ID block. -/
def Regs.ID : List Fld :=
  [F.ID.PART.PART,
   F.ID.PART.STACK_GIB,
   F.ID.PART.STEPPING,
   F.ID.UNIT_ID_LO.ID,
   F.ID.UNIT_ID_HI.ID,
   F.ID.DIE_SERIAL.SERIAL,
   F.ID.IDKEY.KEY]

/-- The kinds of register block (Table 1.9). MESH and the PCIe port blocks have no field table. -/
inductive BlockKind where
  | clk | fab | ji | clus | digest | press | strm | tsched | sync | mode | grind | perc | cellar | stack | tl | gtc | coll | fm | f | silpaot | qctl | hctl | id | mesh | pcie
  deriving DecidableEq, Repr

/-- The fields of a block of each kind. -/
def BlockKind.fields : BlockKind → List Fld
  | .clk => Regs.CLK
  | .fab => Regs.FAB
  | .ji => Regs.JI
  | .clus => Regs.CLUS
  | .digest => Regs.DIGEST
  | .press => Regs.PRESS
  | .strm => Regs.STRM
  | .tsched => Regs.TSCHED
  | .sync => Regs.SYNC
  | .mode => Regs.MODE
  | .grind => Regs.GRIND
  | .perc => Regs.PERC
  | .cellar => Regs.CELLAR
  | .stack => Regs.STACK
  | .tl => Regs.TL
  | .gtc => Regs.GTC
  | .coll => Regs.COLL
  | .fm => Regs.FM
  | .f => Regs.F
  | .silpaot => Regs.SILPAOT
  | .qctl => Regs.QCTL
  | .hctl => Regs.HCTL
  | .id => Regs.ID
  | .mesh => []
  | .pcie => []

/-- The kind of the block with number `n` of Table 1.9 (R27); `none`: not listed. -/
def blockKind (n : Nat) : Option BlockKind :=
  if n < 0x400 then
    let m := n % 0x100
    if m = 0 then some .qctl else if m = 1 then some .tsched else if m = 2 then some .sync
    else if m = 3 then some .mesh else if m = 4 then some .cellar else if m = 5 then some .digest
    else if 8 ≤ m ∧ m ≤ 0xB then some .grind else if 0x10 ≤ m ∧ m ≤ 0x15 then some .stack
    else if 0x20 ≤ m ∧ m < 0x30 then some .strm else if 0x30 ≤ m ∧ m < 0x40 then some .press
    else if 0x40 ≤ m ∧ m < 0x50 then some .clus else none
  else if n < 0x600 then
    let m := n % 0x100
    if m = 0 then some .hctl else if m = 1 then some .pcie else if m = 2 then some .ji
    else if m = 3 then some .perc else if m = 4 then some .coll
    else if 0x10 ≤ m ∧ m ≤ 0x18 then some .tl else if 0x20 ≤ m ∧ m ≤ 0x27 then some .f
    else if m = 0x28 then some .fm else if n = 0x440 then some .silpaot else none
  else if n = 0x600 then some .clk else if n = 0x601 then some .gtc else if n = 0x602 then some .mode
  else if n = 0x603 then some .id else if n = 0x604 then some .fab else none

/-- Whether offset `d` into an array register is the start of one of its elements. -/
def idxOk : List (Nat × Nat) → Nat → Bool
  | [], d => d == 0
  | (st, c) :: l, d => decide (d / st < c) && idxOk l (d % st)

/-- The fields of the register at offset `off` of a block of kind `k` (empty: no register there). -/
def fieldsAt (k : BlockKind) (off : Nat) : List Fld :=
  k.fields.filter (fun f => decide (f.reg ≤ off) && idxOk f.idx (off - f.reg))

end Sys2Proof.Machine
end

