-- ==== Sys2Proof/Machine/Sparse.lean ====
section
/-! DEFINITION. Finite maps with a default, kept as key-sorted lists with no entry equal to the default, so that equal
maps are equal lists. -/

namespace Sys2Proof.Machine

/-- The value at `k`; `d` where the map lists none. -/
def Sparse.get {α : Type} (d : α) : Sparse α → Nat → α
  | [], _ => d
  | (k', v) :: l, k => if k' = k then v else Sparse.get d l k

/-- The map without `k`. -/
def Sparse.del {α : Type} (l : Sparse α) (k : Nat) : Sparse α :=
  l.filter (fun e => e.1 != k)

/-- `v` put at `k` before the first larger key. -/
def Sparse.ins {α : Type} : Sparse α → Nat → α → Sparse α
  | [], k, v => [(k, v)]
  | (k', v') :: l, k, v => if k < k' then (k, v) :: (k', v') :: l else (k', v') :: Sparse.ins l k v

/-- `v` at `k`, every other key unchanged; the default is never listed. -/
def Sparse.put {α : Type} [DecidableEq α] (d : α) (l : Sparse α) (k : Nat) (v : α) : Sparse α :=
  if v = d then Sparse.del l k else Sparse.ins (Sparse.del l k) k v

/-- `f` applied to the value at `k`. -/
def Sparse.upd {α : Type} [DecidableEq α] (d : α) (l : Sparse α) (k : Nat) (f : α → α) : Sparse α :=
  Sparse.put d l k (f (Sparse.get d l k))

/-- Every key in `[lo, hi)` back to the default. -/
def Sparse.clearRange {α : Type} (l : Sparse α) (lo hi : Nat) : Sparse α :=
  l.filter (fun e => e.1 < lo || hi ≤ e.1)

/-- Keys strictly rising and no entry at the default. -/
def Sparse.wf {α : Type} [DecidableEq α] (d : α) : Sparse α → Bool
  | [] => true
  | [(_, v)] => v != d
  | (k, v) :: (k', v') :: l => v != d && k < k' && Sparse.wf d ((k', v') :: l)

end Sys2Proof.Machine
end

