-- ==== Sys2Proof/Machine/State.lean ====
section
/-! DEFINITION. The state of the device as plain data, and the state after reset. -/

namespace Sys2Proof.Machine

/-! ### Fabric and clocks (chapter 1) -/

/-- Where a flit can stand: a cluster's cores and stream engine, a router of a quarter's mesh, the Cellar banks above a
router (R278), a stack's controller, the other units of a quarter, a hub. -/
inductive Node where
  | cluster (q c : Nat)
  | router (q c : Nat)
  | cellar (q c : Nat)
  | stack (m : Nat)
  | quarter (q : Nat)
  | hub (h : Nat)
  deriving DecidableEq, Repr

/-- A source interface (R17): its node, and its number there. -/
structure Iface where
  node : Node
  num  : Nat
  deriving DecidableEq, Repr

/-- Traffic classes (Table 1.4). -/
inductive Cls where
  | sync | mgmt | lat | bulk
  deriving DecidableEq, Repr

/-- Who makes an access to device memory. -/
inductive Who where
  | thread (k : Nat)
  | ctx (c : Nat)
  | port (p : Nat)
  | grind (g : Nat)
  | perc (h : Nat)
  | coll (h : Nat)
  | flash (h : Nat)
  | range (q : Nat)
  | firmware
  deriving DecidableEq, Repr

/-- The answer to a request: data with a mask of the codewords of its block that are poison, an acknowledgement, or a refusal
with its fault code. -/
inductive Answer where
  | data (v bad : Nat)
  | ack
  | refused (code : Nat)
  deriving DecidableEq, Repr

/-- What a fabric request does at its home. -/
inductive ReqOp where
  | ld
  | st
  | amo (fn : Nat)
  /-- the task-record read of TASK.SPAWN -/
  | spawn
  /-- a half of an instruction-cache fill -/
  | fetch
  deriving DecidableEq, Repr

/-- A fabric request (R13): at most 64 B in one 64 B block. `off` is its byte's place in an access that the core split
(R57); `bad`: the codewords of its block that the fabric has made poison on the way to the home. -/
structure Req where
  id     : Nat
  who    : Who
  job    : JobId
  op     : ReqOp
  cls    : Cls
  addr   : Nat
  size   : Nat
  off    : Nat
  data   : Nat
  bad    : Nat
  /-- the destination register of an AMO; 0: posted -/
  rd     : Nat
  pc     : Nat
  answer : Option Answer
  deriving DecidableEq, Repr

/-- A flit on its way: that of the request, answer or message numbered `id`. `hops` are the nodes it has still to reach;
`lost`: discarded for its header (R19). A flit that has arrived is listed no more. -/
structure Flit where
  id   : Nat
  cls  : Cls
  src  : Iface
  dst  : Node
  at_  : Node
  hops : List Node
  lost : Bool
  deriving DecidableEq, Repr

/-- The slots of the current 16-slot frame of one output, by class (R16). -/
structure Frame where
  nSync : Nat
  nMgmt : Nat
  nLat  : Nat
  nBulk : Nat
  deriving DecidableEq, Repr

structure FabricSt where
  reqs   : List Req
  /-- the flits on their way, in the order of their issue -/
  flits  : List Flit
  nextId : Nat
  frames : List ((Node × Node) × Frame)
  /-- codewords corrected by the routers of each quarter (the MESH block; R19) -/
  meshCe : Sparse Nat
  deriving DecidableEq, Repr

structure ClockSt where
  /-- ARITH cycles since the dividers were released (R23) -/
  arith    : Nat
  /-- the windows begun so far: the next window to begin has this number -/
  window   : Nat
  /-- enables withheld in the window that runs -/
  withheld : BitVec 16
  /-- reference loss: only MGMT runs (R24) -/
  mgmtOnly : Bool
  deriving DecidableEq, Repr

/-! ### Memory -/

/-- Bytes by device address (unlisted: 0), the poisoned codewords, and the bad symbols of stored codewords (a 36-bit
mask each). A codeword is named by its address divided by 16. -/
structure Mem where
  bytes  : Sparse Byte
  poison : Sparse Bool
  upset  : Sparse Nat
  deriving DecidableEq, Repr

/-! ### Host ports and rings (chapter 2) -/

inductive RingState where
  | disabled | running | error | draining
  deriving DecidableEq, Repr

/-- A completion record (Table 2.5). -/
structure CplRec where
  tag : Nat
  head : Nat
  status : Nat
  phase : Nat
  ring : Nat
  detail : Nat
  user : Nat
  gtc : Nat
  irq : Bool
  deriving DecidableEq, Repr

/-- A read of a submission block that the host has still to answer: the count of its first entry; whether it is the
one re-read after a SEQ mismatch (R34). -/
structure Fetch where
  first  : Nat
  reread : Bool
  deriving DecidableEq, Repr

structure Ring where
  tail    : Nat
  head    : Nat
  written : Nat
  cqHead  : Nat
  dbTail  : Nat
  dbHead  : Nat
  state   : RingState
  cause   : Nat
  fetch   : Option Fetch
  /-- a SEQ mismatch waits for its re-read since this ARITH cycle -/
  mismatch : Option Nat
  /-- records written since the ring's last interrupt, and when the first of them was -/
  coalN   : Nat
  coalAt  : Nat
  /-- records held for a full completion ring (R39) -/
  held    : List CplRec
  deriving DecidableEq, Repr

def Ring.init : Ring := ⟨0, 0, 0, 0, 0, 0, .disabled, 0, none, none, 0, 0, []⟩

/-- The causes a port logs under AER. -/
inductive Aer where
  | unsupported | discarded | hostReadFailed | linkDown
  deriving DecidableEq, Repr

/-- An inbound access through BAR2 or BAR4 that waits: its device address, size, and data. -/
structure Inbound where
  write : Bool
  addr  : Nat
  size  : Nat
  v     : Nat
  deriving DecidableEq, Repr

structure Port where
  link    : Bool
  rate    : Nat
  width   : Nat
  noLink  : Bool
  /-- the ARITH cycle at which the link went down -/
  downAt  : Nat
  perst   : Bool
  d3hot   : Bool
  lost    : Bool
  aer     : List Aer
  /-- interrupts raised by vector, and the pending bits of masked vectors -/
  raised  : Sparse Nat
  masked  : BitVec 64
  pend    : BitVec 64
  rr      : Nat
  hbAt    : Nat
  /-- the last answer to an inbound read through BAR0, and through BAR2 or BAR4 -/
  bar0    : Option Answer
  bar4    : Option Answer
  /-- inbound accesses that wait, oldest first -/
  inq     : List Inbound
  /-- quarters being released, quarters a pending takeover or acquire waits for -/
  relMask : BitVec 4
  acqMask : BitVec 4
  /-- quarters leaving standby that a pending acquire waits for (R403) -/
  wakeMask : BitVec 4
  deriving DecidableEq, Repr

def Port.init : Port :=
  ⟨false, 0, 0, false, 0, false, false, false, [], [], 0, 0, 0, 0, none, none, [], 0, 0, 0⟩

/-- Why a read of host memory was made. -/
inductive HostReadFor where
  | request (id : Nat)
  | copyIn (j : JobId) (dst : Nat)
  | fetch (ring : Nat)
  deriving DecidableEq, Repr

/-- A read of host memory that the host has still to answer (R426). -/
structure HostRead where
  id   : Nat
  port : Nat
  for_ : HostReadFor
  addr : Nat
  size : Nat
  deriving DecidableEq, Repr

/-- Where a job stands: taken from its ring, begun, its roots waiting for entries or for eligibility, running, ended
(its work gone, its record not yet written), its record written. -/
inductive JobPhase where
  | taken | begun | rootsWait | rootsHeld | running | ended
  deriving DecidableEq, Repr

/-- A task record (Table 7.1). -/
structure TaskRec where
  entry : Nat
  argw  : Nat
  flags : Nat
  mask  : Nat
  cls   : Nat
  level : Nat
  modeSens : Bool
  place : Nat
  pcore : Nat
  succH : Nat
  succF : Nat
  deriving DecidableEq, Repr

/-- A job (Table 2.4) from the taking of its descriptor to the writing of its record. -/
structure Job where
  id      : JobId
  kind    : Nat
  qmask   : Nat
  cls     : Nat
  level   : Nat
  irq     : Bool
  ordered : Bool
  tag     : Nat
  addrA   : Nat
  addrB   : Nat
  len     : Nat
  launch  : Nat
  arg     : Nat
  user    : Nat
  phase   : JobPhase
  /-- Table 2.6; 0 while nothing else has ended it -/
  status  : Nat
  /-- the report whose record's SEQ the completion carries -/
  errRef  : Option Nat
  /-- the report of the first poison that a COPY_OUT has met -/
  spoilt  : Option Nat
  noRecord : Bool
  /-- root records and their addresses, and where the handles go -/
  roots   : List (Nat × TaskRec)
  handleOut : Nat
  /-- COPY jobs: 64 B blocks issued and done -/
  issued  : Nat
  done    : Nat
  /-- the GTC count when it ended, and one more than the CTRL cycle in which its end reached the job intake (R382) -/
  gtcEnd  : Nat
  endAt   : Nat
  deriving DecidableEq, Repr

/-! ### Cores and threads (chapter 3) -/

/-- Why a thread is parked (Table 3.3); `load`, `amo`: the data or old value has not returned. -/
inductive Park where
  | load (rd : Nat) (sx : Bool) (size : Nat)
  | amo (rd : Nat)
  | arrayFull (a : Nat)
  | arrayBound (a : Nat)
  | vecFull
  | strm (ctx rd : Nat)
  /-- `ref`: the reference, with GEN for SYNC.BAR -/
  | sync (ref rd : Nat)
  | spawn (rd : Nat)
  | fetch
  deriving DecidableEq, Repr

/-- The four states of Table 3.2; a STALLED thread is one that YIELD holds until a cycle, or whose issued instruction is held
(R73); an ending thread has issued TASK.END; a stopped thread waits for its requests after an abort (R51). The last two
issue nothing. -/
inductive TState where
  | free
  | ready
  | stalled (until_ : Nat)
  | held
  | parked (why : Park)
  | ending
  | stopped
  deriving DecidableEq, Repr

structure Thread where
  st      : TState
  x       : Vector Word 32
  p       : Vector Bool 8
  pc      : Word
  recAddr : Nat
  job     : JobId
  cls     : Nat
  level   : Nat
  succH   : Nat
  succF   : Nat
  /-- ARGW of the task's record, the key of its ordered adds (R247) -/
  argw    : Nat
  modeSens : Bool
  epoch   : Nat
  /-- the mode values under which the task runs (R193) -/
  mode    : Nat
  started : Nat
  /-- since when its present wait lasts: the ARITH cycle of its parking, or of its last issue, waking or start -/
  parkedAt : Nat
  /-- the abort is one of the job's cancellation, not a fault of the thread -/
  aborted : Bool
  deriving DecidableEq, Repr

def Thread.init : Thread :=
  ⟨.free, Vector.replicate 32 0, Vector.replicate 8 false, 0, 0, ⟨0, 0, 0⟩, 0, 0, 0, 0, 0, false, 0, 0, 0, 0, false⟩

/-- A line of an instruction cache: its address divided by 128, plus one (0: none), its 32 instruction words. -/
structure ILine where
  line  : Nat
  words : List (BitVec 32)
  deriving DecidableEq, Repr

def ILine.init : ILine := ⟨0, []⟩

structure Core where
  run    : Option Nat
  next   : Option Nat
  /-- the thread that issued last (R49) -/
  last   : Nat
  /-- the ARITH cycle of the last issue, plus one (R49) -/
  issued : Nat
  gated  : Bool
  /-- the last ARITH cycle in which the core was busy, and the first in which a woken core may issue (R53) -/
  busyAt : Nat
  wakeAt : Nat
  /-- the instruction-cache lines held, by set and way -/
  icache : Sparse ILine
  /-- poisoned codewords of the lines held (R63) -/
  icPoison : List Nat
  /-- threads whose line, on its way when the cache was invalidated, will be invalid (R76) -/
  stale  : List Nat
  lastJob : Option JobId
  deriving DecidableEq, Repr

def Core.init : Core := ⟨none, none, 63, 0, false, 0, 0, [], [], [], none⟩

/-! ### Tasks (chapter 7) -/

/-- An entry of a quarter's task table (R155). -/
structure Entry where
  used  : Bool
  gen   : Nat
  trec  : TaskRec
  addr  : Nat
  job   : JobId
  flags : Nat
  /-- roots are not eligible before all of their job are (R162) -/
  eligible : Bool
  /-- when the task became ready -/
  ready : Option Nat
  /-- its record stands in a RUN or NEXT slot -/
  placed : Bool
  accepted : Nat
  deriving DecidableEq, Repr

def TaskRec.zero : TaskRec := ⟨0, 0, 0, 0, 0, 0, false, 0, 0, 0, 0⟩
def Entry.init : Entry := ⟨false, 1, TaskRec.zero, 0, ⟨0, 0, 0⟩, 0, false, none, false, 0⟩

/-- A TASK.SPAWN in progress: its record being read, waiting at the target's scheduler, its handle on the way back. -/
inductive SpawnPhase where
  | reading
  | waiting (r : TaskRec)
  | accepted (handle : Nat)
  deriving DecidableEq, Repr

structure Spawn where
  thread : Nat
  /-- the target quarter, once the record names it -/
  q      : Nat
  job    : JobId
  addr   : Nat
  phase  : SpawnPhase
  /-- when it parked on a full table -/
  parkedAt : Nat
  deriving DecidableEq, Repr

/-- A TASK.FLAG or successor flag on its way (R159, R160). -/
structure FlagMsg where
  id     : Nat
  /-- the sending thread; none: a successor flag -/
  sender : Option Nat
  job    : JobId
  handle : Nat
  flags  : Nat
  deriving DecidableEq, Repr

structure Sched where
  /-- the bulk group whose turn it is (R165) -/
  ptr   : Nat
  /-- the first cluster of the current cycle, and the clusters that have placed in it (R166) -/
  first : Nat
  placed : BitVec 16
  deriving DecidableEq, Repr

def Sched.init : Sched := ⟨0, 0, 0⟩

/-! ### Errors (chapter 16) -/

/-- An error record or a report of one (Table 16.4); `id` names the report until it has its SEQ. -/
structure ErrRec where
  id    : Nat
  seq   : Nat
  cls   : Nat
  code  : Nat
  block : Nat
  gtc   : Nat
  who   : Nat
  job   : Nat
  addr  : Nat
  pc    : Nat
  info  : Nat
  rep   : Nat
  deriving DecidableEq, Repr

structure ErrSt where
  /-- reports waiting in each unit, oldest first, by block number (R377) -/
  queues  : Sparse (List ErrRec)
  nextId  : Nat
  log     : Sparse (Option ErrRec)
  journal : Sparse (Option ErrRec)
  fatal   : Bool
  smbAlert : Bool
  deriving DecidableEq, Repr

/-! ### Power, reset and start-up (chapter 17) -/

/-- How far start-up has come (Table 17.3). -/
inductive Boot where
  | held | released | ledger | firmware | training | quarters | profile | running | failed
  /-- a WARM reset: the profile is still to be applied -/
  | warm
  deriving DecidableEq, Repr

structure PowSt where
  boot      : Boot
  pwrGood   : Bool
  coldRstN  : Bool
  /-- the rails of Table 17.1 that are in tolerance -/
  rails     : BitVec 14
  alertN    : Bool
  thermtrip : Bool
  thermWarn : Bool
  /-- the last reading of each junction sensor (256 · die + sensor; dies Q0-Q3, H0, H1), and its consecutive hot readings;
  a stack's hot readings are kept by 4,096 + stack (R383) -/
  temps     : Sparse Nat
  hot       : Sparse Nat
  /-- the highest junction and stack readings of the present window (R396) -/
  juncWin   : Nat
  stackWin  : Nat
  /-- the level the controller has set; it takes effect at the next window (R23) -/
  level     : Nat
  /-- ARITH cycles since the last restart of the MGMT watchdog -/
  wdN       : Nat
  mgmtReset : Bool
  /-- quarters whose QUARTER reset waits for their jobs, clusters whose CLUSTER reset waits for their tasks -/
  qreset    : BitVec 4
  creset    : BitVec 64
  /-- quarters whose Cellar cache was enabled when they entered standby -/
  standbyCache : BitVec 4
  /-- one more than the ARITH cycle since which each cluster has been idle -/
  idleAt    : Sparse Nat
  deriving DecidableEq, Repr

def PowSt.init : PowSt :=
  ⟨.running, true, true, 0x3FFF, true, false, false, [], [], 0, 0, 0, 0, false, 0, 0, 0, []⟩

/-- Why a step faults: nothing does; every error of the device is an effect on its state. -/
inductive Fault where
  deriving DecidableEq, Repr

/-- Why a command has no meaning. -/
inductive Refusal where
  /-- Raised by an arm of exec whose command has no meaning yet. Safe: nothing follows from it. -/
  | notModelled (mnemonic : String)
  deriving DecidableEq, Repr

/-! ### Arrays and vector queues (chapters 3 to 5) -/

/-- One cell's accumulation (R83-R88): the value m × 2^e, the sticky flags, whether it has had products and all were −0,
the segment sum (an FP32 encoding), the INT32 register and its SAT flag. -/
structure Cell where
  m : Int
  e : Int
  nan  : Bool
  pinf : Bool
  ninf : Bool
  some_ : Bool
  negz : Bool
  seg : Nat
  i32 : Int
  sat : Bool
  deriving DecidableEq, Repr

def Cell.zero : Cell := ⟨0, 0, false, false, false, false, true, 0, 0, false⟩

inductive TileKind where
  | mma | smma | drain
  deriving DecidableEq, Repr

/-- An entry of an array queue. `core` is the core that issued it, whose scratch it uses (R123). -/
structure TileOp where
  kind   : TileKind
  core   : Nat
  thread : Nat
  job    : JobId
  a      : Nat
  b      : Nat
  b2     : Nat
  start  : Bool
  /-- its place in the order of issue (R73) -/
  seq    : Nat
  mode   : Nat
  pc     : Nat
  /-- products of each cell taken so far -/
  done   : Nat
  deriving DecidableEq, Repr

/-- What the shadow set holds: the drain, and the 64 results (FP32 or INT32 encodings). -/
structure Shadow where
  op   : TileOp
  out  : List Nat
  segs : Nat
  sats : Nat
  deriving DecidableEq, Repr

structure Arr where
  bound  : Option Nat
  queue  : List TileOp
  /-- the thread whose accumulation the cells hold -/
  live   : Option Nat
  /-- the accumulation has had INT8 operands, float operands -/
  hasInt : Bool
  hasFlt : Bool
  /-- the 64 cells, row by row; none listed: all zero -/
  cells  : List Cell
  segCount : Nat
  segs   : Nat
  shadow : Option Shadow
  busyAt : Nat
  deriving DecidableEq, Repr

def Arr.init : Arr := ⟨none, [], none, false, false, [], 0, 0, none, 0⟩

/-- What a digest slot has received in one CTRL cycle (R99): that cycle plus one, the XOR of the contributions, their number. -/
structure DigNew where
  at_ : Nat
  v   : Nat
  n   : Nat
  deriving DecidableEq, Repr

def DigNew.init : DigNew := ⟨0, 0, 0⟩

inductive VecKind where
  | fma | exp | rcp | rsq | max | sum | soft
  deriving DecidableEq, Repr

/-- An entry of a core's vector queue. -/
structure VecOp where
  kind   : VecKind
  thread : Nat
  job    : JobId
  d      : Nat
  a      : Nat
  b      : Nat
  c      : Nat
  /-- VSOFT's scale is 1.0 because xb is X0 -/
  one    : Bool
  seq    : Nat
  mode   : Nat
  pc     : Nat
  deriving DecidableEq, Repr

/-! ### Streams (chapter 6) -/

/-- 16 bytes as the engine carries them. -/
structure Code where
  v : Nat
  poison : Bool
  deriving DecidableEq, Repr

inductive CtxSt where
  | free | owned | active | cancelling
  deriving DecidableEq, Repr

/-- What a read of a stream is for: source bytes, the row of an out-of-range index (which reads nothing), bytes of an index
list or of a bitmap. -/
inductive RdKind where
  | src | zeros | list
  deriving DecidableEq, Repr

/-- A read of a stream that is outstanding: the bytes [pos, pos + n) it brings, of the output or of the Press's input, and
where from. -/
structure StrmRead where
  id   : Nat
  pos  : Nat
  addr : Nat
  n    : Nat
  kind : RdKind
  /-- its flit, the codewords that the fabric made poison on the way back, and its codewords once the home has answered;
  none listed: refused -/
  flit : Nat
  bad  : Nat
  data : Option (List Code)
  deriving DecidableEq, Repr

/-- A receiver of a multicast or a member of a relay (Table 6.4), with the segments it holds. -/
structure Recv where
  core : Nat
  shed : Bool
  segs : Nat
  deriving DecidableEq, Repr

structure Ctx where
  st     : CtxSt
  owner  : Nat
  job    : JobId
  /-- the mode values of the owning task -/
  mode   : Nat
  modeSens : Bool
  ownerEnded : Bool
  /-- the current descriptor's address while a chain is current -/
  cur    : Option Nat
  next   : Option Nat
  /-- the descriptor block that was read last: its address and words, each with its poison mark -/
  blkAt  : Option Nat
  blk    : List Code
  /-- the current descriptor's words once it has become current; none listed before -/
  desc   : List Nat
  t0     : Nat
  tRing  : Nat
  pos    : Nat
  reads  : List StrmRead
  nextRd : Nat
  /-- bytes of the index list or the bitmap that have been read and are still needed, by address; how many of its bytes
  have been asked for -/
  lists  : List (Nat × List Byte)
  listAt : Nat
  /-- the bitmap's row that is being taken, the rows taken, the out-of-range indices -/
  row    : Nat
  rows   : Nat
  oob    : Nat
  segs   : Nat
  acked  : Nat
  ringP  : Nat
  credits : Nat
  creditWait : Bool
  /-- engine signals sent and not answered -/
  sigs   : Nat
  doneSent : Bool
  recv   : List Recv
  /-- multicast: room of the store held, segments let in, and the segments in the store, by codeword as they return -/
  mcHeld : Nat
  mcIn   : Nat
  store  : List (Nat × List (Option Code))
  /-- the Press: its input by codeword, whether it is being read a second time (R116), its output, and the output's tiles:
  first byte, end, DENSE_FALLBACK -/
  pin    : Sparse Code
  again  : Bool
  out    : List Code
  tiles  : List (Nat × Nat × Bool)
  /-- codewords delivered of segments whose digest contribution is due, by their place in the output (R150) -/
  outs   : Sparse Code
  /-- the bytes of output, once a Press or BITMAP descriptor knows them -/
  pressed : Option Nat
  shed   : Bool
  /-- a chain's fault or CANCELLED code while CANCELLING, the report it goes with, and whether its record is refused or
  already written (R148) -/
  fault  : Nat
  errRef : Option Nat
  noRec  : Bool
  eligAt : Nat
  /-- the block after it, where the engine has read it early (R129) -/
  nblkAt : Option Nat
  nblk   : List Code
  /-- the ARITH cycle in which the owning task started -/
  born   : Nat
  /-- the STRM.GO that armed the context from FREE: its ARITH cycle, its thread and its xd (R127) -/
  go     : Option (Nat × Nat × BitVec 5)
  deriving DecidableEq, Repr

def Ctx.init : Ctx where
  st := .free
  owner := 0
  job := ⟨0, 0, 0⟩
  mode := 0
  modeSens := false
  ownerEnded := false
  cur := none
  next := none
  blkAt := none
  blk := []
  desc := []
  t0 := 0
  tRing := 0
  pos := 0
  reads := []
  nextRd := 0
  lists := []
  listAt := 0
  row := 0
  rows := 0
  oob := 0
  segs := 0
  acked := 0
  ringP := 0
  credits := 0
  creditWait := false
  sigs := 0
  doneSent := false
  recv := []
  mcHeld := 0
  mcIn := 0
  store := []
  pin := []
  again := false
  out := []
  tiles := []
  outs := []
  pressed := none
  shed := false
  fault := 0
  errRef := none
  noRec := false
  eligAt := 0
  nblkAt := none
  nblk := []
  born := 0
  go := none

/-- A relay hop (R144): segment `seg` of context `ctx` from member `mem` to the next; first the slot's earlier hop, then its credit is awaited, then
a forwarder, then it moves. -/
inductive HopSt where
  | blocked | credit | ready | moving
  deriving DecidableEq, Repr

structure Hop where
  ctx : Nat
  seg : Nat
  mem : Nat
  st  : HopSt
  deriving DecidableEq, Repr

/-! ### Synchronisation (chapter 8) -/

/-- Who operates on a sync object: a thread, a stream context (its credit waits and signals), a relay hop, an engine
command, the requester of a register write. -/
inductive SyncWho where
  | thread (k : Nat)
  | ctx (c : Nat)
  | hop (ctx seg mem : Nat)
  | cmd (id : Nat)
  | reg (rq : Requester)
  deriving DecidableEq, Repr

inductive SyncOp where
  /-- `gen`: a thread's generation bit; of an engine's signal, whether its object must be a COUNTER -/
  | sig (v : Int) (gen : Bool)
  | wait (w : Nat)
  | bar (gen : Bool)
  /-- a register write that arrived while the table was frozen; `half`: the 4-byte half written, high when true -/
  | init (half : Option Bool) (v : Nat)
  deriving DecidableEq, Repr

/-- An operation on its way to a table; objects are numbered 65,536 · quarter + number. -/
structure SyncMsg where
  /-- its flit's number -/
  id  : Nat
  who : SyncWho
  obj : Nat
  op  : SyncOp
  /-- the ARITH cycle in which it reached its table (R181) -/
  at_ : Option Nat
  deriving DecidableEq, Repr

structure Waiter where
  who   : SyncWho
  value : Nat
  bar   : Bool
  since : Nat
  gtc   : Nat
  deriving DecidableEq, Repr

/-- A sync object (Table 8.4) with its queue of waiters and its arrivers held for the next generation. -/
structure Obj where
  type    : Nat
  faulted : Bool
  cause   : Nat
  set_    : Bool
  gen     : Bool
  overrun : Nat
  parts   : Nat
  count   : Nat
  arrived : Nat
  next    : Nat
  waiters : List Waiter
  held    : List Waiter
  /-- a completion of its own is due at once (Table 8.6) -/
  chain   : Bool
  /-- the head of the queue has changed and a granting pass is due (R185) -/
  grant   : Bool
  deriving DecidableEq, Repr

def Obj.init : Obj := ⟨0, false, 0, false, false, 0, 0, 0, 0, 0, [], [], false, false⟩

/-- A wake message or an answer to an engine's signal on its way (R192, R138). -/
structure Wake where
  id     : Nat
  who    : SyncWho
  status : Nat
  cause  : Nat
  /-- the answer to a signal -/
  sig    : Bool
  deriving DecidableEq, Repr

/-- The sync watchdog of a quarter (R197-R199): checks made since the dividers' release, whether a firing waits for
its dump, the jobs it ended, the report of the last firing. -/
structure Wd where
  checks : Nat
  ended  : List JobId
  step4  : Bool
  trigKind : Nat
  trigIdx  : Nat
  errRef : Option Nat
  detail : Nat
  deriving DecidableEq, Repr

def Wd.init : Wd := ⟨0, [], false, 0, 0, none, 0⟩

/-! ### Engine commands (chapters 9, 11, 14 and 15) -/

/-- The units that take submissions (R208, R261, R332, R362): Grinders 0-15; Percolator, collectives engine and flash
manager of each hub. -/
inductive EUnit where
  | grind (g : Nat)
  | perc (h : Nat)
  | coll (h : Nat)
  | flash (h : Nat)
  deriving DecidableEq, Repr

/-- A command queued, begun, with its end due (its record still to be written), with DONE_OBJ signalled and the answer
awaited. -/
inductive CmdPhase where
  | queued | active | ending | signalled
  deriving DecidableEq, Repr

/-- A table slot (R203). -/
structure Slot where
  dir   : Nat
  rows  : Nat
  dim   : Nat
  opt   : Nat
  home  : Bool
  valid : Bool
  shard : Nat
  deriving DecidableEq, Repr

def Slot.init : Slot := ⟨0, 0, 16, 0, false, false, 0⟩

/-- A command from its submission on; `started` tells its task from a later one on the same thread. -/
structure Cmd where
  id      : Nat
  unit    : EUnit
  addr    : Nat
  thread  : Nat
  started : Nat
  job     : JobId
  mode    : Nat
  modeSens : Bool
  phase   : CmdPhase
  /-- the eight words, once it has begun -/
  words   : List Nat
  status  : Nat
  errRef  : Option Nat
  /-- the table slot it latched (R203) -/
  slot    : Slot
  /-- the next bag or record to begin -/
  next    : Nat
  /-- DONE or BLOCKS, BYTES, DROPPED, COLD of the record; `dropped` of a spill READ: 1 poison landed, 2 a page unmapped;
  of a collectives operation: it arrived while a re-shard drained -/
  cnt     : Nat
  bytes   : Nat
  dropped : Nat
  cold    : Nat
  /-- pages in progress (flash), by number -/
  open_   : List Nat
  deriving DecidableEq, Repr

/-! ### Grinders (chapter 9) -/

/-- An index of a bag (Table 9.4): its entry is being read; dropped; a row of which `asked` requests of 64 B have gone out and
the listed ones have returned, by place; a deferred row, with its codewords once they have come. -/
inductive IdxRead where
  | entry (r : Nat)
  | dropped (entry : Nat)
  | row (r entry asked : Nat) (parts : List (Nat × List Code))
  | cold (r entry : Nat) (data : Option (List Code))
  deriving DecidableEq, Repr

/-- A Grinder's request that is outstanding (R216), of an entry (16 B) or of a row (64 B): its flit, the index it is for, its address and bytes, the codewords that
the fabric made poison on the way back, and its codewords once the home has answered; none listed: refused. -/
structure GrRead where
  flit : Nat
  idx  : Nat
  addr : Nat
  n    : Nat
  bad  : Nat
  data : Option (List Code)
  deriving DecidableEq, Repr

/-- A bag that has begun (R213): its indices [lo, hi), the next whose entry is asked for and the next to be pooled. -/
structure Bag where
  cmd   : Nat
  b     : Nat
  lo    : Nat
  hi    : Nat
  slot  : Slot
  began : Nat
  ent   : Nat
  pos   : Nat
  n     : Nat
  acc   : List Nat
  reads : List (Nat × IdxRead)
  flits : List GrRead
  parked : Bool
  deriving DecidableEq, Repr

/-- A row with its merged gradient (R221). -/
structure UpdRow where
  row  : Nat
  grad : List Nat
  deriving DecidableEq, Repr

/-- The rows that an UPDATE has still to take. -/
structure Upd where
  cmd  : Nat
  rows : List UpdRow
  deriving DecidableEq, Repr

/-- An entry of a deferred-update queue (R228). -/
structure Defer where
  g    : Nat
  cmd  : Nat
  slot : Slot
  u    : UpdRow
  deriving DecidableEq, Repr

/-- A migration or replacement in flight (R227, R230): its record's row, the entry to install, and the GTC count of its
swap. -/
structure Move where
  g    : Nat
  cmd  : Nat
  row  : Nat
  slot : Slot
  new  : Nat
  replace : Bool
  swapped : Option Nat
  deriving DecidableEq, Repr

/-! ### Flash (chapter 15) -/

inductive FbSt where
  | free | opened | full | erasing | bad
  deriving DecidableEq, Repr

/-- A superblock of a target: its erase count, state, next page, and the retry level of its last good read. -/
structure FBlk where
  erases : Nat
  st    : FbSt
  next  : Nat
  level : Nat
  deriving DecidableEq, Repr

def FBlk.init : FBlk := ⟨0, .free, 0, 0⟩

/-- Where a logical page is, the powered hours at its program, its entry in the map region (R355), and its write sequence number
(Table 15.2). -/
structure FPage where
  tgt  : Nat
  blk  : Nat
  page : Nat
  hours : Nat
  img  : Nat
  wseq : Nat
  deriving DecidableEq, Repr

/-- A flash manager: the geometry that its profile names, the next target in the rotation, its map, its superblocks
(65,536 · target + number), the bytes of the committed pages by 65,536 · logical page + offset, its powered hours at
the release of the dividers. Target t of channel c has number 8t + c. -/
structure Flash where
  blocks : Nat
  pages  : Nat
  turn   : Nat
  map    : Sparse (Option FPage)
  blks   : Sparse FBlk
  data   : Sparse Byte
  hours0 : Nat
  /-- the scrub: the next page of the pass that runs, the powered hours at which the next pass begins, and whether the
  first pass since a COLD reset is still to be made (R360) -/
  scrub  : Option Nat
  passAt : Nat
  first  : Bool
  bad    : Nat
  /-- the write sequence number of the next page -/
  wseq   : Nat
  deriving DecidableEq, Repr

def Flash.init : Flash := ⟨0, 0, 0, [], [], [], 0, none, 0, true, 0, 0⟩

/-! ### Ordered adds (chapter 10) -/

/-- An ordered add that a quarter's store holds (R247); the list is in order of arrival. -/
structure OAdd where
  q    : Nat
  addr : Nat
  key  : Nat
  v    : Nat
  job  : JobId
  deriving DecidableEq, Repr

/-! ### Cellar and stacks (chapters 12 and 13) -/

/-- A way of a cache set: its line's device address divided by 256, plus one (0: invalid). -/
structure CLine where
  line  : Nat
  dirty : Bool
  deriving DecidableEq, Repr

def CLine.init : CLine := ⟨0, false⟩

/-- A write-back that the stack controller has not acknowledged (R287, R290); `range`: the range engine's; the line as the stacks
held it before, and the codewords that nothing else has written since (R289). -/
structure WBack where
  q    : Nat
  bank : Nat
  line : Nat
  range : Bool
  old  : Mem
  cws  : List Nat
  deriving DecidableEq, Repr

/-- A streaming detector (R286): its source, the source's previous 64 B block, the blocks of the present run of
full-line stores, and whether the source's writes stop allocating. -/
structure Det where
  who  : Who
  blk  : Nat
  run  : Nat
  stop : Bool
  deriving DecidableEq, Repr

/-- A thread's request that waits for its line; `ready`: the line has returned from the stacks. -/
structure Miss where
  req   : Nat
  line  : Nat
  ready : Bool
  deriving DecidableEq, Repr

/-- A bank's handover, power change or march in progress (R284, R294, R295), with what takes effect at its end. -/
structure BankTr where
  kind  : Nat
  id    : Nat
  mode  : Nat
  power : Nat
  zero  : Bool
  deriving DecidableEq, Repr

structure March where
  bank : Nat
  preserve : Bool
  deriving DecidableEq, Repr

/-- What a request in a pseudo-channel's queue is for: a thread's request, a read of a stream or Grinder by its flit, a line of
the cache, a write-back. -/
inductive PcFor where
  | req (id : Nat)
  | eng (flit : Nat)
  | fill (req line : Nat)
  | wb (q line : Nat)
  deriving DecidableEq, Repr

/-- A 64 B request (a line: four of them) in a pseudo-channel. It was performed in the order of its arrival (R300): a
read holds its data, with its poison, and what its codewords were found to be. -/
structure PcReq where
  for_  : PcFor
  addr  : Nat
  n     : Nat
  write : Bool
  lat   : Bool
  since : Nat
  v     : Nat
  bad   : Nat
  found : List (Nat × Option Nat)
  deriving DecidableEq, Repr

/-- A pseudo-channel: its queues in order of arrival, reads on their way back, the open row of each bank plus one,
one more than the ARITH cycle of its last access, whether it drains writes, the data-bus cycles of LAT reads in this window and the limit of the window (R303, R304). -/
structure Pc where
  queue : List PcReq
  flight : List PcReq
  rows  : Sparse Nat
  used  : Sparse Nat
  drain : Bool
  latBus : Nat
  limit : Nat
  hitLimit : Bool
  deriving DecidableEq, Repr

def Pc.init : Pc := ⟨[], [], [], [], false, 0, 256, false⟩

/-- A stack: by channel, one more than the ARITH cycle of the last reissue after a parity error; the next block the
scrubber reads; the corrected symbols of this scrub pass by lane (128 · channel + 64 · pseudo-channel + lane); the channels
that retrain; the last latency window begun. -/
structure StackSt where
  caAt   : Sparse Nat
  scrub  : Nat
  laneN  : Sparse Nat
  retrain : List Nat
  win    : Nat
  deriving DecidableEq, Repr

def StackSt.init : StackSt := ⟨[], 0, [], [], 0⟩

/-- A quarter's Cellar besides its banks: whether the range operation that runs invalidates the whole cache; the spares that
failed their march; SPARE_MAP as the last COLD reset put it into effect (R12, R296). -/
structure CellarSt where
  rangeInv : Bool
  spareBad : Nat
  spares   : Nat
  deriving DecidableEq, Repr

def CellarSt.init : CellarSt := ⟨false, 0, 0⟩

/-! ### Talien ports (chapter 14) -/

/-- A control that a port has received: its kind, its data (bytes 37 on), the GTC count and eighth of a tick at its
arrival. -/
structure Ctrl where
  kind : Nat
  data : Nat
  at_  : Nat
  eighth : Nat
  deriving DecidableEq, Repr

/-- A Talien port: what it has received (blocks by VC, in order of arrival; controls), what it owes in credits, what it
has to send, what it has sent and not had acknowledged. -/
structure TPort where
  /-- trained, exchanging HELLOs -/
  hello  : Bool
  expect : Nat
  nak    : Bool
  rx     : List (Nat × WireBlk)
  ctrls  : List Ctrl
  freed  : Vector Nat 3
  tx     : List (Nat × WireBlk)
  credit : Vector Nat 3
  /-- controls to send -/
  ctlOut : List (Nat × Nat)
  seq    : Nat
  retry  : List WireFrame
  /-- frames of the retry buffer still to be sent again -/
  replay : Nat
  /-- the ACK value whose NAK is being answered -/
  nakAt  : Option Nat
  /-- replays of the first unacknowledged frame, and since when ACK has not advanced -/
  tries  : Nat
  ackAt  : Nat
  /-- when the last recoveries began -/
  recovs : List Nat
  lockLost : Bool
  /-- corrected symbols of each lane, and frames, in the present window; the lane whose repair was asked for -/
  lanes  : List Nat
  frames : Nat
  repair : Option Nat
  /-- the lane that the partner's receiver has moved to the spare -/
  txSpare : Option Nat
  /-- the bring-up left a lane out: the lanes after it carry each the logical lane before its own (R326) -/
  shift : Bool
  /-- the last frame sent -/
  out    : Option WireFrame
  deriving DecidableEq, Repr

def TPort.init : TPort :=
  ⟨false, 0, false, [], [], Vector.replicate 3 0, [], #v[6144, 512, 1536], [], 0, [], 0, none, 0, 0, [], false, [], 0, none,
   none, false, none⟩

structure Route where
  ports : Nat
  hops  : Nat
  valid : Bool
  deriving DecidableEq, Repr

def Route.init : Route := ⟨0, 0, false⟩

/-! ### The global time counter (chapter 14) -/

/-- The counter; the single increment that the next tick adds or withholds; a follower's measurements (R329, R330), times
and offsets in eighths of a tick: whether the first sync is still to come, the last offsets with the counts at which they
were taken, the good syncs in a row, the link's delay, the syncs since it was measured, when its request left, when the
last sync came; increments owed to the rate correction and to the offset, and when the last was made; when the last
GTC_SYNC went out. -/
structure GtcSt where
  count : Nat
  adj   : Int
  first : Bool
  offs  : List (Int × Nat)
  good  : Nat
  delay : Int
  syncs : Nat
  reqAt : Option Nat
  syncAt : Nat
  owedRate : Int
  owedOff : Int
  slewAt : Nat
  sentAt : Nat
  deriving DecidableEq, Repr

def GtcSt.init : GtcSt := ⟨0, 0, true, [], 0, 0, 0, none, 0, 0, 0, 0, 0⟩

/-! ### Percolators (chapter 11) -/

/-- A segment in staging: its header's fields, and the 64 KiB slot of the staging banks that holds it. -/
structure Seg where
  seq    : Nat
  op     : Nat
  bytes  : Nat
  origin : Nat
  seg    : Nat
  slot   : Nat
  deriving DecidableEq, Repr

/-- A key/value request that a serving Percolator has begun or holds behind another of its block: the number it came to, the
data of a PUT that came before it began, by offset, and how the flash manager decodes the block. -/
structure KvReq where
  peer  : Nat
  self  : Nat
  put   : Bool
  block : Nat
  len   : Nat
  tag   : Nat
  entry : Nat
  began : Nat
  run   : Bool
  got   : Nat
  data  : List (Nat × List Code)
  res   : List FlashCw
  deriving DecidableEq, Repr

/-- A Percolator: the ports on which hellos and acknowledgements have gone out, the ports that have shaken hands, the segments in staging, the present pass (the block it receives or
the slot it adds, numbered from 1; the segments of it that have been landed or added; whether the slot's credit has been
asked for and granted; signals not answered), the passes aborted before they begin, its last progress, requests served, and
of PUTs answered without moving data: the peer, the tag, the bytes still to come. -/
structure Perc where
  outHello : Nat
  outAck : Nat
  hello  : Nat
  acks   : Nat
  staged : List Seg
  k      : Nat
  segs   : List Nat
  asked  : Bool
  granted : Bool
  sigs   : Nat
  aborts : List Nat
  progAt : Nat
  kvs    : List KvReq
  sinks  : List (Nat × Nat × Nat)
  deriving DecidableEq, Repr

def Perc.init : Perc := ⟨0, 0, 0, 0, [], 0, [], false, false, 0, [], 0, [], []⟩

/-! ### Collectives (chapter 14) -/

/-- Bytes of a chunk on their way between two members: the stage, the chunk, the byte offset; their count of codewords, and the
64 KiB slot of the staging banks that holds them. -/
structure CoPart where
  stage : Nat
  chunk : Nat
  off   : Nat
  len   : Nat
  slot  : Nat
  deriving DecidableEq, Repr

/-- An operation in progress (R332-R338): what it is matched by (a group, or a peer and channel), its members as rows of
`cols`, its place; the parts of chunks received; row sums held (stage 8) and chunks handled (no elements), by stage and
chunk; the chunks written; whether it has sent what it starts with; its last progress. An element is none where it is
poison. -/
structure CoOp where
  cmd   : Nat
  gid   : Nat
  seq   : Nat
  n     : Nat
  cols  : Nat
  mem   : List Nat
  pos   : Nat
  self  : Nat
  crc   : Nat
  parts : List CoPart
  held  : List (Nat × Nat × List (Option Nat))
  wrote : List Nat
  started : Bool
  progAt : Nat
  deriving DecidableEq, Repr

/-- A message that waits for its operation to begin: a COLL_READY or data. -/
structure CoMsg where
  key  : Nat
  hdr  : CollHdr
  ready : Bool
  len  : Nat
  slot : Nat
  deriving DecidableEq, Repr

structure Coll where
  ops   : List CoOp
  early : List CoMsg
  /-- operations aborted before they begin: what they are matched by, sequence number, whether the abort says mismatch -/
  aborts : List (Nat × Nat × Bool)
  deriving DecidableEq, Repr

def Coll.init : Coll := ⟨[], [], []⟩

/-! ### Trust (chapter 18) -/

/-- A Ledger record (R420). `index`: quarter, 256 · stack, 65,536 · channel. -/
structure LedgerRec where
  num    : Nat
  kind   : Nat
  index  : Nat
  old    : Nat
  new    : Nat
  gtc    : Nat
  colds  : Nat
  signer : Nat
  deriving DecidableEq, Repr

/-- An image bank of the MRAM: whether its three images are whole and well signed (R411), their SVNs and their digests:
firmware, quarter microcode, Talien firmware. -/
structure FwBank where
  ok   : Bool
  svns : List Nat
  digs : List Nat
  deriving DecidableEq, Repr

/-- A signed request that waits for firmware (R415): its port, address, and CTRL cycle of arrival. -/
structure TrustReq where
  port : Nat
  addr : Nat
  at_  : Nat
  deriving DecidableEq, Repr

/-- The last answer of a port's DOE mailbox (R419): measurements as index and values. -/
inductive SpdmReply where
  | none
  | version
  | capabilities
  | algorithms
  | digests
  | certificate (off len : Nat)
  | challengeAuth (nonce : Nat)
  | measurements (l : List (Nat × List Nat)) (signed : Bool) (nonce : Nat)
  | error (code : Nat)
  deriving DecidableEq, Repr

/-- A port's SPDM negotiation: nothing, version, capabilities, algorithms (0 to 3), and its last answer. -/
structure Spdm where
  stage : Nat
  reply : SpdmReply
  deriving DecidableEq, Repr

def Spdm.init : Spdm := ⟨0, .none⟩

/-- Silpaot's MRAM and requests: the Ledger, oldest record first; COLD resets since manufacture; whether RMA has erased the
identity key; the bank that the boot selector names (A: false), the banks, the digests of the images that run, of the profile applied; requests
in order of arrival; the ports' mailboxes. -/
structure TrustSt where
  ledger : List LedgerRec
  /-- the spare-core maps (R11): by 1,024 · quarter + core, one more than the physical position of a core that a repair has moved, as
  the Ledger holds it and as the last COLD reset put it into effect -/
  cores  : Sparse Nat
  coresOn : Sparse Nat
  colds  : Nat
  erased : Bool
  sel    : Bool
  bankA  : FwBank
  bankB  : FwBank
  digs   : List Nat
  profile : Nat
  reqs   : List TrustReq
  spdm0  : Spdm
  spdm1  : Spdm
  deriving DecidableEq, Repr

def FwBank.init : FwBank := ⟨true, [0, 0, 0], [0, 0, 0]⟩
def TrustSt.init : TrustSt :=
  ⟨[], [], [], 0, false, false, FwBank.init, FwBank.init, [0, 0, 0], 0, [], Spdm.init, Spdm.init⟩

structure State where
  /-- commands that wait, first in first out -/
  pending : List Instr
  /-- the index of the next free value (log entry 3) -/
  freeCtr : Nat
  /-- register fields, keyed by 64 · (2^20 · block + offset) + lowest bit -/
  regs    : Sparse Nat
  mem     : Mem
  /-- host memory as the device has written it, by window address -/
  host    : Mem
  clk     : ClockSt
  fabric  : FabricSt
  ports   : Sparse Port
  rings   : Sparse Ring
  hostReads : List HostRead
  jobs    : List Job
  threads : Sparse Thread
  cores   : Sparse Core
  tasks   : Sparse Entry
  scheds  : Sparse Sched
  spawns  : List Spawn
  flagMsgs : List FlagMsg
  err     : ErrSt
  pow     : PowSt
  arrs    : Sparse Arr
  vecs    : Sparse (List VecOp)
  digNew  : Sparse DigNew
  ctxs    : Sparse Ctx
  hops    : List Hop
  objs    : Sparse Obj
  syncMsgs : List SyncMsg
  wakes   : List Wake
  wds     : Sparse Wd
  /-- engine commands, in the order in which they reached their units -/
  cmds    : List Cmd
  /-- stores to SUBMIT held at a full queue, by request -/
  heldSubs : List (EUnit × Nat)
  slots   : Sparse Slot
  bags    : List Bag
  upds    : List Upd
  defers  : List Defer
  moves   : List Move
  /-- shard counters (1,024 · (32 · Grinder + slot) + shard), sketch counters and the indices a sketch unit counted -/
  shards  : Sparse Nat
  sketch  : Sparse Nat
  sketchN : Sparse Nat
  flashes : Sparse Flash
  oadds   : List OAdd
  /-- the data of the valid cache lines, by device address -/
  cmem    : Mem
  clines  : Sparse CLine
  /-- the pseudo-LRU tree of each set -/
  plru    : Sparse Nat
  wbacks  : List WBack
  dets    : Sparse (List Det)
  misses  : List Miss
  bankTrs : Sparse (Option BankTr)
  marches : Sparse (Option March)
  cellars : Sparse CellarSt
  pcs     : Sparse Pc
  stkSts  : Sparse StackSt
  tports  : Sparse TPort
  routes  : Sparse Route
  /-- messages sent on each route, by hub -/
  routeN  : Sparse Nat
  percs   : Sparse Perc
  colls   : Sparse Coll
  gtc     : GtcSt
  /-- one more than the CTRL cycle of the last mode commit, and of an ABORT that takes effect at its end (Table 8.8) -/
  modeAt  : Nat
  modeAb  : Nat
  /-- one more than the GTC count of the last update of the throttle level -/
  thrAt   : Nat
  trust   : TrustSt
  deriving DecidableEq, Repr

def State.reset : State where
  pending := []
  freeCtr := 0
  -- SYNC.DUMP_BASE.BASE of Q0 to Q3, the one field whose value at cold reset differs from block to block (Table 8.12)
  regs    := [(134219800, 36863), (17314088984, 73727), (34493958168, 110591), (51673827352, 147455)]
  mem     := ⟨[], [], []⟩
  host    := ⟨[], [], []⟩
  clk     := ⟨0, 1, 0, false⟩
  fabric  := ⟨[], [], 0, [], []⟩
  ports   := []
  rings   := []
  hostReads := []
  jobs    := []
  threads := []
  cores   := []
  tasks   := []
  scheds  := []
  spawns  := []
  flagMsgs := []
  err     := ⟨[], 0, [], [], false, false⟩
  pow     := PowSt.init
  arrs    := []
  vecs    := []
  digNew  := []
  ctxs    := []
  hops    := []
  objs    := []
  syncMsgs := []
  wakes   := []
  wds     := []
  cmds    := []
  heldSubs := []
  slots   := []
  bags    := []
  upds    := []
  defers  := []
  moves   := []
  shards  := []
  sketch  := []
  sketchN := []
  flashes := []
  oadds   := []
  cmem    := ⟨[], [], []⟩
  clines  := []
  plru    := []
  wbacks  := []
  dets    := []
  misses  := []
  bankTrs := []
  marches := []
  cellars := []
  pcs     := []
  stkSts  := []
  tports  := []
  routes  := []
  routeN  := []
  percs   := []
  colls   := []
  gtc     := GtcSt.init
  modeAt  := 0
  modeAb  := 0
  thrAt   := 0
  trust   := TrustSt.init

end Sys2Proof.Machine
end

