-- ==== Sys2Proof/Machine/Ops.lean ====
section
/-! DEFINITION. The named operations over the state: bits and bytes, register fields, memory and its codewords, the
address map, error reports. -/

namespace Sys2Proof.Machine

/-! ### Bits and bytes -/

/-- Bits `[lo + w - 1 : lo]` of a number. -/
def bits (v lo w : Nat) : Nat := (v >>> lo) % 2 ^ w
def bit (v i : Nat) : Bool := v.testBit i
/-- A number of `w` bits read as two's complement. -/
def sextInt (w v : Nat) : Int := if v % 2 ^ w < 2 ^ (w - 1) then ((v % 2 ^ w : Nat) : Int) else ((v % 2 ^ w : Nat) : Int) - 2 ^ w
/-- The bytes of a number, least significant first. -/
def leBytes : Nat → Nat → List Byte
  | 0, _ => []
  | n + 1, v => BitVec.ofNat 8 v :: leBytes n (v / 256)
/-- The number whose bytes these are, least significant first. -/
def leNat : List Byte → Nat
  | [] => 0
  | b :: l => b.toNat + 256 * leNat l
/-- The number of bits set below bit `n`. -/
def popCount : Nat → Nat → Nat
  | 0, _ => 0
  | n + 1, v => (if v.testBit n then 1 else 0) + popCount n v
def b2n (b : Bool) : Nat := if b then 1 else 0
/-- `v` with `x` in bits `[lo + w - 1 : lo]`. -/
def setBits (v lo w x : Nat) : Nat := v - bits v lo w * 2 ^ lo + (x % 2 ^ w) * 2 ^ lo

/-! ### Free values -/

/-- A value that nothing constrains, and the state with its index used (log entry 3). -/
def State.fresh (s : State) : Word × State :=
  (Config.freeWord s.freeCtr, { s with freeCtr := s.freeCtr + 1 })

/-! ### Register fields (R5-R9) -/

def fkey (blk : Nat) (f : Fld) (ix : Nat) : Nat := (blk * 0x100000 + f.reg + ix) * 64 + f.lo
/-- The value a field holds; `ix` is the byte offset of the element in an array of registers. -/
def State.fget (s : State) (blk : Nat) (f : Fld) (ix : Nat := 0) : Nat :=
  Sparse.get f.rst s.regs (fkey blk f ix)
def State.fset (s : State) (blk : Nat) (f : Fld) (v : Nat) (ix : Nat := 0) : State :=
  { s with regs := Sparse.put f.rst s.regs (fkey blk f ix) (v % 2 ^ f.w) }
/-- A counter raised by `n`; it stays at its largest value. -/
def State.bump (s : State) (blk : Nat) (f : Fld) (ix : Nat := 0) (n : Nat := 1) : State :=
  s.fset blk f (min (s.fget blk f ix + n) (2 ^ f.w - 1)) ix
def State.fbit (s : State) (blk : Nat) (f : Fld) (ix : Nat := 0) : Bool := s.fget blk f ix != 0
/-- Every field of block `blk` at its value at cold reset. -/
def State.resetBlock (s : State) (blk : Nat) : State :=
  { s with regs := Sparse.clearRange s.regs (blk * 0x100000 * 64) ((blk + 1) * 0x100000 * 64) }
/-- The same for blocks `lo` to `hi - 1`. -/
def State.resetBlocks (s : State) (lo hi : Nat) : State :=
  { s with regs := Sparse.clearRange s.regs (lo * 0x100000 * 64) (hi * 0x100000 * 64) }
/-- One field at its value at cold reset. -/
def State.fclear (s : State) (blk : Nat) (f : Fld) (ix : Nat := 0) : State := s.fset blk f f.rst ix

/-- Block numbers of Table 1.9. -/
def blkQCTL (q : Nat) : Nat := 0x100 * q
def blkTSCHED (q : Nat) : Nat := 0x100 * q + 1
def blkSYNC (q : Nat) : Nat := 0x100 * q + 2
def blkMESH (q : Nat) : Nat := 0x100 * q + 3
def blkCELLAR (q : Nat) : Nat := 0x100 * q + 4
def blkDIGEST (q : Nat) : Nat := 0x100 * q + 5
/-- Grinder `g`, 0-15 over the device. -/
def blkGRIND (g : Nat) : Nat := 0x100 * (g / 4) + 8 + g % 4
/-- Stack `m`, 0-23 over the device. -/
def blkSTACK (m : Nat) : Nat := 0x100 * (m / 6) + 0x10 + m % 6
/-- Cluster `c`, 0-63 over the device. -/
def blkSTRM (c : Nat) : Nat := 0x100 * (c / 16) + 0x20 + c % 16
def blkPRESS (c : Nat) : Nat := 0x100 * (c / 16) + 0x30 + c % 16
def blkCLUS (c : Nat) : Nat := 0x100 * (c / 16) + 0x40 + c % 16
def blkHCTL : Nat := 0x400
def blkPCIE (p : Nat) : Nat := 0x401 + 0x100 * p
def blkJI (p : Nat) : Nat := 0x402 + 0x100 * p
def blkPERC (h : Nat) : Nat := 0x403 + 0x100 * h
def blkCOLL (h : Nat) : Nat := 0x404 + 0x100 * h
/-- Talien port `t`, 0-17. -/
def blkTL (t : Nat) : Nat := 0x410 + 0x100 * (t / 9) + t % 9
/-- Flash channel `c`, 0-15. -/
def blkF (c : Nat) : Nat := 0x420 + 0x100 * (c / 8) + c % 8
def blkFM (h : Nat) : Nat := 0x428 + 0x100 * h
def blkSILPAOT : Nat := 0x440
def blkCLK : Nat := 0x600
def blkGTC : Nat := 0x601
def blkMODE : Nat := 0x602
def blkID : Nat := 0x603
def blkFAB : Nat := 0x604

/-! ### The address map (R25, R26) -/

inductive Region where
  | stack (q : Nat)
  | cellar (q b : Nat)
  | scratch (core : Nat)
  | regs (n off : Nat)
  | host (p : Nat)
  | unmapped
  deriving DecidableEq, Repr

def scratchBase : Nat := 0x410000000000
def cellarBase : Nat := 0x400000000000
def regsBase : Nat := 0x420000000000
def scratchAddr (core off : Nat) : Nat := scratchBase + core * 0x40000 + off
def bankAddr (q b off : Nat) : Nat := cellarBase + (56 * q + b) * 0x2000000 + off

/-- The region of Table 1.8 that holds an address. -/
def region (a : Nat) : Region :=
  if a < 0x024000000000 then .stack (a / 0x009000000000)
  else if cellarBase ≤ a ∧ a < 0x4001C0000000 then
    .cellar ((a - cellarBase) / 0x2000000 / 56) ((a - cellarBase) / 0x2000000 % 56)
  else if scratchBase ≤ a ∧ a < 0x410040000000 then .scratch ((a - scratchBase) / 0x40000)
  else if regsBase ≤ a ∧ a < 0x420100000000 then .regs ((a - regsBase) / 0x100000) (a % 0x100000)
  else if 0x800000000000 ≤ a ∧ a < 0xC00000000000 then .host 0
  else if 0xC00000000000 ≤ a ∧ a < 0x1000000000000 then .host 1
  else .unmapped

/-- Whether a requester's interface lets an access through (R25, R27): the address is mapped, a register block's
number is listed, and an AMO goes to a home that performs AMOs. -/
def mapped (a : Nat) (amo : Bool) : Bool :=
  match region a with
  | .unmapped => false
  | .regs n _ => !amo && (blockKind n).isSome
  | .host _ => !amo
  | _ => true

/-- Where a stack byte lies (R26). -/
structure StackLoc where
  stack   : Nat
  channel : Nat
  pc      : Nat
  off     : Nat
  deriving DecidableEq, Repr

def stackLoc (a : Nat) : StackLoc :=
  let n := a / 0x009000000000
  let la := a % 0x009000000000
  let g := la / 2048
  let r := g / 192
  let j := g % 192
  let h := ((bits r 0 8) ^^^ (bits r 8 8) ^^^ (bits r 16 5)) % 192
  let p := (j + h) % 192
  let k := p / 6
  ⟨6 * n + p % 6, k % 16, k / 16, r * 2048 + la % 2048⟩

/-- Whether an address lies in the stacks, a Cellar window or core scratch. -/
def inDevMem (a : Nat) : Bool :=
  match region a with
  | .stack _ => true
  | .cellar _ _ => true
  | .scratch _ => true
  | _ => false

/-! ### Memory cells and codewords (R54, R58, R371) -/

def Mem.byte (m : Mem) (a : Nat) : Byte := Sparse.get 0 m.bytes a
def Mem.setByte (m : Mem) (a : Nat) (b : Byte) : Mem := { m with bytes := Sparse.put 0 m.bytes a b }
/-- `n` bytes from `a`. -/
def Mem.read (m : Mem) (a n : Nat) : List Byte := (List.range n).map (fun i => m.byte (a + i))
def Mem.readNat (m : Mem) (a n : Nat) : Nat := leNat (m.read a n)
/-- Bytes put from `a` on, codeword marks untouched. -/
def Mem.writeBytes (m : Mem) : Nat → List Byte → Mem
  | _, [] => m
  | a, b :: l => (m.setByte a b).writeBytes (a + 1) l
/-- The codewords that bytes `[a, a + n)` touch. -/
def cws (a n : Nat) : List Nat := if n = 0 then [] else (List.range ((a + n - 1) / 16 - a / 16 + 1)).map (a / 16 + ·)

/-- What the decoder finds in a stored codeword (R371). -/
inductive CwState where
  | clean
  | one (sym : Nat)
  | bad
  | poison
  deriving DecidableEq, Repr

/-- The lowest bit set of a mask of `n` bits. -/
def lowBit (n v : Nat) : Nat := ((List.range n).find? (fun i => v.testBit i)).getD 0

def Mem.cw (m : Mem) (c : Nat) : CwState :=
  if Sparse.get false m.poison c then .poison
  else
    let u := Sparse.get 0 m.upset c
    match popCount 36 u with
    | 0 => .clean
    | 1 => .one (lowBit 36 u)
    | _ => .bad

/-- Whether any codeword of `[a, a + n)` is returned as the poison word. -/
def Mem.poisoned (m : Mem) (a n : Nat) : Bool :=
  (cws a n).any (fun c => m.cw c == .poison || m.cw c == .bad)
def Mem.setPoison (m : Mem) (c : Nat) (b : Bool) : Mem :=
  { m with poison := Sparse.put false m.poison c b, upset := Sparse.del m.upset c }
/-- The codeword as a write of part of it leaves it (R58): poison stays poison, one bad symbol is restored, more make
it poison; a write of the whole codeword replaces it, poison included. -/
def Mem.mergeCw (m : Mem) (whole : Bool) (c : Nat) : Mem :=
  if whole then m.setPoison c false
  else
    match m.cw c with
    | .clean => m
    | .one _ => { m with upset := Sparse.del m.upset c }
    | .bad => m.setPoison c true
    | .poison => m
/-- Whether `[a, a + n)` covers all of codeword `c`. -/
def covers (a n c : Nat) : Bool := decide (a ≤ 16 * c) && decide (16 * c + 16 ≤ a + n)
/-- A write of bytes from `a` on, each codeword merged or replaced (R58). -/
def Mem.write (m : Mem) (a : Nat) (bs : List Byte) : Mem :=
  ((cws a bs.length).foldl (fun m c => m.mergeCw (covers a bs.length c) c) m).writeBytes a bs
/-- Every codeword of `[a, a + n)` made the poison word. -/
def Mem.writePoison (m : Mem) (a n : Nat) : Mem :=
  (cws a n).foldl (fun m c => m.setPoison c true) m
/-- A write whose data may be poison: whole codewords of poison data become poison. -/
def Mem.writeP (m : Mem) (a : Nat) (bs : List Byte) (poison : Bool) : Mem :=
  if poison then m.writePoison a bs.length else m.write a bs
/-- Every byte of `[lo, hi)` zero with valid codewords. -/
def Mem.zero (m : Mem) (lo hi : Nat) : Mem :=
  { bytes := Sparse.clearRange m.bytes lo hi
    poison := Sparse.clearRange m.poison (lo / 16) (hi / 16)
    upset := Sparse.clearRange m.upset (lo / 16) (hi / 16) }
/-- The canonical form of a memory: its three maps are sorted and list no default. -/
def Mem.wf (m : Mem) : Bool := Sparse.wf 0 m.bytes && Sparse.wf false m.poison && Sparse.wf 0 m.upset

/-! ### Error reports (R375-R379) -/

def whoThread (k : Nat) : Nat := (k / 64) + (k % 64) * 0x1000 + 0x1000000
def jobWord (j : JobId) : Nat := j.port + j.ring * 2 + 0x80 + (j.count % 0x1000000) * 0x100

/-- Adds one to the REPEAT of the newest waiting report with this code; `none`: no such report. -/
def mergeNewest (code : Nat) : List ErrRec → Option (List ErrRec)
  | [] => none
  | r :: l =>
    match mergeNewest code l with
    | some l' => some (r :: l')
    | none => if r.code = code then some ({ r with rep := r.rep + 1 } :: l) else none

/-- The GTC count. -/
def State.now (s : State) : Nat := s.gtc.count

/-- The report numbered `id` of a unit goes to the logger (R376, R377). -/
def State.reportAs (s : State) (id cls code block : Nat) (who job addr pc info : Nat) : State :=
  let q := Sparse.get [] s.err.queues block
  let r : ErrRec := ⟨id, 0, cls, code, block, s.now, who, job, addr, pc, info, 0⟩
  if q.length < 16 ∨ 3 ≤ cls then
    { s with err := { s.err with queues := Sparse.put [] s.err.queues block (q ++ [r]) } }
  else
    match mergeNewest code q with
    | some q' => { s with err := { s.err with queues := Sparse.put [] s.err.queues block q' } }
    | none => s.bump blkSILPAOT F.SILPAOT.BLK_LOG.DROPPED (8 * block)

/-- The next number of a report. -/
def State.nextReport (s : State) : State := { s with err := { s.err with nextId := s.err.nextId + 1 } }
/-- A unit's report of an error. -/
def State.report (s : State) (cls code block : Nat) (who job addr pc info : Nat) : State :=
  s.nextReport.reportAs s.err.nextId cls code block who job addr pc info
/-- A report of this code finds a place: in its unit's queue, or merged with one there. -/
def State.reportFits (s : State) (code block : Nat) : Bool :=
  let q := Sparse.get [] s.err.queues block
  q.length < 16 || (mergeNewest code q).isSome

/-- A corrected error: counted; reported only when it is the first since the counter was cleared and LOG_CTL asks for
it (R378). -/
def State.corrected (s : State) (block : Nat) (f : Fld) (ix : Nat) (addr sym : Nat) : State :=
  let first := s.fget block f ix == 0
  let s := s.bump block f ix
  if first && s.fbit blkSILPAOT F.SILPAOT.LOG_CTL.CE_RECORDS then
    s.report 0 0xA0 block 0 0 addr 0 sym
  else s

/-- A register-access error (R5, R379): counted in the block addressed, with its offset and kind. -/
def State.regError (s : State) (n off : Nat) (write : Bool) (kind : Nat) : State :=
  let ix := 8 * n
  (((s.bump blkSILPAOT F.SILPAOT.BLK_LOG.REG_ACCESS ix).fset blkSILPAOT F.SILPAOT.BLK_LOG.LAST_OFFSET off ix).fset
    blkSILPAOT F.SILPAOT.BLK_LOG.LAST_WRITE (b2n write) ix).fset blkSILPAOT F.SILPAOT.BLK_LOG.LAST_KIND kind ix

/-- A request rejected at issue (R25, R27), as the FAB block records it. -/
def State.fabReject (s : State) (a : Nat) (write : Bool) : State :=
  let s := (s.fset blkFAB F.FAB.UNMAPPED_ADDR.ADDR a).bump blkFAB F.FAB.UNMAPPED_COUNT.COUNT
  match region a with
  | .regs _ off => s.regError blkFAB off write 1
  | _ => s

/-! ### Named parts of the state -/

def State.port (s : State) (p : Nat) : Port := Sparse.get Port.init s.ports p
def State.setPort (s : State) (p : Nat) (x : Port) : State := { s with ports := Sparse.put Port.init s.ports p x }
def ringKey (p r : Nat) : Nat := p * 64 + r
def State.ring (s : State) (p r : Nat) : Ring := Sparse.get Ring.init s.rings (ringKey p r)
def State.setRing (s : State) (p r : Nat) (x : Ring) : State :=
  { s with rings := Sparse.put Ring.init s.rings (ringKey p r) x }
def State.thread (s : State) (k : Nat) : Thread := Sparse.get Thread.init s.threads k
def State.setThread (s : State) (k : Nat) (x : Thread) : State :=
  { s with threads := Sparse.put Thread.init s.threads k x }
def State.core (s : State) (k : Nat) : Core := Sparse.get Core.init s.cores k
def State.setCore (s : State) (k : Nat) (x : Core) : State := { s with cores := Sparse.put Core.init s.cores k x }
/-- Entry `e` of quarter `q`'s task table. -/
def entryKey (q e : Nat) : Nat := q * 16384 + e
def State.entry (s : State) (k : Nat) : Entry := Sparse.get Entry.init s.tasks k
def State.setEntry (s : State) (k : Nat) (x : Entry) : State := { s with tasks := Sparse.put Entry.init s.tasks k x }
def State.sched (s : State) (q : Nat) : Sched := Sparse.get Sched.init s.scheds q
def State.setSched (s : State) (q : Nat) (x : Sched) : State := { s with scheds := Sparse.put Sched.init s.scheds q x }
def State.job? (s : State) (j : JobId) : Option Job := s.jobs.find? (fun x => x.id == j)
def State.updJob (s : State) (j : JobId) (f : Job → Job) : State :=
  { s with jobs := s.jobs.map (fun x => if x.id = j then f x else x) }
def State.dropJob (s : State) (j : JobId) : State := { s with jobs := s.jobs.filter (fun x => x.id != j) }

/-- The state of quarter `q` (Table 17.8): 0 RESET, 1 READY, 2 ENTERING, 3 STANDBY, 4 EXITING, 5 WITHDRAWN. -/
def State.qState (s : State) (q : Nat) : Nat := s.fget (blkQCTL q) F.QCTL.Q_STATUS.STATE
/-- The quarter's units serve work. -/
def State.qUp (s : State) (q : Nat) : Bool := s.qState q == 1
/-- The device serves work at all: started up, with its clocks, not tripped, not fatal. -/
def State.alive (s : State) : Bool :=
  s.pow.boot == .running && !s.clk.mgmtOnly && !s.pow.thermtrip && !s.err.fatal

/-- Registers can be written: the device is out of reset, with its clocks. -/
def State.regsOn (s : State) : Bool := s.pow.boot != .held && !s.clk.mgmtOnly && !s.pow.thermtrip

/-- The CTRL cycle: 2 in every 5 ARITH cycles (Table 1.6). -/
def State.ctrl (s : State) : Nat := s.clk.arith * 2 / 5
/-- A device event on a port (vector 0; JI.DEV_EVENT). -/
def State.devEvent (s : State) (p cause : Nat) : State :=
  let s := s.fset (blkJI p) F.JI.DEV_EVENT.CAUSE (s.fget (blkJI p) F.JI.DEV_EVENT.CAUSE ||| 2 ^ cause)
  let x := s.port p
  s.setPort p (if x.masked.getLsbD 0 then { x with pend := x.pend ||| 1 }
    else { x with raised := Sparse.put 0 x.raised 0 (Sparse.get 0 x.raised 0 + 1) })

end Sys2Proof.Machine
end

