-- ==== Sys2Proof/Machine/Float.lean ====
section
/-! DEFINITION. Number formats, exact values and rounding (R77-R80, R83-R90, R94-R96). A finite value is an integer times
a power of two; every operation is exact and rounds once. -/

namespace Sys2Proof.Machine

/-- Rounding modes (R93): 0 RNE, 1 RTZ, 2 RUP, 3 RDN. -/
inductive Rnd where
  | rne | rtz | rup | rdn
  deriving DecidableEq, Repr

def Rnd.ofCode (n : Nat) : Rnd :=
  if n = 1 then .rtz else if n = 2 then .rup else if n = 3 then .rdn else .rne

/-- A value: NaN, an infinity, a signed zero, or ±m × 2^e with m > 0. -/
inductive FV where
  | nan
  | inf (neg : Bool)
  | zero (neg : Bool)
  | fin (neg : Bool) (m : Nat) (e : Int)
  deriving DecidableEq, Repr

/-- The number of bits of `m`. -/
def bitLen (m : Nat) : Nat := if m = 0 then 0 else Nat.log2 m + 1

/-- A narrow format: width of the significand with its leading bit, the unit of the smallest number, the code of the
largest finite magnitude. -/
structure Fmt where
  p    : Nat
  emin : Int
  maxc : Nat
  deriving DecidableEq, Repr

def fmtFP32 : Fmt := ⟨24, -149, 0x7F7FFFFF⟩
def fmtBF16 : Fmt := ⟨8, -133, 0x7F7F⟩
def fmtFP16 : Fmt := ⟨11, -24, 0x7BFF⟩
def fmtE4M3 : Fmt := ⟨4, -9, 0x7E⟩
def fmtE5M2 : Fmt := ⟨3, -16, 0x7B⟩
def fmtE2M1 : Fmt := ⟨2, -1, 7⟩

/-- The value of a magnitude code (Table 4.1). -/
def Fmt.mag (f : Fmt) (neg : Bool) (c : Nat) : FV :=
  let h := 2 ^ (f.p - 1)
  if c = 0 then .zero neg
  else if c < h then .fin neg c f.emin
  else .fin neg (h + c % h) (f.emin + (c / h : Nat) - 1)

/-- The value of an encoding with `w` bits; `infc` is the magnitude code of infinity where the format has one, and
larger codes are NaN (Table 4.2). -/
def Fmt.value (f : Fmt) (w : Nat) (infc : Option Nat) (v : Nat) : FV :=
  let neg := v.testBit (w - 1)
  let c := v % 2 ^ (w - 1)
  match infc with
  | some i => if c = i then .inf neg else if i < c then .nan else f.mag neg c
  | none => if f.maxc < c then .nan else f.mag neg c

def ofFP32 (v : Nat) : FV := fmtFP32.value 32 (some 0x7F800000) v
def ofBF16 (v : Nat) : FV := fmtBF16.value 16 (some 0x7F80) v
def ofFP16 (v : Nat) : FV := fmtFP16.value 16 (some 0x7C00) v
def ofE4M3 (v : Nat) : FV := fmtE4M3.value 8 none v
def ofE5M2 (v : Nat) : FV := fmtE5M2.value 8 (some 0x7C) v
def ofE2M1 (v : Nat) : FV := fmtE2M1.value 4 none v

/-- Whether rounding moves away from zero: `half` compares the part cut off with half a unit. -/
def roundUp (r : Rnd) (neg odd : Bool) (half : Ordering) (exact : Bool) : Bool :=
  match r with
  | .rne => half == .gt || (half == .eq && odd)
  | .rtz => false
  | .rup => !exact && !neg
  | .rdn => !exact && neg

/-- m × 2^e rounded to `p` bits, no finer than 2^emin: the integer and its unit's exponent. -/
def roundAt (r : Rnd) (p : Nat) (emin : Int) (neg : Bool) (m : Nat) (e : Int) : Nat × Int :=
  let q := max (e + (bitLen m : Int) - (p : Int)) emin
  let n : Nat × Int :=
    if q ≤ e then (m * 2 ^ (e - q).toNat, q)
    else
      let d := (q - e).toNat
      let fl := m / 2 ^ d
      let rem := m % 2 ^ d
      let up := roundUp r neg (fl % 2 == 1) (compare (2 * rem) (2 ^ d)) (rem == 0)
      (if up then fl + 1 else fl, q)
  if n.1 = 2 ^ p then (2 ^ (p - 1), n.2 + 1) else n

/-- The magnitude code of `n` units of 2^q in a format (it may pass the largest finite code). -/
def Fmt.code (f : Fmt) (n : Nat) (q : Int) : Nat := (q - f.emin).toNat * 2 ^ (f.p - 1) + n

/-- Sign bit and magnitude code. -/
def signed (w : Nat) (neg : Bool) (c : Nat) : Nat := if neg then c + 2 ^ (w - 1) else c

/-- The FP32 encoding of a value under a mode; overflow as IEEE 754 (Table 4.4, first row). -/
def toIEEE (f : Fmt) (w infc nan : Nat) (r : Rnd) (v : FV) : Nat :=
  match v with
  | .nan => nan
  | .inf neg => signed w neg infc
  | .zero neg => signed w neg 0
  | .fin neg m e =>
    let n := roundAt r f.p f.emin neg m e
    let c := f.code n.1 n.2
    if c ≤ f.maxc then signed w neg c
    else
      let toInf := match r with
        | .rne => true
        | .rtz => false
        | .rup => !neg
        | .rdn => neg
      signed w neg (if toInf then infc else f.maxc)

def nan32 : Nat := 0x7FC00000
def toFP32 (r : Rnd) (v : FV) : Nat := toIEEE fmtFP32 32 0x7F800000 nan32 r v

/-- An FP32 value narrowed to an FP8 format, and whether it saturated or turned an infinity into NaN (Table 4.4). -/
def toFP8 (f : Fmt) (infc : Option Nat) (nan : Nat) (r : Rnd) (v : FV) : Nat × Bool :=
  match v with
  | .nan => (nan, false)
  | .inf neg => match infc with
    | some i => (signed 8 neg i, false)
    | none => (nan, true)
  | .zero neg => (signed 8 neg 0, false)
  | .fin neg m e =>
    let n := roundAt r f.p f.emin neg m e
    let c := f.code n.1 n.2
    if c ≤ f.maxc then (signed 8 neg c, false) else (signed 8 neg f.maxc, true)

/-- An FP32 encoding narrowed to an output format of Table 3.10 (0 FP32, 1 BF16, 2 FP16, 3 FP8-E4M3, 4 FP8-E5M2). -/
def narrow (fmt : Nat) (r : Rnd) (v : Nat) : Nat × Bool :=
  let x := ofFP32 v
  if fmt = 1 then (toIEEE fmtBF16 16 0x7F80 0x7FC0 r x, false)
  else if fmt = 2 then (toIEEE fmtFP16 16 0x7C00 0x7E00 r x, false)
  else if fmt = 3 then toFP8 fmtE4M3 none 0x7F r x
  else if fmt = 4 then toFP8 fmtE5M2 (some 0x7C) 0x7E r x
  else (v, false)

/-! ### Exact arithmetic -/

/-- A signed integer times a power of two. -/
structure Dy where
  m : Int
  e : Int
  deriving DecidableEq, Repr

def Dy.add (a b : Dy) : Dy :=
  let e := min a.e b.e
  ⟨a.m * 2 ^ (a.e - e).toNat + b.m * 2 ^ (b.e - e).toNat, e⟩
def Dy.ofFV : FV → Dy
  | .fin neg m e => ⟨if neg then -(m : Int) else (m : Int), e⟩
  | _ => ⟨0, 0⟩
/-- The value of an exact sum; an exact zero takes the sign given. -/
def Dy.toFV (d : Dy) (zneg : Bool) : FV :=
  if d.m = 0 then .zero zneg else .fin (decide (d.m < 0)) d.m.natAbs d.e
def FV.neg? : FV → Bool
  | .nan => false
  | .inf n => n
  | .zero n => n
  | .fin n _ _ => n
def FV.isZero : FV → Bool
  | .zero _ => true
  | _ => false
def FV.isInf : FV → Bool
  | .inf _ => true
  | _ => false
/-- The exact product of two values. -/
def FV.mul (a b : FV) : FV :=
  let s := a.neg? != b.neg?
  match a, b with
  | .nan, _ => .nan
  | _, .nan => .nan
  | .inf _, .zero _ => .nan
  | .zero _, .inf _ => .nan
  | .inf _, _ => .inf s
  | _, .inf _ => .inf s
  | .zero _, _ => .zero s
  | _, .zero _ => .zero s
  | .fin _ m e, .fin _ m' e' => .fin s (m * m') (e + e')
/-- The exact sum; an exact zero of unlike signs is −0 only when rounding down (IEEE 754). -/
def FV.add (r : Rnd) (a b : FV) : FV :=
  match a, b with
  | .nan, _ => .nan
  | _, .nan => .nan
  | .inf s, .inf s' => if s = s' then .inf s else .nan
  | .inf s, _ => .inf s
  | _, .inf s => .inf s
  | .zero s, .zero s' => .zero (if s = s' then s else r == .rdn)
  | a, b => (Dy.add (Dy.ofFV a) (Dy.ofFV b)).toFV (r == .rdn)
def FV.neg : FV → FV
  | .nan => .nan
  | .inf n => .inf !n
  | .zero n => .zero !n
  | .fin n m e => .fin (!n) m e

/-! ### FP32 operations on encodings (R94, R96) -/

def fma32 (r : Rnd) (a b c : Nat) : Nat := toFP32 r (((ofFP32 a).mul (ofFP32 b)).add r (ofFP32 c))
def add32 (r : Rnd) (a b : Nat) : Nat := toFP32 r ((ofFP32 a).add r (ofFP32 b))
def sub32 (r : Rnd) (a b : Nat) : Nat := toFP32 r ((ofFP32 a).add r (ofFP32 b).neg)
def mul32 (r : Rnd) (a b : Nat) : Nat := toFP32 r ((ofFP32 a).mul (ofFP32 b))
/-- The order of FP32 encodings with −0 below +0. -/
def key32 (v : Nat) : Int := if v.testBit 31 then -((v % 2 ^ 31 : Nat) : Int) - 1 else ((v % 2 ^ 31 : Nat) : Int)
def isNan32 (v : Nat) : Bool := ofFP32 v == .nan
def max32 (a b : Nat) : Nat :=
  if isNan32 a || isNan32 b then nan32 else if key32 a < key32 b then b else a
def min32 (a b : Nat) : Nat :=
  if isNan32 a || isNan32 b then nan32 else if key32 b < key32 a then b else a
/-- The AMOs of R66 by fn: 0 FADD.32 (to nearest, whatever the mode), 1 FMIN.32, 2 FMAX.32, 3 OR.32, 4 OR.64. -/
def amoOp (fn old v : Nat) : Nat :=
  if fn = 0 then add32 .rne old (v % 2 ^ 32)
  else if fn = 1 then min32 old (v % 2 ^ 32)
  else if fn = 2 then max32 old (v % 2 ^ 32)
  else if fn = 3 then (old ||| v) % 2 ^ 32
  else (old ||| v) % 2 ^ 64
def amoBytes (fn : Nat) : Nat := if fn = 4 then 8 else 4

/-! ### The assists (R95): a fixed function inside its stated error, free within it -/

/-- The unit of the last place of an FP32 encoding. -/
def ulpExp (v : Nat) : Int := max (((v % 2 ^ 31 / 2 ^ 23 : Nat) : Int) - 150) (-149)
/-- `num × 2^sh` compared in absolute value with `k` units 2^u: |a × 2^s| ≤ k × 2^u. -/
def dyLe (a : Int) (s : Int) (k : Nat) (u : Int) : Bool :=
  let e := min s u
  decide (a.natAbs * 2 ^ (s - e).toNat ≤ k * 2 ^ (u - e).toNat)

/-- 1/x for x = ±m × 2^e, to nearest. -/
def rcpRne (neg : Bool) (m : Nat) (e : Int) : Nat :=
  let sh := bitLen m + 40
  let q := 2 ^ sh / m
  -- a sticky bit below the quotient
  toFP32 .rne (.fin neg (2 * q + (if 2 ^ sh % m = 0 then 0 else 1)) (-e - sh - 1))
/-- Whether a finite candidate lies within one ulp of 1/x: |c·x − 1| ≤ ulp·|x|. -/
def rcpOk (m : Nat) (e : Int) (near c : Nat) : Bool :=
  match ofFP32 c with
  | .fin _ cm ce =>
    let d := Dy.add ⟨(cm * m : Nat), ce + e⟩ ⟨-1, 0⟩
    dyLe d.m d.e m (ulpExp near + e)
  | _ => false
def vrcp (v : Nat) : Nat :=
  match ofFP32 v with
  | .nan => nan32
  | .inf n => signed 32 n 0
  | .zero n => signed 32 n 0x7F800000
  | .fin n m e =>
    let near := rcpRne n m e
    let c := (Config.vrcp (BitVec.ofNat 32 v)).toNat
    if rcpOk m e near c && (c.testBit 31 == n) then c else near

/-- 1/√x for x = m × 2^e, to nearest. -/
def rsqRne (m : Nat) (e : Int) : Nat :=
  let e2 := if e % 2 = 0 then e else e - 1
  let m2 := if e % 2 = 0 then m else 2 * m
  let sh := 2 * (bitLen m2 + 40)
  -- √(2^sh / m2), with a sticky bit
  let q := Nat.sqrt (2 ^ sh / m2)
  toFP32 .rne (.fin false (2 * q + (if q * q * m2 = 2 ^ sh then 0 else 1)) (-(e2 / 2) - (sh / 2 : Nat) - 1))
/-- Whether a candidate c lies within one ulp of 1/√x: (c − u)²·x ≤ 1 ≤ (c + u)²·x. -/
def rsqOk (m : Nat) (e : Int) (near c : Nat) : Bool :=
  match ofFP32 c with
  | .fin false cm ce =>
    let lo := Dy.add ⟨(cm : Int), ce⟩ ⟨-1, ulpExp near⟩
    let hi := Dy.add ⟨(cm : Int), ce⟩ ⟨1, ulpExp near⟩
    let sq (d : Dy) : Dy := Dy.add ⟨d.m * d.m * m, 2 * d.e + e⟩ ⟨-1, 0⟩
    decide ((sq lo).m ≤ 0 ∨ lo.m < 0) && decide (0 ≤ (sq hi).m)
  | _ => false
def vrsq (v : Nat) : Nat :=
  match ofFP32 v with
  | .nan => nan32
  | .inf false => 0
  | .inf true => nan32
  | .zero n => signed 32 n 0x7F800000
  | .fin true _ _ => nan32
  | .fin false m e =>
    let near := rsqRne m e
    let c := (Config.vrsq (BitVec.ofNat 32 v)).toNat
    if rsqOk m e near c then c else near

/-- Fixed-point bits of the exponential's approximation. -/
def expBits : Nat := 320
def taylor (x : Int) : Nat → Int → Int → Int → Int
  | 0, _, _, acc => acc
  | n + 1, k, t, acc => taylor x n (k + 1) (t * x / (k * 2 ^ expBits)) (acc + t)
def sqIter : Nat → Int → Int
  | 0, y => y
  | n + 1, y => sqIter n (y * y / 2 ^ expBits)
/-- e^x in units of 2^−320, for x = ±m × 2^e. -/
def expFix (neg : Bool) (m : Nat) (e : Int) : Int :=
  let x : Int := if neg then -(m : Int) else (m : Int)
  let s := e + (expBits : Int) - 8
  let xf := if 0 ≤ s then x * 2 ^ s.toNat else x / 2 ^ (-s).toNat
  sqIter 8 (taylor xf 64 1 (2 ^ expBits) 0)
def expRne (y : Int) : Nat := toFP32 .rne (.fin false (2 * y.natAbs + 1) (-(expBits : Int) - 1))
def expOk (y : Int) (near c : Nat) : Bool :=
  match ofFP32 c with
  | .fin false cm ce =>
    let d := Dy.add ⟨(cm : Int), ce⟩ ⟨-y, -(expBits : Int)⟩
    dyLe d.m d.e 2 (ulpExp near)
  | .zero false => dyLe y (-(expBits : Int)) 2 (ulpExp near)
  | _ => false
/-- The fixed function's value where it lies within 2 ulp of `y`, else the nearest number. -/
def expNear (y : Int) (v : Nat) : Nat :=
  let near := expRne y
  let c := (Config.vexp (BitVec.ofNat 32 v)).toNat
  if expOk y near c then c else near
def vexp (v : Nat) : Nat :=
  match ofFP32 v with
  | .nan => nan32
  | .inf n => if n then 0 else 0x7F800000
  | .zero _ => expNear (2 ^ expBits) v
  | .fin n m e =>
    if !n && 0x42B17218 ≤ v then 0x7F800000
    else if n && 0xC2D00000 ≤ v then 0
    else expNear (expFix n m e) v

/-! ### The fixed tree of 32 lanes (R71) -/

/-- Sums of neighbouring pairs. -/
def pairs (f : Nat → Nat → Nat) : List Nat → List Nat
  | a :: b :: l => f a b :: pairs f l
  | l => l
/-- A fixed pairwise tree over 32 values, folded with `f`. -/
def tree32 (f : Nat → Nat → Nat) (l : List Nat) : Nat :=
  (pairs f (pairs f (pairs f (pairs f (pairs f l))))).headD 0

end Sys2Proof.Machine
end

