-- ==== Sys2Proof/Machine/Flags.lean ====
section
/-! DEFINITION. Predicates and guards: the device's only flags of a thread (R46, R60, R61), and the conditions that
set them (Table 3.6). -/

namespace Sys2Proof.Machine

/-- Predicate `p`; P0 reads as 1 (Table 3.1). -/
def Thread.getP (t : Thread) (p : BitVec 3) : Bool :=
  if p = 0 then true else t.p[p.toNat]
/-- Writes predicate `p`; a write of P0 is discarded. -/
def Thread.setP (t : Thread) (p : BitVec 3) (b : Bool) : Thread :=
  if p = 0 then t else { t with p := t.p.set p.toNat b }
/-- The predicate that g[3:1] names, inverted when g[0] is 1 (R61). -/
def Thread.guard (t : Thread) (g : BitVec 4) : Bool :=
  (t.getP (g.extractLsb' 1 3)) != g.getLsbD 0

/-- The conditions of CMP (Table 3.6, opcode 0x0A). -/
inductive Cond where
  | eq | ne | lt | ltu | ge | geu
  deriving DecidableEq, Repr

def Cond.holds (c : Cond) (a b : Word) : Bool :=
  match c with
  | .eq => a == b
  | .ne => a != b
  | .lt => a.slt b
  | .ltu => a.ult b
  | .ge => !a.slt b
  | .geu => !a.ult b

end Sys2Proof.Machine
end

