-- ==== Sys2Proof/Machine/Operands.lean ====
section
/-! DEFINITION. Operand forms of the core's instructions: scalar registers, immediates, addresses (R46, R60, R64), and
which 32-bit words are legal instructions (R60-R62, Tables 3.5, 3.6, 3.8). -/

namespace Sys2Proof.Machine

/-- Scalar register `r`; X0 reads as zero (Table 3.1). -/
def Thread.getX (t : Thread) (r : BitVec 5) : Word :=
  if r = 0 then 0 else t.x[r.toNat]
/-- Writes scalar register `r`; a write of X0 is discarded. -/
def Thread.setX (t : Thread) (r : BitVec 5) (v : Word) : Thread :=
  if r = 0 then t else { t with x := t.x.set r.toNat v }
/-- The same for a register number held as a number. -/
def Thread.setXn (t : Thread) (r : Nat) (v : Nat) : Thread :=
  t.setX (BitVec.ofNat 5 r) (BitVec.ofNat 64 v)

/-- imm12, sign-extended or zero-extended (Table 3.6). -/
def immS (i : BitVec 12) : Word := i.signExtend 64
def immZ (i : BitVec 12) : Word := i.zeroExtend 64
/-- The displacement of BR and CALL: 4 × disp22, disp22 in two's complement (log entry 10). -/
def dispBytes (d : BitVec 22) : Word := d.signExtend 64 <<< 2
/-- The bytes of an access of size code sz (Table 3.6, LD). -/
def szBytes (sz : BitVec 2) : Nat := 2 ^ sz.toNat
/-- The address of LD and ST: rb + imm9 × size, imm9 in two's complement. -/
def memAddr (b : Word) (imm : BitVec 9) (sz : BitVec 2) : Word := b + (imm.signExtend 64 <<< sz.toNat)
/-- The value of a load: zero-extended, or sign-extended when sx is 1. -/
def loadExt (size v : Nat) (sx : Bool) : Word :=
  if sx then BitVec.ofInt 64 (sextInt (8 * size) v) else BitVec.ofNat 64 (v % 2 ^ (8 * size))

/-! ### Instruction words (R60-R62) -/

def wOp (w : BitVec 32) : Nat := (w.extractLsb' 26 6).toNat
def wGuard (w : BitVec 32) : BitVec 4 := w.extractLsb' 0 4
/-- Bits [lo + n - 1 : lo] of the word are zero. -/
def wZero (w : BitVec 32) (lo n : Nat) : Bool := bits w.toNat lo n == 0

/-- The opcode is one of Tables 3.6 and 3.8. -/
def opDefined (op : Nat) : Bool :=
  (1 ≤ op && op ≤ 0x12) || (0x20 ≤ op && op ≤ 0x22) || (0x28 ≤ op && op ≤ 0x2E) ||
  op == 0x30 || op == 0x31 || (0x34 ≤ op && op ≤ 0x36) || op == 0x38 || op == 0x39

/-- A word of a defined opcode has a defined fn, cond, sz or sel and no reserved bit set (R62). -/
def wordLegal (w : BitVec 32) : Bool :=
  let op := wOp w
  if op = 0x01 then bits w.toNat 4 7 ≤ 15
  else if op = 0x06 ∨ op = 0x07 ∨ op = 0x08 then wZero w 10 6
  else if op = 0x09 then wZero w 0 2
  else if op = 0x0A then bits w.toNat 9 4 ≤ 5 && wZero w 4 5
  else if op = 0x0B then wZero w 4 11
  else if op = 0x0E then wZero w 4 7
  else if op = 0x0F then
    let sel := bits w.toNat 8 8
    let fn := bits w.toNat 4 4
    if fn = 0 then sel ≤ 4 else fn ≤ 3 && sel == 0
  else if op = 0x11 then wZero w 13 1
  else if op = 0x12 then bits w.toNat 4 7 ≤ 4
  else if op = 0x20 ∨ op = 0x21 then wZero w 11 5 && wZero w 5 4
  else if op = 0x22 then wZero w 11 5 && wZero w 4 5
  else if op = 0x28 ∨ op = 0x2E then wZero w 4 2
  else if op = 0x29 ∨ op = 0x2A ∨ op = 0x2B ∨ op = 0x2D then wZero w 4 12
  else if op = 0x2C then wZero w 4 7
  else if op = 0x30 then wZero w 4 7
  else if op = 0x31 then wZero w 4 12
  else if op = 0x34 then wZero w 21 5 && wZero w 4 7
  else if op = 0x35 then wZero w 4 7
  else if op = 0x36 ∨ op = 0x38 then wZero w 4 12
  else if op = 0x39 then wZero w 21 5 && wZero w 4 7
  else true

/-- What the core does with a word it cannot execute (R62): a U-format word has no guard, SEL's guard counts as true,
a word with no defined opcode has no guard. -/
inductive WordKind where
  | legal
  | illegal (guard : Option (BitVec 4))
  deriving DecidableEq, Repr

def classify (w : BitVec 32) : WordKind :=
  if w = 0 ∨ !opDefined (wOp w) then .illegal none
  else if wordLegal w then .legal
  else if wOp w = 0x09 then .illegal none
  else .illegal (some (wGuard w))

/-- The instruction of thread `t` that a word spells: the fields of Table 3.5 at their places, the operation by opcode and
fn, cond or sel (Tables 3.6 and 3.8); none: the word is illegal (R62). -/
def decodeWord (t : Tid) (w : BitVec 32) : Option Instr :=
  let f (lo n : Nat) : Nat := bits w.toNat lo n
  let g := wGuard w
  let r1 : BitVec 5 := w.extractLsb' 21 5
  let r2 : BitVec 5 := w.extractLsb' 16 5
  let r3 : BitVec 5 := w.extractLsb' 11 5
  let r4 : BitVec 5 := w.extractLsb' 6 5
  let imm : BitVec 12 := w.extractLsb' 4 12
  let sh : BitVec 6 := w.extractLsb' 4 6
  let p1 : BitVec 3 := w.extractLsb' 23 3
  let c1 : BitVec 5 := w.extractLsb' 18 5
  let c2 : BitVec 5 := w.extractLsb' 13 5
  let q1 : BitVec 3 := w.extractLsb' 20 3
  let q2 : BitVec 3 := w.extractLsb' 17 3
  let arr : Fin 4 := Fin.ofNat 4 (f 9 2)
  if classify w ≠ .legal then none
  else match wOp w with
  | 0x01 =>
    match f 4 7 with
    | 0 => some (.add t g r1 r2 r3)
    | 1 => some (.sub t g r1 r2 r3)
    | 2 => some (.and t g r1 r2 r3)
    | 3 => some (.or t g r1 r2 r3)
    | 4 => some (.xor t g r1 r2 r3)
    | 5 => some (.shl t g r1 r2 r3)
    | 6 => some (.shr t g r1 r2 r3)
    | 7 => some (.sra t g r1 r2 r3)
    | 8 => some (.mul t g r1 r2 r3)
    | 9 => some (.mulhs t g r1 r2 r3)
    | 10 => some (.mulhu t g r1 r2 r3)
    | 11 => some (.min t g r1 r2 r3)
    | 12 => some (.max t g r1 r2 r3)
    | 13 => some (.minu t g r1 r2 r3)
    | 14 => some (.maxu t g r1 r2 r3)
    | _ => some (.sel t g r1 r2 r3)
  | 0x02 => some (.addi t g r1 r2 imm)
  | 0x03 => some (.andi t g r1 r2 imm)
  | 0x04 => some (.ori t g r1 r2 imm)
  | 0x05 => some (.xori t g r1 r2 imm)
  | 0x06 => some (.shli t g r1 r2 sh)
  | 0x07 => some (.shri t g r1 r2 sh)
  | 0x08 => some (.srai t g r1 r2 sh)
  | 0x09 => some (.movw t r1 (w.extractLsb' 19 2) (w.getLsbD 18) (w.extractLsb' 2 16))
  | 0x0A =>
    match f 9 4 with
    | 0 => some (.cmpEq t g p1 c1 c2)
    | 1 => some (.cmpNe t g p1 c1 c2)
    | 2 => some (.cmpLt t g p1 c1 c2)
    | 3 => some (.cmpLtu t g p1 c1 c2)
    | 4 => some (.cmpGe t g p1 c1 c2)
    | _ => some (.cmpGeu t g p1 c1 c2)
  | 0x0B =>
    match f 15 2 with
    | 0 => some (.plogAnd t g p1 q1 q2)
    | 1 => some (.plogOr t g p1 q1 q2)
    | 2 => some (.plogXor t g p1 q1 q2)
    | _ => some (.plogAndn t g p1 q1 q2)
  | 0x0C => some (.br t g (w.extractLsb' 4 22))
  | 0x0D => some (.call t g (w.extractLsb' 4 22))
  | 0x0E => some (.jr t g r1 r2)
  | 0x0F =>
    match f 4 4 with
    | 0 => some (.rdsys t g r1 (Fin.ofNat 5 (f 8 8)))
    | 1 => some (.yield t g)
    | 2 => some (.taskEnd t g)
    | _ => some (.nop t g)
  | 0x10 => some (.ld t g r1 r2 (w.extractLsb' 14 2) (w.getLsbD 13) (w.extractLsb' 4 9))
  | 0x11 => some (.st t g r1 r2 (w.extractLsb' 14 2) (w.extractLsb' 4 9))
  | 0x12 =>
    match f 4 7 with
    | 0 => some (.amoFadd32 t g r1 r2 r3)
    | 1 => some (.amoFmin32 t g r1 r2 r3)
    | 2 => some (.amoFmax32 t g r1 r2 r3)
    | 3 => some (.amoOr32 t g r1 r2 r3)
    | _ => some (.amoOr64 t g r1 r2 r3)
  | 0x20 => some (.tmma t g r1 r2 arr (w.getLsbD 4))
  | 0x21 => some (.tsmma t g r1 r2 arr (w.getLsbD 4))
  | 0x22 => some (.tdrain t g r1 r2 arr)
  | 0x28 => some (.vfma t g r1 r2 r3 r4)
  | 0x29 => some (.vexp t g r1 r2)
  | 0x2A => some (.vrcp t g r1 r2)
  | 0x2B => some (.vrsq t g r1 r2)
  | 0x2C => some (.vmax t g r1 r2 r3)
  | 0x2D => some (.vsum t g r1 r2)
  | 0x2E => some (.vsoft t g r1 r2 r3 r4)
  | 0x30 => some (.strmGo t g r1 r2 r3)
  | 0x31 => some (.strmWait t g r1 r2)
  | 0x34 => some (.syncSig t g r2 r3)
  | 0x35 => some (.syncWait t g r1 r2 r3)
  | 0x36 => some (.syncBar t g r1 r2)
  | 0x38 => some (.taskSpawn t g r1 r2)
  | 0x39 => some (.taskFlag t g r2 r3)
  | _ => none

end Sys2Proof.Machine
end

