-- ==== Sys2Proof/Machine/Abort.lean ====
section
/-! DEFINITION. How work ends before its time: a thread stopped (R51), a job's work cancelled (R169, R152, R237, R366), a
core fault (R75), a stream fault (R151, R152). -/

namespace Sys2Proof.Machine

/-! ### More named parts -/

def arrKey (core a : Nat) : Nat := core * 4 + a
def State.arr (s : State) (k : Nat) : Arr := Sparse.get Arr.init s.arrs k
def State.setArr (s : State) (k : Nat) (x : Arr) : State := { s with arrs := Sparse.put Arr.init s.arrs k x }
def State.vec (s : State) (core : Nat) : List VecOp := Sparse.get [] s.vecs core
def State.setVec (s : State) (core : Nat) (x : List VecOp) : State := { s with vecs := Sparse.put [] s.vecs core x }
/-- Stream context `x` of cluster `c`, 0-63 over the device. -/
def ctxKey (c x : Nat) : Nat := c * 64 + x
def State.ctx (s : State) (k : Nat) : Ctx := Sparse.get Ctx.init s.ctxs k
def State.setCtx (s : State) (k : Nat) (x : Ctx) : State := { s with ctxs := Sparse.put Ctx.init s.ctxs k x }
def State.obj (s : State) (k : Nat) : Obj := Sparse.get Obj.init s.objs k
def State.setObj (s : State) (k : Nat) (x : Obj) : State := { s with objs := Sparse.put Obj.init s.objs k x }
def State.wd (s : State) (q : Nat) : Wd := Sparse.get Wd.init s.wds q
def State.setWd (s : State) (q : Nat) (x : Wd) : State := { s with wds := Sparse.put Wd.init s.wds q x }

/-! ### Cores: waking and gating (R53) -/

/-- The core is busy in this cycle; a gated core wakes, to issue 4 cycles later. -/
def State.touch (s : State) (core : Nat) : State :=
  let c := s.core core
  s.setCore core { c with gated := false, busyAt := s.clk.arith, wakeAt := if c.gated then s.clk.arith + 4 else c.wakeAt }
/-- Thread `k` becomes READY. -/
def State.wakeThread (s : State) (k : Nat) : State :=
  (s.setThread k { s.thread k with st := .ready, parkedAt := s.clk.arith }).touch (k / 64)
/-- Every thread of a core parked for reason `p` becomes READY and issues its instruction again. -/
def State.wakeParked (s : State) (core : Nat) (p : Park) : State :=
  (List.range 64).foldl (fun s i =>
    let k := core * 64 + i
    if (s.thread k).st = .parked p then s.wakeThread k else s) s

/-! ### Arrays and vector queues of a thread that ends (R51, R70) -/

/-- One more accumulation discarded on `core`. -/
def State.countDiscard (s : State) (core n : Nat) : State :=
  if n = 0 then s else s.bump (blkCLUS (coreCl core)) F.CLUS.ARRAY_DISCARD.COUNT (8 * (core % 64)) n

/-- The accumulations of thread `k` that an array holds or has queued and that have not moved to a shadow set. -/
def Arr.ownedBy (x : Arr) (k : Nat) : Nat :=
  b2n (x.live == some k) + (x.queue.filter (fun o => o.thread == k && o.start)).length

/-- The array without thread `k`: its entries and accumulations gone, its binding undone. -/
def Arr.without (x : Arr) (k : Nat) : Arr :=
  let x := { x with queue := x.queue.filter (fun o => o.thread != k), bound := if x.bound = some k then none else x.bound }
  if x.live = some k then { x with live := none, cells := [], segCount := 0, segs := 0, hasInt := false, hasFlt := false } else x

/-- Thread `k` loses its array entries and accumulations, on its own core and on thieves of its octet (R123); each
accumulation is counted on the thread's own core. -/
def State.dropArrays (s : State) (k : Nat) : State :=
  let core := k / 64
  let oct := core / 8 * 8
  (List.range 32).foldl (fun s i =>
    let ak := arrKey (oct + i / 4) (i % 4)
    let x := s.arr ak
    let n := x.ownedBy k
    let y := x.without k
    if y = x then s else
      let y := { y with busyAt := s.clk.arith }
      let s := (s.setArr ak y).countDiscard core n
      let s := if y.queue.length < x.queue.length then s.wakeParked (oct + i / 4) (.arrayFull (i % 4)) else s
      if y.bound = x.bound then s else s.wakeParked (oct + i / 4) (.arrayBound (i % 4))) s

def State.dropVec (s : State) (k : Nat) : State :=
  let v := s.vec (k / 64)
  let v' := v.filter (fun o => o.thread != k)
  if v' = v then s else (s.setVec (k / 64) v').wakeParked (k / 64) .vecFull

/-! ### Sync waits withdrawn (R185) -/

def SyncOp.isSig : SyncOp → Bool
  | .sig _ _ => true
  | _ => false
def Obj.withdraw (o : Obj) (w : SyncWho) : Obj :=
  let head := o.waiters.head?.map (·.who) == some w
  { o with waiters := o.waiters.filter (fun x => x.who != w), held := o.held.filter (fun x => x.who != w),
           grant := o.grant || (head && o.type == 1) }
/-- Every wait of `w`, parked, on its way or being answered, withdrawn. An arrival already counted stays counted. -/
def State.dropWaits (s : State) (w : SyncWho) : State :=
  { s with
    objs := s.objs.map (fun e => (e.1, e.2.withdraw w))
    syncMsgs := s.syncMsgs.filter (fun m => m.op.isSig || m.who != w)
    wakes := s.wakes.filter (fun m => m.sig || m.who != w) }

/-! ### A thread stopped (R51) -/

/-- The core stops thread `k`: its waits are withdrawn, its queued work and accumulations discarded. It is FREE once
its requests have been answered. -/
def State.stopThread (s : State) (k : Nat) : State :=
  let t := s.thread k
  if t.st = .free ∨ t.st = .stopped then s else
    let s := ((s.dropArrays k).dropVec k).dropWaits (.thread k)
    let s := { s with spawns := s.spawns.filter (fun x => x.thread != k) }
    let s := s.bump (blkTSCHED (coreQ (k / 64))) F.TSCHED.TASKS_ABORTED.COUNT
    s.setThread k { s.thread k with st := .stopped, aborted := true }

/-! ### Stream contexts cancelled (R152) -/

/-- A context whose owner is aborted: CANCELLING, no further request, segments and credit waits gone. -/
def Ctx.cancel (c : Ctx) (code : Nat) (err : Option Nat) : Ctx :=
  if c.st = .free ∨ c.st = .cancelling then c
  else { c with st := .cancelling, next := none, store := [], pin := [], out := [], outs := [], mcHeld := 0, creditWait := false,
                fault := code, errRef := err, ownerEnded := true }
/-- Context `k` moves to CANCELLING: its waits are withdrawn, the hops not yet started dropped. -/
def State.cancelCtx (s : State) (k code : Nat) (err : Option Nat) : State :=
  let c := s.ctx k
  if c.st = .free ∨ c.st = .cancelling then s else
    let s := s.setCtx k (c.cancel code err)
    let s := s.dropWaits (.ctx k)
    let gone := s.hops.filter (fun h => h.ctx == k && h.st != .moving)
    let s := gone.foldl (fun s h => s.dropWaits (.hop k h.seg h.mem)) s
    { s with hops := s.hops.filter (fun h => h.ctx != k || h.st == .moving) }
/-- Every context that task `k` owns is cancelled. -/
def State.cancelCtxsOf (s : State) (k : Nat) (err : Option Nat) : State :=
  (s.ctxs.filter (fun e => e.2.owner == k && !e.2.ownerEnded && e.2.st != .free)).foldl
    (fun s e => s.cancelCtx e.1 0x47 err) s

/-! ### Jobs ended (R169, R382) -/

/-- Frees a task-table entry and advances its generation (R155). -/
def Entry.freed (e : Entry) : Entry :=
  { Entry.init with gen := if e.gen = 0xFFFF then 1 else e.gen + 1 }
def State.freeEntry (s : State) (k : Nat) : State := s.setEntry k (s.entry k).freed
/-- A record leaves the RUN or NEXT slots; a record left in NEXT moves into RUN (log entry 12). -/
def Core.dropSlot (c : Core) (e : Nat) : Core :=
  let run := if c.run = some e then none else c.run
  let next := if c.next = some e then none else c.next
  match run with
  | none => { c with run := next, next := none }
  | some _ => { c with run := run, next := next }
def State.dropSlots (s : State) (e : Nat) : State :=
  { s with cores := s.cores.map (fun c => (c.1, c.2.dropSlot e)) }
/-- The scheduler removes a job's task that has not started, and counts it (R169). -/
def State.cancelEntry (s : State) (k : Nat) : State :=
  ((s.freeEntry k).dropSlots k).bump (blkTSCHED (k / 16384)) F.TSCHED.TASKS_CANCELLED.COUNT

/-! ### Engine commands (R236, R237, R270, R271, R341, R364, R366) -/

def EUnit.blk : EUnit → Nat
  | .grind g => blkGRIND g
  | .perc h => blkPERC h
  | .coll h => blkCOLL h
  | .flash h => blkFM h
/-- The unit's fault registers take a fault; so does CLUS.FAULT_LAST of the submitter's cluster. -/
def State.recordFault (s : State) (u : EUnit) (k code addr : Nat) : State :=
  let put (s : State) (b : Nat) (co th cd at_ : Fld) : State :=
    (((s.fset b co (k / 64)).fset b th (k % 64)).fset b cd code).fset b at_ s.now
  let s := match u with
    | .grind g => ((put s (blkGRIND g) F.GRIND.FAULT_LAST.CORE F.GRIND.FAULT_LAST.THREAD F.GRIND.FAULT_LAST.CODE
        F.GRIND.FAULT_LAST.COUNT_AT).fset (blkGRIND g) F.GRIND.FAULT_CMD.ADDR addr).bump (blkGRIND g) F.GRIND.FAULT_COUNT.COUNT
    | .perc h => ((put s (blkPERC h) F.PERC.FAULT_LAST.CORE F.PERC.FAULT_LAST.THREAD F.PERC.FAULT_LAST.CODE
        F.PERC.FAULT_LAST.COUNT_AT).fset (blkPERC h) F.PERC.FAULT_CMD.ADDR addr).bump (blkPERC h) F.PERC.FAULT_COUNT.COUNT
    | .coll h => ((put s (blkCOLL h) F.COLL.FAULT_LAST.CORE F.COLL.FAULT_LAST.THREAD F.COLL.FAULT_LAST.CODE
        F.COLL.FAULT_LAST.COUNT_AT).fset (blkCOLL h) F.COLL.FAULT_CMD.ADDR addr).bump (blkCOLL h) F.COLL.FAULT_COUNT.COUNT
    | .flash h => ((put s (blkFM h) F.FM.FAULT_LAST.CORE F.FM.FAULT_LAST.THREAD F.FM.FAULT_LAST.CODE
        F.FM.FAULT_LAST.COUNT_AT).fset (blkFM h) F.FM.FAULT_CMD.ADDR addr).bump (blkFM h) F.FM.FAULT_COUNT.COUNT
  put s (blkCLUS (k / 4096)) F.CLUS.FAULT_LAST.CORE F.CLUS.FAULT_LAST.THREAD F.CLUS.FAULT_LAST.CODE F.CLUS.FAULT_LAST.COUNT_AT
def State.cmd? (s : State) (id : Nat) : Option Cmd := s.cmds.find? (fun c => c.id == id)
def State.updCmd (s : State) (id : Nat) (f : Cmd → Cmd) : State :=
  { s with cmds := s.cmds.map (fun c => if c.id = id then f c else c) }
def State.dropCmd (s : State) (id : Nat) : State := { s with cmds := s.cmds.filter (fun c => c.id != id) }
def Cmd.word (c : Cmd) (i : Nat) : Nat := c.words.getD i 0
/-- The table slot a Grinder command names. -/
def Cmd.slotNo (c : Cmd) : Nat := bits (c.word 0) 5 5
/-- A command's work in its unit goes: bags, rows still to update, deferred updates, replacements not yet swapped; a
migration, and a replacement that has swapped, runs on (R227, Table 9.10). -/
def State.dropWork (s : State) (id : Nat) : State :=
  { s with bags := s.bags.filter (fun b => b.cmd != id), upds := s.upds.filter (fun u => u.cmd != id),
           defers := s.defers.filter (fun d => d.cmd != id),
           moves := s.moves.filter (fun m => m.cmd != id || !m.replace || m.swapped.isSome) }
/-- Command `c` ends with `code`: recorded, reported, no more of its work begun; its completion comes later. -/
def State.endCmd (s : State) (c : Cmd) (code addr : Nat) : State :=
  let s := s.recordFault c.unit c.thread code c.addr
  let id := s.err.nextId
  let slot := match c.unit with
    | .grind _ => c.slotNo
    | _ => 0
  let s := s.report 2 code c.unit.blk (whoThread c.thread + slot * 0x40000) (jobWord c.job) addr c.addr 0
  let s := (s.updCmd c.id (fun c => { c with status := code, errRef := some id, phase := .ending })).dropWork c.id
  s.dropWaits (.cmd c.id)
/-- A command whose job ends (Table 9.10): not begun, it goes; in progress, it ends with CANCELLED. -/
def State.cancelCmd (s : State) (c : Cmd) : State :=
  match c.phase with
  | .queued => s.dropCmd c.id
  | .active => s.endCmd c 0x47 0
  | _ => s
/-- A job's stores to SUBMIT that wait for room are let go. -/
def State.dropHeldSubs (s : State) (j : JobId) : State :=
  let mine := s.fabric.reqs.filter (fun r => r.job == j && s.heldSubs.any (fun h => h.2 == r.id))
  { s with heldSubs := s.heldSubs.filter (fun h => !mine.any (fun r => r.id == h.2))
           fabric := { s.fabric with reqs := s.fabric.reqs.filter (fun r => !mine.any (fun m => m.id == r.id)) } }

/-- All of a job's tasks, entries, chains and commands end. -/
def State.cancelWork (s : State) (j : JobId) (err : Option Nat) : State :=
  let s := (s.tasks.filter (fun e => e.2.used && e.2.job == j)).foldl (fun s e => s.cancelEntry e.1) s
  let s := (s.threads.filter (fun e => e.2.st != .free && e.2.job == j)).foldl (fun s e => s.stopThread e.1) s
  let s := (s.ctxs.filter (fun e => e.2.st != .free && e.2.job == j)).foldl (fun s e => s.cancelCtx e.1 0x47 err) s
  let s := s.dropHeldSubs j
  (s.cmds.filter (fun c => c.job == j)).foldl (fun s c => s.cancelCmd c) s

/-- The quarters of a job. -/
def State.qmaskOf (s : State) (j : JobId) : Nat :=
  match s.job? j with
  | some x => x.qmask
  | none => 0
/-- Something of a job is still in the device (R37, R169). -/
def State.workLeft (s : State) (j : JobId) : Bool :=
  s.tasks.any (fun e => e.2.used && e.2.job == j) || s.threads.any (fun e => e.2.st != .free && e.2.job == j) ||
    s.ctxs.any (fun e => e.2.st != .free && e.2.job == j) || s.cmds.any (fun c => c.job == j) ||
    s.arrs.any (fun e => e.2.shadow.any (fun x => x.op.job == j))

/-- A job with the status of its end, which reaches the intake in CTRL cycle `c`; work that runs ends before the job does. -/
def Job.end_ (x : Job) (now c status : Nat) (err : Option Nat) : Job :=
  if x.phase = .running then { x with status := status, errRef := err, endAt := c + 1 }
  else { x with status := status, errRef := err, endAt := c + 1, phase := .ended, gtcEnd := now }
/-- The first end of a job gives it its status (R382); its work is cancelled. -/
def State.endJob (s : State) (j : JobId) (status : Nat) (err : Option Nat) : State :=
  match s.job? j with
  | none => s.cancelWork j err
  | some x =>
    if x.status ≠ 0 ∨ x.phase = .ended then s
    else
      (s.updJob j (·.end_ s.now s.ctrl status err)).cancelWork j err
/-- A FATAL or DEGRADED end: it takes precedence over an end that reached the intake in the same CTRL cycle (R382). -/
def State.endJobSevere (s : State) (j : JobId) (err : Option Nat) : State :=
  match s.job? j with
  | none => s.endJob j 0x30 err
  | some x =>
    if x.endAt = s.ctrl + 1 ∧ x.status ≠ 0x30 then s.updJob j (fun y => { y with status := 0x30, errRef := err })
    else s.endJob j 0x30 err

/-- The address of the instruction that a fault of a thread belongs to: a parked thread has moved past it. -/
def Thread.faultPc (t : Thread) : Nat :=
  match t.st with
  | .parked (.arrayFull _) => t.pc.toNat
  | .parked (.arrayBound _) => t.pc.toNat
  | .parked .vecFull => t.pc.toNat
  | .parked .fetch => t.pc.toNat
  | .parked _ => (t.pc - 4).toNat
  | _ => t.pc.toNat
/-- A fault of thread `k` with a code of any unit (R75, R151): recorded in its cluster, reported, the task aborted, its
contexts cancelled, its job ended with `status`. -/
def State.taskFaultAs (s : State) (status k code block addr pc info fpc : Nat) : State :=
  let t := s.thread k
  let b := blkCLUS (coreCl (k / 64))
  let s := ((s.fset b F.CLUS.FAULT_LAST.CORE (k / 64)).fset b F.CLUS.FAULT_LAST.THREAD (k % 64)).fset b
    F.CLUS.FAULT_LAST.CODE code
  let s := ((s.fset b F.CLUS.FAULT_LAST.COUNT_AT s.now).fset b F.CLUS.FAULT_PC.PC fpc).bump b F.CLUS.FAULT_COUNT.COUNT
  let id := s.err.nextId
  let s := s.report 2 code block (whoThread k) (jobWord t.job) addr pc info
  let s := s.cancelCtxsOf k (some id)
  (s.stopThread k).endJob t.job status (some id)
def State.taskFault (s : State) (k code block addr pc info : Nat) : State :=
  s.taskFaultAs 0x20 k code block addr pc info (s.thread k).faultPc

/-- A core fault of Table 3.12, of the instruction at `pc`. -/
def State.coreFaultAt (s : State) (k code pc : Nat) (addr : Nat := 0) : State :=
  s.taskFaultAs 0x20 k code (blkCLUS (coreCl (k / 64))) addr pc 0 pc
def State.coreFault (s : State) (k code : Nat) (addr : Nat := 0) : State :=
  s.coreFaultAt k code (s.thread k).faultPc addr
/-- Work that task code aims at a withdrawn quarter (R380): ADDRESS_FAULT, and the job ends with DEVICE_FAULT. -/
def State.withdrawnFault (s : State) (k pc addr : Nat) : State :=
  s.taskFaultAs 0x30 k 0x04 (blkCLUS (coreCl (k / 64))) addr pc 0 pc

end Sys2Proof.Machine
end

