-- ==== Sys2Proof/Machine/Footprint.lean ====
section
/-! DEFINITION. The scratch bytes that tile and vector instructions read and write (R68, R69, R71, R72, R108), and the
order they impose on later operations of their thread (R73). -/

namespace Sys2Proof.Machine

/-- `n` bytes at scratch offset `off`. -/
structure Span where
  off : Nat
  n   : Nat
  deriving DecidableEq, Repr

def Span.meets (a b : Span) : Bool :=
  decide (a.off < b.off + b.n) && decide (b.off < a.off + a.n)

/-! ### Tile operand descriptors (Table 3.9) -/

def tdOffset (d : Nat) : Nat := bits d 0 18
def tdStride (d : Nat) : Nat := bits d 18 14
def tdK (d : Nat) : Nat := if bits d 32 8 = 0 then 8192 else 32 * bits d 32 8
def tdFmt (d : Nat) : Nat := bits d 40 4
/-- Bytes of `k` elements of an operand format (Table 4.1). -/
def elemBytes (fmt k : Nat) : Nat :=
  if fmt = 0 then 4 * k else if fmt = 1 ∨ fmt = 2 then 2 * k else if fmt = 8 then k / 2 else k
def isMX (fmt : Nat) : Bool := 6 ≤ fmt && fmt ≤ 8
/-- The eight lines of an operand and the shared scales after them (R68). -/
def tdSpans (d : Nat) : List Span :=
  (List.range 8).map (fun i => ⟨tdOffset d + i * tdStride d * 16, elemBytes (tdFmt d) (tdK d)⟩) ++
  (if isMX (tdFmt d) then [⟨tdOffset d + 128 * tdStride d, 8 * (tdK d / 32)⟩] else [])
/-- Bytes of one output row (R91). -/
def outRowBytes (fmt : Nat) : Nat := if fmt = 0 ∨ fmt = 8 then 32 else 16
def odSpans (d : Nat) : List Span :=
  (List.range 8).map (fun i => ⟨tdOffset d + i * tdStride d * 16, outRowBytes (tdFmt d)⟩)

/-- The parts of the tile that a TSMMA may read, from the header as it stands (R108). -/
def sdSpans (s : State) (core d b : Nat) : List Span :=
  let hdr := bits d 0 18
  let val := bits d 18 18
  let h (i n : Nat) := s.mem.readNat (scratchAddr core (hdr + i)) n
  if bit d 48 then
    ⟨hdr, 64 + h 8 4⟩ :: (List.range 8).map (fun i => ⟨val + i * tdStride b * 16, elemBytes (tdFmt b) (tdK b)⟩)
  else [⟨hdr, 64 + h 8 4⟩, ⟨val, h 12 4⟩]

def TileOp.readSpans (s : State) (o : TileOp) : List Span :=
  match o.kind with
  | .mma => tdSpans o.a ++ tdSpans o.b
  | .smma => sdSpans s o.core o.a o.b ++ tdSpans o.b
  | .drain => []
def TileOp.writeSpans (o : TileOp) : List Span :=
  match o.kind with
  | .drain => odSpans o.a
  | _ => []

/-! ### Vector operands (R71) -/

def vOff (v : Nat) : Nat := bits v 0 18
def vBcast (v : Nat) : Bool := bit v 32
def vCount (v : Nat) : Nat := bits v 24 8 + 1
def vSrcSpan (v n : Nat) : Span := if vBcast v then ⟨vOff v, 4⟩ else ⟨vOff v, 128 * n⟩

def VecOp.readSpans (o : VecOp) : List Span :=
  let n := vCount o.d
  match o.kind with
  | .fma => [vSrcSpan o.a n, vSrcSpan o.b n, vSrcSpan o.c n]
  | .max => [vSrcSpan o.a n, vSrcSpan o.b n]
  | .soft => [vSrcSpan o.a n, ⟨vOff o.c, 16⟩] ++ (if o.one then [] else [⟨vOff o.b, 4⟩])
  | _ => [vSrcSpan o.a n]
def VecOp.writeSpans (o : VecOp) : List Span :=
  let n := vCount o.d
  match o.kind with
  | .sum => [⟨vOff o.d, 4 * n⟩]
  | .soft => [⟨vOff o.d, 128 * n⟩, ⟨vOff o.c, 16⟩]
  | _ => [⟨vOff o.d, 128 * n⟩]

/-! ### Pending work of a thread -/

/-- What an operation in a queue still has to read and write, with its thread, its core and its place in issue order. -/
structure Pend where
  core   : Nat
  thread : Nat
  seq    : Nat
  rd     : List Span
  wr     : List Span
  deriving DecidableEq, Repr

def State.pendTile (s : State) (o : TileOp) : Pend := ⟨o.core, o.thread, o.seq, o.readSpans s, o.writeSpans⟩
def VecOp.pend (o : VecOp) : Pend := ⟨o.thread / 64, o.thread, o.seq, o.readSpans, o.writeSpans⟩
/-- Everything queued or draining that uses the scratch of `core`, in its octet's arrays and its vector queue. -/
def State.pends (s : State) (core : Nat) : List Pend :=
  let oct := core / 8 * 8
  let tiles := (List.range 32).flatMap (fun i =>
    let x := s.arr (arrKey (oct + i / 4) (i % 4))
    x.queue ++ (match x.shadow with
      | some sh => [sh.op]
      | none => []))
  ((tiles.filter (fun o => o.core == core)).map s.pendTile) ++ (s.vec core).map VecOp.pend

def anyMeet (a b : List Span) : Bool := a.any (fun x => b.any x.meets)
/-- A later access to `sp` must wait for `p`: it reads or writes bytes that `p` writes, or writes bytes that `p`
reads. -/
def Pend.holds (p : Pend) (sp : List Span) (write : Bool) : Bool :=
  anyMeet sp p.wr || (write && anyMeet sp p.rd)

/-- R73: an access of thread `k` to scratch bytes of its own core is held by its own queued work, and by its own
fabric requests that still stand. -/
def State.heldScratch (s : State) (k off n : Nat) (write : Bool) : Bool :=
  (s.pends (k / 64)).any (fun p => p.thread == k && p.holds [⟨off, n⟩] write)
def Req.meets (r : Req) (addr n : Nat) : Bool := decide (addr < r.addr + r.size) && decide (r.addr < addr + n)
/-- An earlier request of the thread holds the access: it meets the same bytes and one of the two writes (R73). -/
def State.heldFabric (s : State) (k addr n : Nat) (write : Bool) : Bool :=
  s.fabric.reqs.any (fun r => r.who == .thread k && r.meets addr n && (write || r.op != .ld) && r.op != .fetch)
/-- An earlier AMO of the thread to scratch bytes of its own core holds a queued operation on them (R73). -/
def State.heldByReq (s : State) (p : Pend) : Bool :=
  s.fabric.reqs.any (fun r => r.who == .thread p.thread && decide (r.id < p.seq) && r.op != .fetch && r.answer.isNone &&
    (match region r.addr with
      | .scratch c => c == p.core && p.holds [⟨r.addr % 0x40000, r.size⟩] true
      | _ => false))
/-- The thread has stores or AMOs that have not been acknowledged (R73). -/
def State.unacked (s : State) (k : Nat) : Bool :=
  s.fabric.reqs.any (fun r => r.who == .thread k && r.op != .ld && r.op != .spawn && r.op != .fetch)

end Sys2Proof.Machine
end

