-- ==== Sys2Proof/Machine/Fabric.lean ====
section
/-! DEFINITION. The fabric: fixed routes (R14), classes and frames (R15, R16), the check of every codeword (R19); the
clocks (R20-R24). -/

namespace Sys2Proof.Machine

/-! ### Routes (R14) -/

/-- The router of its quarter's mesh at which a node hangs; none: a hub. Where the spec names none (stack controllers, the
quarter's other units) the place is the model's choice (log entry 51): stack S(6n + k) at an outer edge, the rest at router 0. -/
def Node.attach : Node → Option (Nat × Nat)
  | .cluster q c => some (q, c)
  | .router q c => some (q, c)
  | .cellar q c => some (q, c)
  | .stack m => some (m / 6, ([12, 8, 4, 1, 2, 3] : List Nat).getD (m % 6) 0)
  | .quarter q => some (q, 0)
  | .hub _ => none
/-- From router `c` to router `c'` of one quarter: along the row, then along the column. -/
def meshPath (q c c' : Nat) : List Node :=
  let x := c % 4
  let y := c / 4
  let x' := c' % 4
  let y' := c' / 4
  let xs : List Nat := if x ≤ x' then (List.range (x' - x)).map (x + 1 + ·) else (List.range (x - x')).map (x - 1 - ·)
  let ys : List Nat := if y ≤ y' then (List.range (y' - y)).map (y + 1 + ·) else (List.range (y - y')).map (y - 1 - ·)
  xs.map (fun i => .router q (y * 4 + i)) ++ ys.map (fun j => .router q (j * 4 + x'))
/-- From router `c` of quarter `q` to router `c'` of `q'` in the same column of dies. Cluster 0 is at the outer corner of
each quarter, so the vertical bridge leaves at row 3 and arrives at row 3 of the same column (log entry 51). -/
def pathV (q q' c c' : Nat) : List Node :=
  if q = q' then meshPath q c c'
  else meshPath q c (12 + c % 4) ++ .router q' (12 + c % 4) :: meshPath q' (12 + c % 4) c'
/-- From router `c` of quarter `q` to router `c'` of `q'`: the horizontal bridge, at column 3, first. -/
def pathQQ (q q' c c' : Nat) : List Node :=
  if q % 2 = q' % 2 then pathV q q' c c'
  else
    let e := c / 4 * 4 + 3
    let m := q / 2 * 2 + q' % 2
    meshPath q c e ++ .router m e :: pathV m q' e c'
/-- From hub `h` to router `c'` of quarter `q'`: into the attached quarter of the destination's column, at row 0, then the
vertical bridge. -/
def pathHQ (h q' c' : Nat) : List Node :=
  let m := 2 * h + q' % 2
  .router m (c' % 4) :: pathV m q' (c' % 4) c'
/-- From router `c` of quarter `q` to hub `h`: the vertical bridge of its own column, then the hub bridge. -/
def pathQH (q h c : Nat) : List Node := pathV q (2 * h + q % 2) c (c % 4) ++ [.hub h]
/-- Hub to hub: H0–Q0–Q2–H1 and H1–Q3–Q1–H0. -/
def pathHH (h : Nat) : List Node :=
  if h = 0 then .router 0 0 :: pathQH 0 1 0 else .router 3 0 :: pathQH 3 0 0
/-- The nodes a flit reaches after `src` on its way to `dst`. -/
def route (src dst : Node) : List Node :=
  if src = dst then []
  else
    match src.attach, dst.attach with
    | some (q, c), some (q', c') => .router q c :: pathQQ q q' c c' ++ [dst]
    | some (q, c), none => .router q c :: pathQH q (match dst with
        | .hub h => h
        | _ => 0) c
    | none, some (q', c') => pathHQ (match src with
        | .hub h => h
        | _ => 0) q' c' ++ [dst]
    | none, none => pathHH (match src with
        | .hub h => h
        | _ => 0)

/-- Where the home of a device address stands: bank `b` above router b mod 16 (R278), the device-wide blocks 0x600-0x604,
to which the spec gives no die, at hub 0 (log entry 51). -/
def homeNode (a : Nat) : Node :=
  match region a with
  | .stack _ => .stack (stackLoc a).stack
  | .cellar q b => .cellar q (b % 16)
  | .scratch core => .cluster (coreQ core) (coreCl core % 16)
  | .regs n _ =>
    if n < 0x400 then
      (if 0x20 ≤ n % 0x100 then .cluster (n / 0x100) (n % 16)
       else if 0x10 ≤ n % 0x100 then .stack (6 * (n / 0x100) + n % 0x100 - 0x10) else .quarter (n / 0x100))
    else if n < 0x600 then .hub ((n - 0x400) / 0x100) else .hub 0
  | .host p => .hub p
  | .unmapped => .hub 0
/-- The interface through which a home answers: a pseudo-channel, a bank, a core, a block, a host port. -/
def homeIface (a : Nat) : Iface :=
  ⟨homeNode a, match region a with
    | .stack _ => (stackLoc a).channel * 2 + (stackLoc a).pc
    | .cellar _ b => b
    | .scratch core => core % 64
    | .regs n _ => 0x1000 + n
    | .host p => 0x2000 + p
    | .unmapped => 0⟩
def clusterNode (cl : Nat) : Node := .cluster (cl / 16) (cl % 16)
/-- The interface of thread `k`'s core. -/
def threadIface (k : Nat) : Iface := ⟨clusterNode (coreCl (k / 64)), k / 64 % 64⟩
/-- The stream engine of cluster `cl`. -/
def strmIface (cl : Nat) : Iface := ⟨clusterNode cl, 64⟩
def grindIface (g : Nat) : Iface := ⟨.quarter (g / 4), 0x1008 + g % 4⟩
/-- The block numbered `n` of a quarter or hub. -/
def blockIface (n : Nat) : Iface :=
  ⟨if n < 0x400 then .quarter (n / 0x100) else .hub (n / 0x100 % 2), 0x1000 + n⟩

/-- The interface of a unit that takes submissions. -/
def EUnit.iface : EUnit → Iface
  | .grind g => grindIface g
  | u => blockIface u.blk

def Node.die : Node → Nat
  | .cluster q _ => q
  | .router q _ => q
  | .cellar q _ => q
  | .stack m => m / 6
  | .quarter q => q
  | .hub h => 4 + h
/-- The bridge that a link crosses (Table 1.13's numbering); `none`: a link inside a quarter. -/
def bridgeOf (a b : Node) : Option Nat :=
  match min a.die b.die, max a.die b.die with
  | 0, 1 => some 0
  | 2, 3 => some 1
  | 0, 2 => some 2
  | 1, 3 => some 3
  | 0, 4 => some 4
  | 1, 4 => some 5
  | 2, 5 => some 6
  | 3, 5 => some 7
  | _, _ => none
/-- The output that a link leaves by: a bridge is one output in each direction. -/
def outputOf (a b : Node) : Node × Node :=
  match bridgeOf a b with
  | some _ => (.router a.die 16, .router b.die 16)
  | none => (a, b)

/-! ### Traffic classes (Table 1.4) -/

/-- The class of a thread's request: register accesses MGMT, the rest LAT. -/
def threadCls (a : Nat) : Cls :=
  match region a with
  | .regs _ _ => .mgmt
  | _ => .lat
/-- The class of a stream's reads and writes: LAT where its descriptor is marked so (R132). -/
def strmCls (lat : Bool) : Cls := if lat then .lat else .bulk

/-! ### Arbitration in frames of 16 slots (R16) -/

def Frame.init : Frame := ⟨0, 0, 0, 0⟩
def Frame.below (f : Frame) (c : Cls) : Bool :=
  match c with
  | .sync => f.nSync < 2
  | .mgmt => f.nMgmt < 1
  | .lat => f.nLat < 9
  | .bulk => f.nBulk < 4
/-- A slot served. The frame advances with flits served: that an idle slot uses up none of the 16 is the model's choice (log
entry 51). -/
def Frame.take (f : Frame) (c : Cls) : Frame :=
  let g : Frame := match c with
    | .sync => { f with nSync := f.nSync + 1 }
    | .mgmt => { f with nMgmt := f.nMgmt + 1 }
    | .lat => { f with nLat := f.nLat + 1 }
    | .bulk => { f with nBulk := f.nBulk + 1 }
  if g.nSync + g.nMgmt + g.nLat + g.nBulk ≥ 16 then Frame.init else g
/-- The class that the next slot serves, among the classes that are ready. -/
def Frame.serve (f : Frame) (ready : Cls → Bool) : Option Cls :=
  let order : List Cls := [.sync, .mgmt, .lat, .bulk]
  match order.find? (fun c => ready c && f.below c) with
  | some c => some c
  | none => order.find? ready

def State.frame (s : State) (o : Node × Node) : Frame :=
  match s.fabric.frames.find? (fun e => e.1 == o) with
  | some e => e.2
  | none => Frame.init
def State.setFrame (s : State) (o : Node × Node) (f : Frame) : State :=
  { s with fabric := { s.fabric with frames := (o, f) :: s.fabric.frames.filter (fun e => e.1 != o) } }

/-! ### Flits and requests -/

/-- A flit numbered `id` leaves for `dst`; between two ends at one node nothing travels. -/
def State.send (s : State) (id : Nat) (cls : Cls) (src : Iface) (dst : Node) : State :=
  match route src.node dst with
  | [] => s
  | hops => { s with fabric := { s.fabric with flits := s.fabric.flits ++ [⟨id, cls, src, dst, src.node, hops, false⟩] } }
/-- The flit numbered `id` has arrived. -/
def State.landed (s : State) (id : Nat) : Bool := !s.fabric.flits.any (fun f => f.id == id)
def State.req? (s : State) (id : Nat) : Option Req := s.fabric.reqs.find? (fun r => r.id == id)
def State.updReq (s : State) (id : Nat) (f : Req → Req) : State :=
  { s with fabric := { s.fabric with reqs := s.fabric.reqs.map (fun r => if r.id = id then f r else r) } }
def State.dropReq (s : State) (id : Nat) : State :=
  { s with fabric := { s.fabric with reqs := s.fabric.reqs.filter (fun r => r.id != id) } }
/-- A request enters the fabric at the interface of thread `k`. -/
def State.sendReq (s : State) (k : Nat) (op : ReqOp) (addr size off data rd : Nat) : State :=
  let id := s.fabric.nextId
  let r : Req := ⟨id, .thread k, (s.thread k).job, op, threadCls addr, addr, size, off, data, 0, rd, (s.thread k).pc.toNat, none⟩
  ({ s with fabric := { s.fabric with reqs := s.fabric.reqs ++ [r], nextId := id + 1 } }).send id r.cls (threadIface k) (homeNode addr)
/-- The next number in the order of issue. -/
def State.takeSeq (s : State) : Nat × State :=
  (s.fabric.nextId, { s with fabric := { s.fabric with nextId := s.fabric.nextId + 1 } })
/-- A message of class SYNC leaves, numbered by the answer. -/
def State.sendMsg (s : State) (src : Iface) (dst : Node) : Nat × State :=
  let r := s.takeSeq
  (r.1, r.2.send r.1 .sync src dst)
/-- The codewords of a request's block that hold its bytes, as a mask. -/
def Req.cwMask (r : Req) : Nat := (cws (r.addr % 64) r.size).foldl (fun m i => m ||| 2 ^ i) 0
/-- The thread of a request. -/
def Req.key (r : Req) : Nat :=
  match r.who with
  | .thread k => k
  | _ => 0
def Req.isSt (r : Req) : Bool := r.op == .st
def Req.isAmo (r : Req) : Bool :=
  match r.op with
  | .amo _ => true
  | _ => false
/-- A posted request waits for nothing: a store, or an AMO with rd = X0. -/
def Req.posted (r : Req) : Bool := r.isSt || (r.isAmo && r.rd == 0)
/-- A scratch or Cellar window, or a GRIND block, of a withdrawn quarter (R380). -/
def State.goneWindow (s : State) (a : Nat) : Bool :=
  match region a with
  | .cellar q _ => s.qState q == 5
  | .scratch core => s.qState (coreQ core) == 5
  | .regs n _ => blockKind n == some .grind && s.qState (n / 0x100) == 5
  | _ => false
/-- What has come back to a posted request's core: an acknowledgement, or a refusal, whose task aborts unless it is being
aborted already (R51, R380). -/
def State.settle (s : State) (id : Nat) : State :=
  match s.req? id with
  | none => s
  | some r =>
    if !s.landed id || !r.posted then s
    else match r.answer with
      | some .ack => s.dropReq id
      | some (.refused code) =>
        (match (s.thread r.key).st with
          | .free => s.dropReq id
          | .stopped => s.dropReq id
          | _ =>
            if s.goneWindow r.addr then (s.dropReq id).withdrawnFault r.key r.pc r.addr
            else (s.dropReq id).coreFaultAt r.key code r.pc r.addr)
      | _ => s
/-- A home's answer leaves for the requester. -/
def State.answerReq (s : State) (r : Req) (a : Answer) : State :=
  ((s.updReq r.id (fun x => { x with answer := some a })).send r.id r.cls (homeIface r.addr) (match r.who with
    | .thread k => (threadIface k).node
    | _ => homeNode r.addr)).settle r.id
/-- The answer to a thread's request has come back. -/
def State.answered (s : State) (r : Req) : Bool := r.answer.isSome && s.landed r.id

/-- The unit that checks codewords on a link: the FAB block for a bridge, the MESH block of the quarter otherwise. -/
def checker (a b : Node) : Nat :=
  match bridgeOf a b with
  | some _ => blkFAB
  | none => blkMESH a.die
/-- A corrected codeword counted where the link counts them (R19). -/
def State.countCe (s : State) (a b : Node) (addr sym : Nat) : State :=
  match bridgeOf a b with
  | some i => s.corrected blkFAB F.FAB.BRIDGE_CE.COUNT (8 * i) addr sym
  | none => { s with fabric := { s.fabric with meshCe := Sparse.put 0 s.fabric.meshCe a.die (Sparse.get 0 s.fabric.meshCe a.die + 1) } }
/-- The codewords of a span that lies in one 64 B block, as a mask. -/
def spanMask (a n : Nat) : Nat := (cws (a % 64) n).foldl (fun m i => m ||| 2 ^ i) 0
/-- The stream read whose flit is `id`, with its context. -/
def State.strmRead? (s : State) (id : Nat) : Option (Nat × StrmRead) :=
  s.ctxs.findSome? (fun e => (e.2.reads.find? (fun x => x.flit == id)).map (fun x => (e.1, x)))
/-- The Grinder's request whose flit is `id`, with its bag. -/
def State.grRead? (s : State) (id : Nat) : Option (Bag × GrRead) :=
  s.bags.findSome? (fun b => (b.flits.find? (fun x => x.flit == id)).map (fun x => (b, x)))
/-- The codewords of data that the flit numbered `id` carries, as a mask: a write's data on its way out, a read's on its way
back. -/
def State.carries (s : State) (id : Nat) : Nat :=
  match s.req? id, s.strmRead? id, s.grRead? id with
  | some r, _, _ =>
    (match r.answer with
      | none => if r.isSt || r.isAmo then r.cwMask else 0
      | some (.data _ _) => r.cwMask
      | some _ => 0)
  | none, some (_, x), _ => if x.data.isSome then spanMask x.addr x.n else 0
  | none, none, some (_, x) => if x.data.isSome then spanMask x.addr x.n else 0
  | none, none, none => 0
/-- The codewords `bad` reach what the flit carries as poison. -/
def State.poisonFlit (s : State) (id bad : Nat) : State :=
  if bad = 0 then s
  else
    let s := s.updReq id (fun r =>
      match r.answer with
      | none => { r with bad := r.bad ||| bad }
      | some (.data v p) => { r with answer := some (.data v (p ||| bad)) }
      | some _ => r)
    { s with
      ctxs := s.ctxs.map (fun e => (e.1, { e.2 with reads := e.2.reads.map (fun x =>
        if x.flit = id then { x with bad := x.bad ||| bad } else x) }))
      bags := s.bags.map (fun b => { b with flits := b.flits.map (fun x =>
        if x.flit = id then { x with bad := x.bad ||| bad } else x) }) }
/-- Codewords of a block as they come back, those of mask `bad` as poison; the first stands at address `a`. -/
def spoil (a bad : Nat) (l : List Code) : List Code :=
  l.mapIdx (fun i c => if bit bad ((a / 16 + i) % 4) then ⟨c.v, true⟩ else c)
/-- The address that a flit's request names, for its error records. -/
def State.flitAddr (s : State) (id : Nat) : Nat :=
  match s.req? id, s.strmRead? id, s.grRead? id with
  | some r, _, _ => r.addr
  | none, some (_, x), _ => x.addr
  | none, none, some (_, x) => x.addr
  | none, none, none => 0
/-- Flit `f` passes its next link: one bad symbol of a codeword is restored and counted, an uncorrectable payload codeword
goes on as poison, an uncorrectable header discards the flit and is fatal (R19). A flit that arrives is listed no more. -/
def State.hop (s : State) (f : Flit) (nxt : Node) (rest : List Node) (hdr : Nat) (payload : List Nat) : State :=
  let out := outputOf f.at_ nxt
  let s := s.setFrame out ((s.frame out).take f.cls)
  let a := s.flitAddr f.id
  let move (s : State) (g : Flit → Option Flit) : State :=
    { s with fabric := { s.fabric with flits := s.fabric.flits.filterMap (fun x => if x = f then g x else some x) } }
  if 2 ≤ popCount 36 hdr then
    (move s (fun x => some { x with lost := true })).report 4 0xAD (checker f.at_ nxt) 0 0 a 0 ((bridgeOf f.at_ nxt).getD 7)
  else
    let has := s.carries f.id
    let masks := (List.range 4).map (fun i => if bit has i then payload.getD i 0 else 0)
    let s := (hdr :: masks).foldl (fun s m => if popCount 36 m = 1 then s.countCe f.at_ nxt a (lowBit 36 m) else s) s
    let bad := (List.range 4).foldl (fun b i => if 2 ≤ popCount 36 (masks.getD i 0) then b + 2 ^ i else b) 0
    let s := if bad = 0 then s else s.report 1 0xA1 (checker f.at_ nxt) 0 0 a 0 0
    let s := move (s.poisonFlit f.id bad) (fun x => if rest.isEmpty then none else some { x with at_ := nxt, hops := rest })
    s.settle f.id
/-- The link is up, and the flit is the one that the output's arbitration serves: of its class, the oldest from its source
to its destination (R17). -/
def State.hopDue (s : State) (f : Flit) (nxt : Node) : Bool :=
  let out := outputOf f.at_ nxt
  let here := s.fabric.flits.filter (fun x => !x.lost && x.hops.head?.map (outputOf x.at_) == some out)
  let up := match bridgeOf f.at_ nxt with
    | some i => bit (s.fget blkFAB F.FAB.BRIDGE_STATUS.UP) i
    | none => true
  s.alive && !f.lost && up && (s.frame out).serve (fun c => here.any (fun x => x.cls == c)) == some f.cls &&
    here.find? (fun x => x.cls == f.cls && x.src == f.src && x.dst == f.dst) == some f
/-- FLIT_HOP: `hdr` and `payload` are the bad-symbol masks of the flit's codewords on the link. -/
def execFlitHop (id : Nat) (hdr : Nat) (payload : List Nat) (s : State) : Host.Outcome State Fault Refusal :=
  .next (match s.fabric.flits.find? (fun f => f.id == id) with
    | none => s
    | some f =>
      match f.hops with
      | [] => s
      | nxt :: rest => if s.hopDue f nxt then s.hop f nxt rest hdr payload else s)

/-- BRIDGE_FAILED (R18): the bridge is no longer trained, and a fatal error is raised. -/
def execBridgeFailed (b : Fin 8) (s : State) : Host.Outcome State Fault Refusal :=
  let up := s.fget blkFAB F.FAB.BRIDGE_STATUS.UP
  .next (if bit up b.val then
    (s.fset blkFAB F.FAB.BRIDGE_STATUS.UP (up - 2 ^ b.val)).report 4 0xAC blkFAB 0 0 0 0 b.val
  else s)

/-! ### Clocks (R23, R24) -/

/-- The 4-bit reversal of `i`. -/
def rev4 (i : Nat) : Nat := bits i 0 1 * 8 + bits i 1 1 * 4 + bits i 2 1 * 2 + bits i 3 1
/-- The cycles of a window whose enables level `l` withholds. -/
def withheldAt (l : Nat) : BitVec 16 :=
  BitVec.ofNat 16 ((List.range 16).foldl (fun m i => if rev4 i < l then m + 2 ^ i else m) 0)

/-- Window w begins at ARITH cycle 16w under the level then set; its withheld enables are counted (R23). -/
def State.throttleWindow (s : State) : State :=
  if s.clk.arith % 16 = 0 ∧ s.clk.window ≤ s.clk.arith / 16 ∧ !s.clk.mgmtOnly then
    let l := s.pow.level
    let s := ((s.fset blkCLK F.CLK.THROTTLE.LEVEL l).fset blkCLK F.CLK.THROTTLE.ACTIVE (if l = 0 then 0 else 1))
    let s := s.bump blkCLK F.CLK.THROTTLE_SKIPS.SKIPS 0 l
    { s with clk := { s.clk with window := s.clk.arith / 16 + 1, withheld := withheldAt l } }
  else s
/-- THROTTLE_WINDOW: in the first cycle of a window. -/
def execThrottleWindow (s : State) : Host.Outcome State Fault Refusal := .next s.throttleWindow
/-- The arrays, vector units and thread engines have their ARITH enable in this cycle: its window has begun and does not
withhold it. -/
def State.enabled (s : State) : Bool :=
  s.alive && decide (s.clk.arith / 16 < s.clk.window) && !s.clk.withheld.getLsbD (s.clk.arith % 16)

/-- REFCLK_LOST (R24): every derived clock but MGMT stops, the links drop, and a fatal record is written. -/
def execRefclkLost (s : State) : Host.Outcome State Fault Refusal :=
  .next (if s.clk.mgmtOnly then s else
    let s := (s.fset blkCLK F.CLK.CLK_STATUS.REFCLK_LOST 1).fset blkCLK F.CLK.CLK_STATUS.PLL_LOCK 0
    let s := { s with clk := { s.clk with mgmtOnly := true } }
    let s := [0, 1].foldl (fun s p => s.setPort p { s.port p with link := false, downAt := s.clk.arith }) s
    let s := (List.range 18).foldl (fun s t => s.fset (blkTL t) F.TL.PORT_STATUS.STATE 0) { s with tports := [] }
    s.report 4 0xAE blkCLK 0 0 0 0 0)

end Sys2Proof.Machine
end

