-- ==== Sys2Proof/Machine/View.lean ====
section
/-! DEFINITION. Device memory as a reader at its home sees it (R172): the Cellar cache's line where it holds one (R285),
else the cells. -/

namespace Sys2Proof.Machine

/-! ### The Cellar cache's places (R285) -/

/-- The logical banks of quarter `q` that are in CACHE mode, in increasing order. -/
def State.cacheBanks (s : State) (q : Nat) : List Nat :=
  (List.range 56).filter (fun b => s.fget (blkCELLAR q) F.CELLAR.BANK_OWN.MODE (8 * b) == 0)
/-- The cache is the home of the quarter's stacks. -/
def State.cacheOn (s : State) (q : Nat) : Bool := s.fbit (blkCELLAR q) F.CELLAR.CACHE_STATUS.ENABLED
def lineQ (line : Nat) : Nat := line * 256 / 0x009000000000
/-- The set of a line: quarter, logical bank, set. -/
def State.setOf (s : State) (line : Nat) : Nat :=
  let q := lineQ line
  let l := line % (0x009000000000 / 256)
  let bs := s.cacheBanks q
  if bs.isEmpty then q * 64 * 8192
  else (q * 64 + bs.getD (l % bs.length) 0) * 8192 + l / bs.length % 8192
def State.way (s : State) (set w : Nat) : CLine := Sparse.get CLine.init s.clines (set * 16 + w)
def State.findWay (s : State) (set line : Nat) : Option Nat :=
  (List.range 16).find? (fun w => (s.way set w).line == line + 1)
/-- The cache holds the line. -/
def State.holdsLine (s : State) (line : Nat) : Bool :=
  !s.clines.isEmpty && (s.findWay (s.setOf line) line).isSome
/-- The cells that hold an address: the cache's copy of its line, or memory. -/
def State.cells (s : State) (a : Nat) : Mem :=
  match region a with
  | .stack _ => if s.holdsLine (a / 256) then s.cmem else s.mem
  | _ => s.mem

def State.viewByte (s : State) (a : Nat) : Byte := (s.cells a).byte a
def State.viewCw (s : State) (c : Nat) : CwState := (s.cells (16 * c)).cw c
/-- `n` bytes from `a`, and the same as a number. -/
def State.viewBytes (s : State) (a n : Nat) : List Byte := (List.range n).map (fun i => s.viewByte (a + i))
def State.viewNat (s : State) (a n : Nat) : Nat := leNat (s.viewBytes a n)
/-- Whether any codeword of the range is returned as poison. -/
def State.viewPoison (s : State) (a n : Nat) : Bool :=
  (cws a n).any (fun c => s.viewCw c == .poison || s.viewCw c == .bad)

end Sys2Proof.Machine
end

