-- ==== Sys2Proof/Machine/Threads.lean ====
section
/-! DEFINITION. Threads: which may issue (R49), the scalar operations (R64, R65), loads, stores and atomics (R57, R66),
starting, ending and aborting a task (R48, R51, R52), fetching (R63), gating (R53). -/

namespace Sys2Proof.Machine

/-! ### Issue (R49, R61) -/

def icacheLine (pc : Nat) : Nat := pc / 128
/-- The line that holds `pc` stands in the core's cache. -/
def Core.holdsPc (c : Core) (pc : Nat) : Bool := c.icache.any (fun e => e.2.line == icacheLine pc + 1)
/-- The instruction at `pc` stands in the core's cache, in a codeword that is not poison. -/
def Core.fetched (c : Core) (pc : Nat) : Bool := c.holdsPc pc && !c.icPoison.contains (pc / 16)
/-- The word that the cache holds for `pc`. -/
def Core.wordAt (c : Core) (pc : Nat) : BitVec 32 :=
  match c.icache.find? (fun e => e.2.line == icacheLine pc + 1) with
  | some e => e.2.words.getD (pc % 128 / 4) 0
  | none => 0
/-- The word at the thread's program counter. -/
def State.instrWord (s : State) (k : Nat) : BitVec 32 := (s.core (k / 64)).wordAt (s.thread k).pc.toNat
/-- The instruction at thread `t`'s program counter is `i` (R60, R64, R67). -/
def State.fetches (s : State) (t : Tid) (i : Instr) : Bool := decodeWord t (s.instrWord t.key) == some i
/-- Thread `k` is READY and its next instruction is fetched. -/
def State.issuable (s : State) (k : Nat) : Bool :=
  (s.thread k).st == .ready && (s.core (k / 64)).fetched (s.thread k).pc.toNat
/-- The core's enable is present, it is awake and has issued nothing in this cycle, and `t` comes first in rotating order
among the threads that can issue. -/
def State.canIssue (s : State) (t : Tid) : Bool :=
  let c := s.core t.core.val
  s.enabled && decide (c.wakeAt ≤ s.clk.arith) && c.issued != s.clk.arith + 1 && s.issuable t.key &&
    ((List.range 64).map (fun i => (c.last + 1 + i) % 64)).find? (fun i => s.issuable (t.core.val * 64 + i)) ==
      some t.th.val
/-- The core and the thread as the issue of `t` leaves them. -/
def State.markIssue (s : State) (t : Tid) : State :=
  (s.setCore t.core.val { s.core t.core.val with last := t.th.val, issued := s.clk.arith + 1, busyAt := s.clk.arith,
                                                   gated := false }).setThread t.key
    { s.thread t.key with parkedAt := s.clk.arith }
/-- The program counter moves to the next instruction. -/
def State.pcNext (s : State) (k : Nat) : State :=
  s.setThread k { s.thread k with pc := (s.thread k).pc + 4 }
/-- What an issued instruction does: with a true guard, `body`; with a false one, nothing (R61). A body that answers none is
held (R73): the instruction has had its slot and takes effect later. -/
def State.perform (s : State) (t : Tid) (g : BitVec 4) (body : State → Option State) : State :=
  if (s.thread t.key).guard g then
    (match body s with
      | some r => r
      | none => s.setThread t.key { s.thread t.key with st := .held })
  else s.pcNext t.key
/-- An issue of `t`, whatever its instruction, where `ok` says that its word is the one meant; or a held instruction's
further attempt. A thread that can do neither does nothing. -/
def State.issueIf (s : State) (ok : Bool) (t : Tid) (g : BitVec 4) (body : State → Option State) : State :=
  if !ok then s
  else if s.canIssue t then (s.markIssue t).perform t g body
  else if (s.thread t.key).st = .held ∧ s.enabled then
    (s.setThread t.key { s.thread t.key with st := .ready }).perform t g body
  else s
/-- Instruction `i` of thread `t`, where it is the one at its program counter. -/
def State.instr (s : State) (i : Instr) (t : Tid) (g : BitVec 4) (body : State → Option State) : State :=
  s.issueIf (s.fetches t i) t g body
/-- A scalar instruction: a change of the thread's own registers, then the next instruction. -/
def State.scalar (s : State) (i : Instr) (t : Tid) (g : BitVec 4) (f : Thread → Thread) : State :=
  s.instr i t g (fun s =>
    let th := f (s.thread t.key)
    some (s.setThread t.key { th with pc := (s.thread t.key).pc + 4 }))
/-- rd ← f rs1 rs2. -/
def State.alu (s : State) (i : Instr) (t : Tid) (g : BitVec 4) (rd rs1 rs2 : BitVec 5) (f : Word → Word → Word) : State :=
  s.scalar i t g (fun th => th.setX rd (f (th.getX rs1) (th.getX rs2)))
/-- rd ← f rs1. -/
def State.alui (s : State) (i : Instr) (t : Tid) (g : BitVec 4) (rd rs1 : BitVec 5) (f : Word → Word) : State :=
  s.scalar i t g (fun th => th.setX rd (f (th.getX rs1)))
/-- pd ← rs1 cond rs2. -/
def State.cmp (s : State) (i : Instr) (t : Tid) (g : BitVec 4) (pd : BitVec 3) (rs1 rs2 : BitVec 5) (c : Cond) : State :=
  s.scalar i t g (fun th => th.setP pd (c.holds (th.getX rs1) (th.getX rs2)))
/-- pd ← ps1 op ps2. -/
def State.plog (s : State) (i : Instr) (t : Tid) (g : BitVec 4) (pd ps1 ps2 : BitVec 3) (f : Bool → Bool → Bool) : State :=
  s.scalar i t g (fun th => th.setP pd (f (th.getP ps1) (th.getP ps2)))

/-! ### The arithmetic of Table 3.6 -/

/-- The high 64 bits of the product. -/
def mulHU (a b : Word) : Word := BitVec.ofNat 64 (a.toNat * b.toNat / 2 ^ 64)
def mulHS (a b : Word) : Word := BitVec.ofInt 64 (a.toInt * b.toInt / 2 ^ 64)
def sminW (a b : Word) : Word := if a.slt b then a else b
def smaxW (a b : Word) : Word := if a.slt b then b else a
def uminW (a b : Word) : Word := if a.ult b then a else b
def umaxW (a b : Word) : Word := if a.ult b then b else a
def shlW (a b : Word) : Word := a <<< (b.toNat % 64)
def shrW (a b : Word) : Word := a >>> (b.toNat % 64)
def sraW (a b : Word) : Word := a.sshiftRight (b.toNat % 64)
/-- MOVW: imm16 at halfword hw, the rest of rd kept or zero. -/
def movw (old : Word) (hw : BitVec 2) (keep : Bool) (imm : BitVec 16) : Word :=
  let sh := 16 * hw.toNat
  let v : Word := imm.zeroExtend 64 <<< sh
  if keep then (old &&& ~~~((0xFFFF : Word) <<< sh)) ||| v else v

def execAdd (t : Tid) (g : BitVec 4) (rd rs1 rs2 : BitVec 5) (s : State) : Host.Outcome State Fault Refusal :=
  .next (s.alu (.add t g rd rs1 rs2) t g rd rs1 rs2 (· + ·))
def execSub (t : Tid) (g : BitVec 4) (rd rs1 rs2 : BitVec 5) (s : State) : Host.Outcome State Fault Refusal :=
  .next (s.alu (.sub t g rd rs1 rs2) t g rd rs1 rs2 (· - ·))
def execAnd (t : Tid) (g : BitVec 4) (rd rs1 rs2 : BitVec 5) (s : State) : Host.Outcome State Fault Refusal :=
  .next (s.alu (.and t g rd rs1 rs2) t g rd rs1 rs2 (· &&& ·))
def execOr (t : Tid) (g : BitVec 4) (rd rs1 rs2 : BitVec 5) (s : State) : Host.Outcome State Fault Refusal :=
  .next (s.alu (.or t g rd rs1 rs2) t g rd rs1 rs2 (· ||| ·))
def execXor (t : Tid) (g : BitVec 4) (rd rs1 rs2 : BitVec 5) (s : State) : Host.Outcome State Fault Refusal :=
  .next (s.alu (.xor t g rd rs1 rs2) t g rd rs1 rs2 (· ^^^ ·))
def execShl (t : Tid) (g : BitVec 4) (rd rs1 rs2 : BitVec 5) (s : State) : Host.Outcome State Fault Refusal :=
  .next (s.alu (.shl t g rd rs1 rs2) t g rd rs1 rs2 shlW)
def execShr (t : Tid) (g : BitVec 4) (rd rs1 rs2 : BitVec 5) (s : State) : Host.Outcome State Fault Refusal :=
  .next (s.alu (.shr t g rd rs1 rs2) t g rd rs1 rs2 shrW)
def execSra (t : Tid) (g : BitVec 4) (rd rs1 rs2 : BitVec 5) (s : State) : Host.Outcome State Fault Refusal :=
  .next (s.alu (.sra t g rd rs1 rs2) t g rd rs1 rs2 sraW)
def execMul (t : Tid) (g : BitVec 4) (rd rs1 rs2 : BitVec 5) (s : State) : Host.Outcome State Fault Refusal :=
  .next (s.alu (.mul t g rd rs1 rs2) t g rd rs1 rs2 (· * ·))
def execMulhs (t : Tid) (g : BitVec 4) (rd rs1 rs2 : BitVec 5) (s : State) : Host.Outcome State Fault Refusal :=
  .next (s.alu (.mulhs t g rd rs1 rs2) t g rd rs1 rs2 mulHS)
def execMulhu (t : Tid) (g : BitVec 4) (rd rs1 rs2 : BitVec 5) (s : State) : Host.Outcome State Fault Refusal :=
  .next (s.alu (.mulhu t g rd rs1 rs2) t g rd rs1 rs2 mulHU)
def execMin (t : Tid) (g : BitVec 4) (rd rs1 rs2 : BitVec 5) (s : State) : Host.Outcome State Fault Refusal :=
  .next (s.alu (.min t g rd rs1 rs2) t g rd rs1 rs2 sminW)
def execMax (t : Tid) (g : BitVec 4) (rd rs1 rs2 : BitVec 5) (s : State) : Host.Outcome State Fault Refusal :=
  .next (s.alu (.max t g rd rs1 rs2) t g rd rs1 rs2 smaxW)
def execMinu (t : Tid) (g : BitVec 4) (rd rs1 rs2 : BitVec 5) (s : State) : Host.Outcome State Fault Refusal :=
  .next (s.alu (.minu t g rd rs1 rs2) t g rd rs1 rs2 uminW)
def execMaxu (t : Tid) (g : BitVec 4) (rd rs1 rs2 : BitVec 5) (s : State) : Host.Outcome State Fault Refusal :=
  .next (s.alu (.maxu t g rd rs1 rs2) t g rd rs1 rs2 umaxW)
/-- SEL (R61): always executes; its guard field selects. -/
def execSel (t : Tid) (g : BitVec 4) (rd rs1 rs2 : BitVec 5) (s : State) : Host.Outcome State Fault Refusal :=
  .next (s.scalar (.sel t g rd rs1 rs2) t 0 (fun th => th.setX rd (if th.guard g then th.getX rs1 else th.getX rs2)))
def execAddi (t : Tid) (g : BitVec 4) (rd rs1 : BitVec 5) (imm : BitVec 12) (s : State) : Host.Outcome State Fault Refusal :=
  .next (s.alui (.addi t g rd rs1 imm) t g rd rs1 (· + immS imm))
def execAndi (t : Tid) (g : BitVec 4) (rd rs1 : BitVec 5) (imm : BitVec 12) (s : State) : Host.Outcome State Fault Refusal :=
  .next (s.alui (.andi t g rd rs1 imm) t g rd rs1 (· &&& immS imm))
def execOri (t : Tid) (g : BitVec 4) (rd rs1 : BitVec 5) (imm : BitVec 12) (s : State) : Host.Outcome State Fault Refusal :=
  .next (s.alui (.ori t g rd rs1 imm) t g rd rs1 (· ||| immZ imm))
def execXori (t : Tid) (g : BitVec 4) (rd rs1 : BitVec 5) (imm : BitVec 12) (s : State) : Host.Outcome State Fault Refusal :=
  .next (s.alui (.xori t g rd rs1 imm) t g rd rs1 (· ^^^ immS imm))
def execShli (t : Tid) (g : BitVec 4) (rd rs1 : BitVec 5) (imm : BitVec 6) (s : State) : Host.Outcome State Fault Refusal :=
  .next (s.alui (.shli t g rd rs1 imm) t g rd rs1 (· <<< imm.toNat))
def execShri (t : Tid) (g : BitVec 4) (rd rs1 : BitVec 5) (imm : BitVec 6) (s : State) : Host.Outcome State Fault Refusal :=
  .next (s.alui (.shri t g rd rs1 imm) t g rd rs1 (· >>> imm.toNat))
def execSrai (t : Tid) (g : BitVec 4) (rd rs1 : BitVec 5) (imm : BitVec 6) (s : State) : Host.Outcome State Fault Refusal :=
  .next (s.alui (.srai t g rd rs1 imm) t g rd rs1 (fun x => x.sshiftRight imm.toNat))
/-- MOVW has no guard (R61). -/
def execMovw (t : Tid) (rd : BitVec 5) (hw : BitVec 2) (keep : Bool) (imm : BitVec 16) (s : State) : Host.Outcome State Fault Refusal :=
  .next (s.scalar (.movw t rd hw keep imm) t 0 (fun th => th.setX rd (movw (th.getX rd) hw keep imm)))
def execCmpEq (t : Tid) (g : BitVec 4) (pd : BitVec 3) (rs1 rs2 : BitVec 5) (s : State) : Host.Outcome State Fault Refusal :=
  .next (s.cmp (.cmpEq t g pd rs1 rs2) t g pd rs1 rs2 .eq)
def execCmpNe (t : Tid) (g : BitVec 4) (pd : BitVec 3) (rs1 rs2 : BitVec 5) (s : State) : Host.Outcome State Fault Refusal :=
  .next (s.cmp (.cmpNe t g pd rs1 rs2) t g pd rs1 rs2 .ne)
def execCmpLt (t : Tid) (g : BitVec 4) (pd : BitVec 3) (rs1 rs2 : BitVec 5) (s : State) : Host.Outcome State Fault Refusal :=
  .next (s.cmp (.cmpLt t g pd rs1 rs2) t g pd rs1 rs2 .lt)
def execCmpLtu (t : Tid) (g : BitVec 4) (pd : BitVec 3) (rs1 rs2 : BitVec 5) (s : State) : Host.Outcome State Fault Refusal :=
  .next (s.cmp (.cmpLtu t g pd rs1 rs2) t g pd rs1 rs2 .ltu)
def execCmpGe (t : Tid) (g : BitVec 4) (pd : BitVec 3) (rs1 rs2 : BitVec 5) (s : State) : Host.Outcome State Fault Refusal :=
  .next (s.cmp (.cmpGe t g pd rs1 rs2) t g pd rs1 rs2 .ge)
def execCmpGeu (t : Tid) (g : BitVec 4) (pd : BitVec 3) (rs1 rs2 : BitVec 5) (s : State) : Host.Outcome State Fault Refusal :=
  .next (s.cmp (.cmpGeu t g pd rs1 rs2) t g pd rs1 rs2 .geu)
def execPlogAnd (t : Tid) (g : BitVec 4) (pd ps1 ps2 : BitVec 3) (s : State) : Host.Outcome State Fault Refusal :=
  .next (s.plog (.plogAnd t g pd ps1 ps2) t g pd ps1 ps2 (· && ·))
def execPlogOr (t : Tid) (g : BitVec 4) (pd ps1 ps2 : BitVec 3) (s : State) : Host.Outcome State Fault Refusal :=
  .next (s.plog (.plogOr t g pd ps1 ps2) t g pd ps1 ps2 (· || ·))
def execPlogXor (t : Tid) (g : BitVec 4) (pd ps1 ps2 : BitVec 3) (s : State) : Host.Outcome State Fault Refusal :=
  .next (s.plog (.plogXor t g pd ps1 ps2) t g pd ps1 ps2 (fun a b => a != b))
def execPlogAndn (t : Tid) (g : BitVec 4) (pd ps1 ps2 : BitVec 3) (s : State) : Host.Outcome State Fault Refusal :=
  .next (s.plog (.plogAndn t g pd ps1 ps2) t g pd ps1 ps2 (fun a b => a && !b))

/-! ### Control (R64, R65) -/

def execBr (t : Tid) (g : BitVec 4) (disp : BitVec 22) (s : State) : Host.Outcome State Fault Refusal :=
  .next (s.instr (.br t g disp) t g (fun s => some (s.setThread t.key { s.thread t.key with pc := (s.thread t.key).pc + dispBytes disp })))
def execCall (t : Tid) (g : BitVec 4) (disp : BitVec 22) (s : State) : Host.Outcome State Fault Refusal :=
  .next (s.instr (.call t g disp) t g (fun s =>
    let th := s.thread t.key
    some (s.setThread t.key { th.setX 31 (th.pc + 4) with pc := th.pc + dispBytes disp })))
def execJr (t : Tid) (g : BitVec 4) (rd rs1 : BitVec 5) (s : State) : Host.Outcome State Fault Refusal :=
  .next (s.instr (.jr t g rd rs1) t g (fun s =>
    let th := s.thread t.key
    let target := th.getX rs1
    some (if target.toNat % 4 ≠ 0 then s.coreFault t.key 0x03 target.toNat
      else s.setThread t.key { th.setX rd (th.pc + 4) with pc := target })))
/-- The values of Table 3.7. -/
def State.rdsys (s : State) (t : Tid) (sel : Fin 5) : Nat :=
  let th := s.thread t.key
  match sel with
  | 0 => s.now
  | 1 => t.core.val * 64 + t.th.val
  | 2 => th.recAddr
  | 3 => th.epoch
  | 4 => s.clk.arith - th.started
def execRdsys (t : Tid) (g : BitVec 4) (rd : BitVec 5) (sel : Fin 5) (s : State) : Host.Outcome State Fault Refusal :=
  .next (s.scalar (.rdsys t g rd sel) t g (fun th => th.setX rd (BitVec.ofNat 64 (s.rdsys t sel))))
/-- YIELD: not READY for 16 ARITH cycles. -/
def execYield (t : Tid) (g : BitVec 4) (s : State) : Host.Outcome State Fault Refusal :=
  .next (s.instr (.yield t g) t g (fun s => some ((s.pcNext t.key).setThread t.key
    { (s.pcNext t.key).thread t.key with st := .stalled (s.clk.arith + 16) })))
def execYieldExpire (t : Tid) (s : State) : Host.Outcome State Fault Refusal :=
  .next (match (s.thread t.key).st with
    | .stalled u => if u ≤ s.clk.arith then s.wakeThread t.key else s
    | _ => s)
def execNop (t : Tid) (g : BitVec 4) (s : State) : Host.Outcome State Fault Refusal :=
  .next (s.scalar (.nop t g) t g id)
/-- ILLEGAL_INSTR (R62): the word at the thread's program counter is `w`, and illegal. -/
def execIllegalInstr (t : Tid) (w : BitVec 32) (s : State) : Host.Outcome State Fault Refusal :=
  let fault (g : BitVec 4) : State :=
    s.issueIf (s.instrWord t.key == w) t g (fun s => some (s.coreFault t.key 0x01 (s.thread t.key).pc.toNat))
  .next (match classify w with
    | .legal => s
    | .illegal none => fault 0
    | .illegal (some g) => fault g)

/-! ### Scratch banks (R54, R58) -/

/-- A bank's check of codewords that it reads from cells `m`: one bad symbol counted, an uncorrectable codeword recorded. -/
def State.checkIn (s : State) (m : Mem) (blk : Nat) (f : Fld) (ix : Nat) (l : List Nat) : State :=
  l.foldl (fun s c =>
    match m.cw c with
    | .one sym => s.corrected blk f ix (16 * c) sym
    | .bad => s.report 1 0xA1 blk 0 0 (16 * c) 0 0
    | _ => s) s
def State.checkCws (s : State) (blk : Nat) (f : Fld) (ix : Nat) (l : List Nat) : State := s.checkIn s.mem blk f ix l
/-- The codewords that a write of `n` bytes at `a` writes only in part: they are read to be merged (R58, R279). -/
def partCws (a n : Nat) : List Nat := (cws a n).filter (fun c => !covers a n c)
def scratchBlk (a : Nat) : Nat := blkCLUS ((a - scratchBase) / 0x40000 / 64)
def State.scratchCheck (s : State) (a n : Nat) : State :=
  s.checkCws (scratchBlk a) F.CLUS.SCRATCH_CE.COUNT 0 (cws a n)
/-- Contributions in increasing key, in order of arrival within one. -/
def insAdd (x : OAdd) : List OAdd → List OAdd
  | [] => [x]
  | y :: l => if x.key < y.key then x :: y :: l else y :: insAdd x l
def sortAdds (l : List OAdd) : List OAdd := l.foldl (fun acc x => insAdd x acc) []
/-- The ordered adds held for the scratch operand at `l` are applied as one step (R248). -/
def State.scratchAddsAt (s : State) (l : Nat) : State :=
  let mine := s.oadds.filter (fun x => x.addr == l)
  let s := { s with oadds := s.oadds.filter (fun x => x.addr != l) }
  if s.mem.poisoned l 4 then s
  else { s with mem := s.mem.write l (leBytes 4 ((sortAdds mine).foldl (fun v x => add32 .rne v x.v) (s.mem.readNat l 4))) }
/-- Operands with held adds that an access to scratch bytes `[a, a + n)` meets. -/
def State.scratchAdds (s : State) (a n : Nat) : State :=
  ((s.oadds.filter (fun x => x.addr < a + n && a < x.addr + 4)).map (·.addr)).eraseDups.foldl State.scratchAddsAt s
/-- The same for codewords. -/
def State.cwAdds (s : State) (l : List Nat) : State := l.foldl (fun s c => s.scratchAdds (16 * c) 16) s
/-- A write at a scratch bank; a codeword written in part is read and checked first. -/
def State.scratchWrite (s : State) (a : Nat) (bs : List Byte) (poison : Bool := false) : State :=
  let s := s.scratchAdds a bs.length
  let s := s.checkCws (scratchBlk a) F.CLUS.SCRATCH_CE.COUNT 0 (partCws a bs.length)
  { s with mem := s.mem.writeP a bs poison }

/-! ### Loads, stores, atomics (R57, R66, R73) -/

/-- An access that starts in a core's scratch and passes its end. -/
def passesScratch (a n : Nat) : Bool :=
  match region a with
  | .scratch c => decide (scratchAddr (c + 1) 0 < a + n)
  | _ => false
def isRegs (a : Nat) : Bool :=
  match region a with
  | .regs _ _ => true
  | _ => false
/-- Whether the core splits an access into two requests: it crosses a 64 B block outside the register blocks. -/
def splits (a n : Nat) : Bool := !isRegs a && decide (64 < a % 64 + n)
/-- The address at which an access is rejected at issue (R25, R57); `none`: it may go out. -/
def rejectedAt (a n : Nat) (amo : Bool) : Option Nat :=
  if !mapped a amo then some a
  else if splits a n && !mapped (a / 64 * 64 + 64) amo then some (a / 64 * 64 + 64)
  else none
/-- An address in a register block whose number Table 1.9 does not list: the interface answers all ones and ignores
writes (R27). -/
def unlisted (a : Nat) : Bool :=
  match region a with
  | .regs n _ => (blockKind n).isNone
  | _ => false
/-- The requests of an access: one, or two when it is split. -/
def State.sendAccess (s : State) (k : Nat) (op : ReqOp) (a n data : Nat) : State :=
  if splits a n then
    let n1 := 64 - a % 64
    (s.sendReq k op a n1 0 (data % 2 ^ (8 * n1)) 0).sendReq k op (a + n1) (n - n1) n1 (data / 2 ^ (8 * n1)) 0
  else s.sendReq k op a n 0 data 0

/-- The effect of a load that issues. -/
def State.load (s : State) (t : Tid) (rd a n : Nat) (sx : Bool) : Option State :=
  let k := t.key
  if passesScratch a n then some (s.coreFault k 0x03 a)
  else if unlisted a then
    some (((s.fabReject a false).setThread k ((s.thread k).setXn rd (loadExt n (2 ^ (8 * n) - 1) sx).toNat)).pcNext k)
  else match rejectedAt a n false with
    | some b => some ((s.fabReject b false).coreFault k 0x04 b)
    | none =>
      if region a = .scratch t.core.val then
        if s.heldScratch k (a % 0x40000) n false || s.heldFabric k a n false then none
        else
          let s := s.scratchAdds a n
          let p := s.mem.poisoned a n
          let s' := s.scratchCheck a n
          some (if p then s'.coreFault k 0x07 a
            else (s'.setThread k ((s'.thread k).setXn rd (loadExt n (s.mem.readNat a n) sx).toNat)).pcNext k)
      else if s.heldFabric k a n false then none
      else
        let s := (s.sendAccess k .ld a n 0).pcNext k
        some (s.setThread k { s.thread k with st := .parked (.load rd sx n), parkedAt := s.clk.arith })
def execLd (t : Tid) (g : BitVec 4) (rd rb : BitVec 5) (sz : BitVec 2) (sx : Bool) (imm : BitVec 9) (s : State) :
    Host.Outcome State Fault Refusal :=
  .next (s.instr (.ld t g rd rb sz sx imm) t g (fun m =>
    m.load t rd.toNat (memAddr ((m.thread t.key).getX rb) imm sz).toNat (szBytes sz) sx))

/-- The unit whose SUBMIT an address names (R208, R261, R332, R362). -/
def submitUnit (a : Nat) : Option EUnit :=
  match region a with
  | .regs n off =>
    match blockKind n with
    | some .grind => if off = F.GRIND.SUBMIT.CMD.reg then some (.grind (4 * (n / 0x100) + n % 0x100 - 8)) else none
    | some .perc => if off = F.PERC.SUBMIT.CMD.reg then some (.perc ((n - 0x400) / 0x100)) else none
    | some .coll => if off = F.COLL.SUBMIT.CMD.reg then some (.coll ((n - 0x400) / 0x100)) else none
    | some .fm => if off = F.FM.SUBMIT.CMD.reg then some (.flash ((n - 0x400) / 0x100)) else none
    | _ => none
  | _ => none
/-- The quarter whose GRIND blocks hold an address. -/
def grindQ (a : Nat) : Option Nat :=
  match region a with
  | .regs n _ => if blockKind n = some .grind then some (n / 0x100) else none
  | _ => none
/-- The effect of a store that issues: one to a SUBMIT waits until the thread's earlier stores and AMOs have been
acknowledged; one to a GRIND block of a quarter outside the job is refused (R208). -/
def State.store (s : State) (t : Tid) (a n v : Nat) : Option State :=
  let k := t.key
  if passesScratch a n then some (s.coreFault k 0x03 a)
  else if (grindQ a).any (fun q => !bit (s.qmaskOf (s.thread k).job) q) then some (s.coreFault k 0x05 a)
  else if (submitUnit a).isSome && n == 8 && s.unacked k then none
  else if unlisted a then some ((s.fabReject a true).pcNext k)
  else match rejectedAt a n false with
    | some b => some ((s.fabReject b true).coreFault k 0x04 b)
    | none =>
      if region a = .scratch t.core.val then
        if s.heldScratch k (a % 0x40000) n true || s.heldFabric k a n true then none
        else some ((s.scratchWrite a (leBytes n v)).pcNext k)
      else if s.heldFabric k a n true then none
      else some ((s.sendAccess k .st a n (v % 2 ^ (8 * n))).pcNext k)
def execSt (t : Tid) (g : BitVec 4) (rs rb : BitVec 5) (sz : BitVec 2) (imm : BitVec 9) (s : State) :
    Host.Outcome State Fault Refusal :=
  .next (s.instr (.st t g rs rb sz imm) t g (fun m =>
    m.store t (memAddr ((m.thread t.key).getX rb) imm sz).toNat (szBytes sz) ((m.thread t.key).getX rs).toNat))

def modeRound (m : Nat) : Rnd := Rnd.ofCode (m % 4)
def modeDet (m : Nat) : Bool := bit m 2
def modeThresh (m : Nat) : Nat := m / 16
/-- The effect of an AMO that issues: it goes to its operand's home; with rd other than X0 the thread parks. An
ordered add must have rd = X0 (R247). -/
def State.amo (s : State) (t : Tid) (fn rd a v : Nat) : Option State :=
  let k := t.key
  let n := amoBytes fn
  if a % n ≠ 0 then some (s.coreFault k 0x03 a)
  else if fn = 0 ∧ modeDet (s.thread k).mode ∧ rd ≠ 0 then some (s.coreFault k 0x61 a)
  else match rejectedAt a n true with
    | some b => some ((s.fabReject b true).coreFault k 0x04 b)
    | none =>
      if (region a = .scratch t.core.val ∧ s.heldScratch k (a % 0x40000) n true) ∨ s.heldFabric k a n true then none
      else
        let s := (s.sendReq k (.amo fn) a n 0 (v % 2 ^ (8 * n)) rd).pcNext k
        some (if rd = 0 then s else s.setThread k { s.thread k with st := .parked (.amo rd), parkedAt := s.clk.arith })
def State.amoInstr (s : State) (i : Instr) (t : Tid) (g : BitVec 4) (fn : Nat) (rd rs1 rs2 : BitVec 5) : State :=
  s.instr i t g (fun m => m.amo t fn rd.toNat ((m.thread t.key).getX rs1).toNat ((m.thread t.key).getX rs2).toNat)
def execAmoFadd32 (t : Tid) (g : BitVec 4) (rd rs1 rs2 : BitVec 5) (s : State) : Host.Outcome State Fault Refusal :=
  .next (s.amoInstr (.amoFadd32 t g rd rs1 rs2) t g 0 rd rs1 rs2)
def execAmoFmin32 (t : Tid) (g : BitVec 4) (rd rs1 rs2 : BitVec 5) (s : State) : Host.Outcome State Fault Refusal :=
  .next (s.amoInstr (.amoFmin32 t g rd rs1 rs2) t g 1 rd rs1 rs2)
def execAmoFmax32 (t : Tid) (g : BitVec 4) (rd rs1 rs2 : BitVec 5) (s : State) : Host.Outcome State Fault Refusal :=
  .next (s.amoInstr (.amoFmax32 t g rd rs1 rs2) t g 2 rd rs1 rs2)
def execAmoOr32 (t : Tid) (g : BitVec 4) (rd rs1 rs2 : BitVec 5) (s : State) : Host.Outcome State Fault Refusal :=
  .next (s.amoInstr (.amoOr32 t g rd rs1 rs2) t g 3 rd rs1 rs2)
def execAmoOr64 (t : Tid) (g : BitVec 4) (rd rs1 rs2 : BitVec 5) (s : State) : Host.Outcome State Fault Refusal :=
  .next (s.amoInstr (.amoOr64 t g rd rs1 rs2) t g 4 rd rs1 rs2)

/-! ### Answers (R50, R57, R66) -/

def Req.isLd (r : Req) : Bool := r.op == .ld
/-- The requests of thread `k` that its return gathers. -/
def State.reqsOf (s : State) (k : Nat) (p : Req → Bool) : List Req :=
  s.fabric.reqs.filter (fun r => r.who == .thread k && p r)
def State.dropReqsOf (s : State) (k : Nat) (p : Req → Bool) : State :=
  { s with fabric := { s.fabric with reqs := s.fabric.reqs.filter (fun r => !(r.who == .thread k && p r)) } }
/-- The answers together: the code of a refusal, poison, the value gathered. -/
inductive Gathered where
  | refused (code addr : Nat)
  | poison (addr : Nat)
  | value (v : Nat)
  deriving DecidableEq, Repr

def gather : List Req → Gathered
  | [] => .value 0
  | r :: l =>
    match r.answer, gather l with
    | some (.refused c), _ => .refused c r.addr
    | _, .refused c a => .refused c a
    | some (.data v bad), g => if bad ≠ 0 then .poison r.addr else match g with
      | .value w => .value (v * 2 ^ (8 * r.off) + w)
      | _ => g
    | _, g => g

/-- Data or an old value reaches its thread: the register is written and the thread is READY, or the task aborts. What
returns for a stopped thread is discarded (R51). -/
def State.deliver (s : State) (k : Nat) (p : Req → Bool) (write : Nat → Thread → Thread) : State :=
  let rs := s.reqsOf k p
  let s' := s.dropReqsOf k p
  match gather rs with
  | .refused c a => if s.goneWindow a then s'.withdrawnFault k (s.thread k).faultPc a else s'.coreFault k c a
  | .poison a => s'.coreFault k 0x07 a
  | .value v => (s'.setThread k (write v (s'.thread k))).wakeThread k
def execLoadReturn (t : Tid) (s : State) : Host.Outcome State Fault Refusal :=
  .next (match (s.thread t.key).st with
    | .parked (.load rd sx n) =>
      if (s.reqsOf t.key Req.isLd).all s.answered then
        s.deliver t.key Req.isLd (fun v th => th.setXn rd (loadExt n v sx).toNat)
      else s
    | .stopped => s.dropReqsOf t.key (fun r => r.isLd && s.answered r)
    | _ => s)
def execAmoReturn (t : Tid) (s : State) : Host.Outcome State Fault Refusal :=
  .next (match (s.thread t.key).st with
    | .parked (.amo rd) =>
      let p (r : Req) : Bool := r.isAmo && r.rd != 0
      if (s.reqsOf t.key p).all s.answered then
        s.deliver t.key p (fun v th => th.setXn rd v)
      else s
    | .stopped => s.dropReqsOf t.key (fun r => r.isAmo && s.answered r)
    | _ => s)

/-! ### The end of a task (R51, R70, R128, R160) -/

def execTaskEnd (t : Tid) (g : BitVec 4) (s : State) : Host.Outcome State Fault Refusal :=
  .next (s.instr (.taskEnd t g) t g (fun s => some (s.setThread t.key { s.thread t.key with st := .ending })))
/-- Nothing of thread `k` is still to take effect: its stores, AMOs, tile and vector instructions. -/
def State.drained (s : State) (k : Nat) : Bool :=
  (s.reqsOf k (fun _ => true)).isEmpty && !(s.pends (k / 64)).any (fun p => p.thread == k)
/-- The contexts of a task that ended normally run on; one that holds no chain becomes FREE. -/
def Ctx.ownerEnd (c : Ctx) (k : Nat) : Ctx :=
  if c.owner = k ∧ !c.ownerEnded ∧ c.st ≠ .free then
    (if c.st = .owned then Ctx.init else { c with ownerEnded := true })
  else c
def State.endCtxs (s : State) (k : Nat) : State :=
  { s with ctxs := (s.ctxs.map (fun e => (e.1, e.2.ownerEnd k))).filter (fun e => e.2 != Ctx.init) }
/-- A flag leaves the core of thread `k` for the scheduler that its handle names (R159, R160). -/
def State.sendFlag (s : State) (k : Nat) (sender : Option Nat) (j : JobId) (h f : Nat) : State :=
  let m := s.sendMsg (threadIface k) (.quarter (h / 2 ^ 30 % 4))
  { m.2 with flagMsgs := m.2.flagMsgs ++ [⟨m.1, sender, j, h, f⟩] }
/-- The end is reported: the task's still bound accumulations are discarded, its successor flagged, its thread FREE. -/
def State.endTask (s : State) (k : Nat) : State :=
  let t := s.thread k
  let q := coreQ (k / 64)
  let s := ((s.dropArrays k).endCtxs k).bump (blkTSCHED q) F.TSCHED.TASKS_ENDED.COUNT
  let s := if t.succH = 0 then s
    else s.sendFlag k none t.job t.succH t.succF
  s.setThread k Thread.init
def execTaskEndReport (t : Tid) (s : State) : Host.Outcome State Fault Refusal :=
  .next (if (s.thread t.key).st = .ending ∧ s.drained t.key then s.endTask t.key else s)
/-- THREAD_FREE_AFTER_ABORT: every fabric request of the stopped thread has been answered. -/
def execThreadFreeAfterAbort (t : Tid) (s : State) : Host.Outcome State Fault Refusal :=
  .next (if (s.thread t.key).st = .stopped ∧ (s.reqsOf t.key (fun r => !s.answered r)).isEmpty then
    (s.dropReqsOf t.key (fun _ => true)).setThread t.key Thread.init
  else s)

/-! ### Starting a task (R48, R52, R155, R170) -/

/-- The waiting-time bin of R170. -/
def histBin (w : Nat) : Nat := if w < 32 then 0 else min (Nat.log2 w - 4) 15
/-- MODE_CURRENT as one number: ROUND, DETERMINISTIC, SPARSE_DENSE_THRESH. -/
def State.modeNow (s : State) : Nat :=
  s.fget blkMODE F.MODE.MODE_CURRENT.ROUND + 4 * s.fget blkMODE F.MODE.MODE_CURRENT.DETERMINISTIC +
    16 * s.fget blkMODE F.MODE.MODE_CURRENT.SPARSE_DENSE_THRESH
/-- A thread as the start of a task leaves it (R48). -/
def State.startThread (s : State) (e : Entry) : Thread :=
  let arg := match s.job? e.job with
    | some j => j.arg
    | none => 0
  let t := { Thread.init with st := .ready, pc := BitVec.ofNat 64 e.trec.entry }
  let t := ((t.setXn 1 e.addr).setXn 2 arg).setXn 3 e.trec.argw
  { t with recAddr := e.addr, job := e.job, cls := e.trec.cls, level := e.trec.level, succH := e.trec.succH,
           succF := e.trec.succF, argw := e.trec.argw, modeSens := e.trec.modeSens, epoch := s.fget blkMODE F.MODE.MODE_EPOCH.EPOCH,
           mode := s.modeNow, started := s.clk.arith, parkedAt := s.clk.arith }
def State.freeThread (s : State) (core : Nat) : Option Nat :=
  (List.range 64).find? (fun i => (s.thread (core * 64 + i)).st == .free)
/-- The task of entry `ek` starts on thread `k`: the entry is freed, NEXT moves into RUN, the cache is invalidated when
the job is another than that of the last start. -/
def State.startTask (s : State) (core ek k : Nat) : State :=
  let q := coreQ core
  let e := s.entry ek
  let c := s.core core
  let keep := c.lastJob = some e.job
  let c' : Core := { c with run := c.next, next := none, lastJob := some e.job, busyAt := s.clk.arith, gated := false,
                            icache := if keep then c.icache else [], icPoison := if keep then c.icPoison else [] }
  let b := 8 * histBin (s.clk.arith - e.ready.getD s.clk.arith)
  let s := (s.setThread k (s.startThread e)).setCore core c'
  let s := (s.freeEntry ek).bump (blkTSCHED q) F.TSCHED.TASKS_STARTED.COUNT
  if e.trec.cls = 0 then s.bump (blkTSCHED q) F.TSCHED.HIST_LAT.COUNT b
  else s.bump (blkTSCHED q) F.TSCHED.HIST_BULK.COUNT b
def execTaskStart (core : Fin 4096) (s : State) : Host.Outcome State Fault Refusal :=
  .next (match (s.core core.val).run, s.freeThread core.val with
    | some e, some i => if s.alive then s.startTask core.val e (core.val * 64 + i) else s
    | _, _ => s)

/-! ### Fetching and gating (R53, R63, R76) -/

/-- A line enters the cache: in an empty way of its set, else in a way that the spec leaves open (log entry 13). `v`, `bad`:
its 128 bytes as a number, its poison codewords. -/
def State.fillLine (s : State) (core pc v bad : Nat) : State :=
  let line := icacheLine pc
  let set := line % 128
  let c := s.core core
  let put (s : State) (way : Nat) : State :=
    s.setCore core { s.core core with
      icache := Sparse.put ILine.init c.icache (set * 4 + way)
        ⟨line + 1, (List.range 32).map (fun i => BitVec.ofNat 32 (v >>> (32 * i)))⟩
      icPoison := (c.icPoison.filter (fun w => w / 8 != line)) ++
        ((List.range 8).filter (fun i => bit bad i)).map (fun i => line * 8 + i) }
  match (List.range 4).find? (fun w => (Sparse.get ILine.init c.icache (set * 4 + w)).line == 0) with
  | some w => put s w
  | none =>
    let r := s.fresh
    put r.2 (r.1.toNat % 4)
def Req.isFetch (r : Req) : Bool := r.op == .fetch
/-- The two halves of a line as its requests have brought them: the bytes, the poison codewords; none: a home refused. -/
def gatherLine : List Req → Option (Nat × Nat)
  | [] => some (0, 0)
  | r :: l =>
    match r.answer, gatherLine l with
    | some (.data v bad), some g => some (v * 2 ^ (8 * r.off) + g.1, bad * 2 ^ (r.off / 16) + g.2)
    | _, _ => none
/-- An instruction-cache miss (R50, R63): the thread parks, and its line is asked for in two LAT reads. Only the stack region is
fetched from. -/
def State.fetchMiss (s : State) (k : Nat) : State :=
  let pc := (s.thread k).pc.toNat
  if (s.thread k).st = .ready ∧ !(s.core (k / 64)).holdsPc pc then
    (match region pc with
      | .stack _ =>
        let a := icacheLine pc * 128
        let s := (s.sendReq k .fetch a 64 0 0 0).sendReq k .fetch (a + 64) 64 64 0 0
        s.setThread k { s.thread k with st := .parked .fetch, parkedAt := s.clk.arith }
      | _ => s)
  else s
/-- A thread that reaches an instruction outside the stacks, or in a codeword that is poison (R63). -/
def State.fetchFault (s : State) (k : Nat) : State :=
  let pc := (s.thread k).pc.toNat
  (if mapped pc false then s else s.fabReject pc false).coreFault k 0x02 pc
/-- ICACHE_FILL (R63): the line has come and its thread is READY; an instruction that cannot be fetched aborts the task. -/
def State.icacheFillDo (s : State) (k : Nat) : State :=
  let pc := (s.thread k).pc.toNat
  match (s.thread k).st with
  | .parked .fetch =>
    let rs := s.reqsOf k Req.isFetch
    if !rs.all s.answered then s
    else
      let s := s.dropReqsOf k Req.isFetch
      let c := s.core (k / 64)
      if c.stale.contains k then (s.setCore (k / 64) { c with stale := c.stale.filter (· != k) }).wakeThread k
      else match gatherLine rs with
      | none => s.fetchFault k
      | some (v, bad) =>
        let s := s.fillLine (k / 64) pc v bad
        if (s.core (k / 64)).fetched pc then s.wakeThread k else s.fetchFault k
  | .ready =>
    let inStacks := match region pc with
      | .stack _ => true
      | _ => false
    if s.alive ∧ (!inStacks ∨ ((s.core (k / 64)).holdsPc pc ∧ !(s.core (k / 64)).fetched pc)) then s.fetchFault k else s
  | .stopped => s.dropReqsOf k (fun r => r.isFetch && s.answered r)
  | _ => s
def execIcacheFill (t : Tid) (s : State) : Host.Outcome State Fault Refusal := .next (s.icacheFillDo t.key)
/-- The core is idle as R53 asks: no thread READY or STALLED, queues empty, no drain writing, nothing to
start. -/
def State.coreIdle (s : State) (core : Nat) : Bool :=
  let c := s.core core
  (List.range 64).all (fun i => match (s.thread (core * 64 + i)).st with
    | .ready => false
    | .stalled _ => false
    | .held => false
    | _ => true) &&
  (List.range 4).all (fun a => (s.arr (arrKey core a)).queue.isEmpty && (s.arr (arrKey core a)).shadow.isNone) &&
  (s.vec core).isEmpty && (c.run.isNone || (s.freeThread core).isNone)
def execCoreGate (core : Fin 4096) (s : State) : Host.Outcome State Fault Refusal :=
  let c := s.core core.val
  .next (if s.fbit (blkCLUS (coreCl core.val)) F.CLUS.CLUS_CTL.GATE_ENABLE ∧ s.coreIdle core.val ∧
      c.busyAt + 8 < s.clk.arith then
    s.setCore core.val { c with gated := true }
  else s)
/-- ICACHE_INV (R76): the instruction caches of cluster `cl` hold nothing; a line that is on its way completes and is then invalid. -/
def State.icacheInvDo (s : State) (cl : Fin 64) : State :=
  ((List.range 64).foldl (fun s i =>
    let k := cl.val * 64 + i
    s.setCore k { s.core k with icache := [], icPoison := [], stale :=
      ((List.range 64).map (64 * k + ·)).filter (fun t => (s.thread t).st == .parked .fetch) }) s)

end Sys2Proof.Machine
end

