-- ==== Sys2Proof/Machine/Tile.lean ====
section
/-! DEFINITION. Arrays: queueing and binding (R70), the checks and products of TMMA and TSMMA (R68, R81-R84, R108-R112),
segments (R86), the drain and its conversions (R69, R88-R92), digests (R97-R99), stealing (R122, R123). -/

namespace Sys2Proof.Machine

/-! ### Digests -/

/-- One byte into the CRC-64 of R97: most significant bit first, no reflection. -/
def crc64Byte (c : Nat) (b : Byte) : Nat :=
  (List.range 8).foldl (fun c _ =>
    let sh := c * 2 % 2 ^ 64
    if c.testBit 63 then sh ^^^ 0x42F0E1EBA9EA3693 else sh) (c ^^^ (b.toNat * 2 ^ 56))
def crc64 (bs : List Byte) : Nat := bs.foldl crc64Byte 0
/-- A contribution reaches slot `slot` of quarter `q` (R98); the slot's record of this CTRL cycle takes it too. -/
def State.digest (s : State) (q slot : Nat) (bs : List Byte) : State :=
  let b := blkDIGEST q
  let ix := 0x10 * slot
  let k := 64 * q + slot
  let d := Sparse.get DigNew.init s.digNew k
  let old : DigNew := if d.at_ = s.ctrl + 1 then d else DigNew.init
  let s := { s with digNew := Sparse.put DigNew.init s.digNew k ⟨s.ctrl + 1, old.v ^^^ crc64 bs, old.n + 1⟩ }
  (s.fset b F.DIGEST.DIGEST.VALUE (s.fget b F.DIGEST.DIGEST.VALUE ix ^^^ crc64 bs) ix).bump b F.DIGEST.DCOUNT.COUNT ix
/-- A clear leaves the contributions of its own CTRL cycle (R99). -/
def State.clearSlot (s : State) (q slot : Nat) : State :=
  let d := Sparse.get DigNew.init s.digNew (64 * q + slot)
  let old : DigNew := if d.at_ = s.ctrl + 1 then d else DigNew.init
  (s.fset (blkDIGEST q) F.DIGEST.DIGEST.VALUE old.v (0x10 * slot)).fset (blkDIGEST q) F.DIGEST.DCOUNT.COUNT old.n (0x10 * slot)
def State.clearDo (s : State) (q : Fin 4) (slot : Fin 64) : State :=
  (s.clearSlot q.val slot.val)
def State.clearAllDo (s : State) (q : Fin 4) : State :=
  ((List.range 64).foldl (fun s i => s.clearSlot q.val i) s)

/-! ### Issue (R70) -/

/-- The queue without the undrained accumulation that a START discards: what follows the last drain. -/
def dropUndrained : List TileOp → List TileOp
  | [] => []
  | o :: l => if (o :: l).any (fun x => x.kind == .drain) then o :: dropUndrained l else []
def Arr.restart (x : Arr) : Arr :=
  let q := dropUndrained x.queue
  if q.isEmpty then { x with queue := [], live := none, cells := [], segCount := 0, segs := 0, hasInt := false, hasFlt := false }
  else { x with queue := q }
def State.park (s : State) (k : Nat) (p : Park) : State := s.setThread k { s.thread k with st := .parked p, parkedAt := s.clk.arith }
/-- TMMA or TSMMA issues: binding first, then room in the queue. -/
def State.tileIssue (s : State) (t : Tid) (kind : TileKind) (a b : Nat) (arr : Nat) (start : Bool) : State :=
  let k := t.key
  let ak := arrKey t.core.val arr
  let x := s.arr ak
  if start then
    if x.bound ≠ none ∧ x.bound ≠ some k then s.park k (.arrayBound arr)
    else
      let again := x.bound = some k
      let s := if again then (s.setArr ak x.restart).countDiscard t.core.val 1 else s
      let x := s.arr ak
      if 4 ≤ x.queue.length then s.park k (.arrayFull arr)
      else
        let sq := s.takeSeq
        let o : TileOp := ⟨kind, t.core.val, k, (s.thread k).job, a, b, 0, true, sq.1, (s.thread k).mode, (s.thread k).pc.toNat, 0⟩
        (sq.2.setArr ak { x with queue := x.queue ++ [o], bound := some k }).pcNext k
  else if x.bound ≠ some k then s.coreFault k 0x06
  else if 4 ≤ x.queue.length then s.park k (.arrayFull arr)
  else
    let sq := s.takeSeq
    let o : TileOp := ⟨kind, t.core.val, k, (s.thread k).job, a, b, 0, false, sq.1, (s.thread k).mode, (s.thread k).pc.toNat, 0⟩
    (sq.2.setArr ak { x with queue := x.queue ++ [o] }).pcNext k
def execTmma (t : Tid) (g : BitVec 4) (xa xb : BitVec 5) (a : Fin 4) (start : Bool) (s : State) : Host.Outcome State Fault Refusal :=
  .next (s.instr (.tmma t g xa xb a start) t g (fun m =>
    let th := m.thread t.key
    some (m.tileIssue t .mma (th.getX xa).toNat (th.getX xb).toNat a.val start)))
def execTsmma (t : Tid) (g : BitVec 4) (xa xb : BitVec 5) (a : Fin 4) (start : Bool) (s : State) : Host.Outcome State Fault Refusal :=
  .next (s.instr (.tsmma t g xa xb a start) t g (fun m =>
    let th := m.thread t.key
    some (m.tileIssue t .smma (th.getX xa).toNat (th.getX xb).toNat a.val start)))
/-- The DEN bit of an output descriptor (Table 3.10). -/
def odDen (d : Nat) : Bool := bit d 44
/-- TDRAIN issues: it unbinds the array. -/
def State.drainIssue (s : State) (t : Tid) (d b b2 : Nat) (arr : Nat) : State :=
  let k := t.key
  let ak := arrKey t.core.val arr
  let x := s.arr ak
  if x.bound ≠ some k then s.coreFault k 0x06
  else if 4 ≤ x.queue.length then s.park k (.arrayFull arr)
  else
    let sq := s.takeSeq
    let o : TileOp := ⟨.drain, t.core.val, k, (s.thread k).job, d, b, b2, false, sq.1, (s.thread k).mode, (s.thread k).pc.toNat, 0⟩
    ((sq.2.setArr ak { x with queue := x.queue ++ [o], bound := none }).wakeParked t.core.val (.arrayBound arr)).pcNext k
def execTdrain (t : Tid) (g : BitVec 4) (xa xb : BitVec 5) (a : Fin 4) (s : State) : Host.Outcome State Fault Refusal :=
  .next (s.instr (.tdrain t g xa xb a) t g (fun m =>
    let th := m.thread t.key
    let d := (th.getX xa).toNat
    some (if odDen d ∧ xb = 31 then m.coreFault t.key 0x01
      else m.drainIssue t d (th.getX xb).toNat (th.getX (xb + 1)).toNat a.val)))

/-! ### Checks at the head (R68, R69, R108) -/

/-- No byte of the spans lies beyond 0x3_FFFF; a span of no bytes reads none. -/
def spansFit (l : List Span) : Bool := l.all (fun x => x.n == 0 || decide (x.off + x.n ≤ 0x40000))
def tdOk (d : Nat) : Bool :=
  bits d 44 20 == 0 && bits d 0 4 == 0 && tdStride d != 0 && tdFmt d ≤ 8 && spansFit (tdSpans d)
/-- Formats that pair (R68). -/
def fmtPair (a b : Nat) : Bool :=
  a == b || (a == 3 && b == 4) || (a == 4 && b == 3) || (a == 6 && b == 7) || (a == 7 && b == 6)
def odOk (d : Nat) (hasInt hasFlt : Bool) : Bool :=
  let f := tdFmt d
  bits d 51 13 == 0 && bits d 32 8 == 0 && bits d 0 4 == 0 && tdStride d != 0 && (f ≤ 4 || f == 8) &&
    spansFit (odSpans d) && (if f = 8 then !hasFlt else !hasInt)

/-- The fields of a sparse tile's header (Table 5.1). -/
structure SHdr where
  form : Nat
  vfmt : Nat
  kslots : Nat
  ncurd : Nat
  meta_ : Nat
  val : Nat
  trow : Nat
  tcol : Nat
  rsv : Bool
  deriving DecidableEq, Repr

/-- A header from its 64 bytes as a number. -/
def sHdr (v : Nat) : SHdr :=
  ⟨bits v 0 8, bits v 8 8, bits v 16 8, bits v 32 16, bits v 64 32, bits v 96 32, bits v 128 32, bits v 160 32,
    bits v 24 8 != 0 || bits v 48 16 != 0 || bits v 224 288 != 0⟩
def sizeOf (vfmt : Nat) : Nat := if vfmt = 0 then 4 else if vfmt ≤ 2 then 2 else 1

def sdHdr (d : Nat) : Nat := bits d 0 18
def sdVal (d : Nat) : Nat := bits d 18 18
def sdBand (d : Nat) : Nat := bits d 36 6
def sdGroup (d : Nat) : Nat := bits d 42 6
def sdMask (d : Nat) : Bool := bit d 48
def scrNat (s : State) (core off n : Nat) : Nat := s.mem.readNat (scratchAddr core off) n
def State.opHdr (s : State) (o : TileOp) : SHdr := sHdr (scrNat s o.core (sdHdr o.a) 64)
/-- Row pointer `b` of a Curd CSR tile at scratch offset `hdr` (R105). -/
def csrPtr (s : State) (core hdr b : Nat) : Nat := scrNat s core (hdr + 64 + 2 * b) 2
/-- Curds of the band (R109). -/
def csrCnt (s : State) (o : TileOp) : Nat :=
  let b := sdBand o.a
  (csrPtr s o.core (sdHdr o.a) (b + 1) + 0x10000 - csrPtr s o.core (sdHdr o.a) b) % 0x10000
/-- The bytes a TSMMA reads (R108, R109). -/
def sReads (s : State) (o : TileOp) : List Span :=
  let h := s.opHdr o
  let hd := sdHdr o.a
  let v := sdVal o.a
  let b := sdBand o.a
  let sz := sizeOf h.vfmt
  let metaK : Span := ⟨hd + 64 + 192 * h.kslots * b, 192 * h.kslots⟩
  if sdMask o.a then
    metaK :: (List.range 8).map (fun i => ⟨v + i * tdStride o.b * 16, elemBytes (tdFmt o.b) (tdK o.b)⟩)
  else if h.form = 0 then
    let c := csrCnt s o
    [⟨hd + 64 + 2 * b, 4⟩, ⟨hd + 64 + 144 + 2 * csrPtr s o.core hd b, 2 * c⟩, ⟨v, c * 64 * sz⟩]
  else if h.form = 1 then [metaK, ⟨v, 512 * h.kslots * sz⟩]
  else [⟨v, 8 * 512 * sz⟩]
def sdOk (s : State) (o : TileOp) : Bool :=
  let d := o.a
  let h := s.opHdr o
  bits d 49 15 == 0 && bits d 0 6 == 0 && bits d 18 4 == 0 && (sdMask d || sdGroup d == 0) &&
    decide (sdHdr d + 64 ≤ 0x40000) && h.form ≤ 2 && h.vfmt ≤ 5 && !h.rsv &&
    (if h.form = 1 then h.kslots == 1 || h.kslots == 2 || h.kslots == 4 else h.kslots == 0) && h.ncurd ≤ 4096 &&
    (if sdMask d then h.form == 1 && !isMX (tdFmt o.b)
     else bits o.b 32 8 == 16 && fmtPair h.vfmt (tdFmt o.b)) && tdOk o.b && spansFit (sReads s o)
def mmaOk (o : TileOp) : Bool :=
  tdOk o.a && tdOk o.b && fmtPair (tdFmt o.a) (tdFmt o.b) && bits o.a 32 8 == bits o.b 32 8

/-! ### Products (R77-R84, R111, R112) -/

/-- The value of an element of an operand format (Table 4.1). -/
def elemVal (fmt v : Nat) : FV :=
  if fmt = 0 then ofFP32 v else if fmt = 1 then ofBF16 v else if fmt = 2 then ofFP16 v
  else if fmt = 3 ∨ fmt = 6 then ofE4M3 v else if fmt = 4 ∨ fmt = 7 then ofE5M2 v else if fmt = 8 then ofE2M1 v
  else .nan
/-- Element `k` of the line at scratch offset `off`. -/
def elemCode (s : State) (core off fmt k : Nat) : Nat :=
  if fmt = 8 then bits (scrNat s core (off + k / 2) 1) (4 * (k % 2)) 4
  else scrNat s core (off + elemBytes fmt k) (elemBytes fmt 1)
/-- The value times the shared scale of its block (R79). -/
def scaled (x : Nat) (v : FV) : FV :=
  if x = 0xFF then .nan
  else match v with
    | .fin n m e => .fin n m (e + (x : Int) - 127)
    | v => v
/-- Element `k` of line `i` of a tile operand, with its scale. -/
def tdElem (s : State) (core d i k : Nat) : FV :=
  let v := elemVal (tdFmt d) (elemCode s core (tdOffset d + i * tdStride d * 16) (tdFmt d) k)
  if isMX (tdFmt d) then scaled (scrNat s core (tdOffset d + 128 * tdStride d + i * (tdK d / 32) + k / 32) 1) v else v

/-- The operands of a product: float values, or INT8 codes. -/
inductive Prod where
  | flt (a b : FV)
  | int (a b : Nat)
  | none
  deriving DecidableEq, Repr

/-- One element as a float value or, for INT8, its code. -/
inductive El where
  | f (v : FV)
  | i (v : Nat)
  deriving DecidableEq, Repr
def Prod.of (a b : El) : Prod :=
  match a, b with
  | .f x, .f y => .flt x y
  | .i x, .i y => .int x y
  | _, _ => .none
def tdEl (s : State) (core d i k : Nat) : El :=
  if tdFmt d = 5 then .i (elemCode s core (tdOffset d + i * tdStride d * 16) 5 k) else .f (tdElem s core d i k)
def elOf (fmt code : Nat) : El := if fmt = 5 then .i code else .f (elemVal fmt code)
def zeroEl (fmt : Nat) : El := if fmt = 5 then .i 0 else .f (.zero false)

/-- The index of slot `sl` of group `q` of row `r` of a K-of-8 tile (R106). -/
def k8Idx (s : State) (core hdr k r q sl : Nat) : Nat :=
  let p := 3 * (q * k + sl)
  let base := hdr + 64 + r * 24 * k
  bits (scrNat s core (base + p / 8) 2) (p % 8) 3

/-- Whether a TSMMA runs on the dense path (R112). -/
def denseCsr (h : SHdr) (mode : Nat) : Bool := modeThresh mode ≤ 64 && 64 * modeThresh mode ≤ h.ncurd
/-- How many products each cell takes from an instruction (Table 5.3). -/
def opCount (s : State) (o : TileOp) : Nat :=
  match o.kind with
  | .mma => tdK o.a
  | .drain => 0
  | .smma =>
    let h := s.opHdr o
    if sdMask o.a then tdK o.b
    else if h.form = 0 then (if denseCsr h o.mode then 512 else 8 * csrCnt s o)
    else if h.form = 1 then 64 * h.kslots
    else 512
/-- The product of cell (i, j) at step `t` of an instruction (Table 5.3). -/
def opProd (s : State) (o : TileOp) (i j t : Nat) : Prod :=
  match o.kind with
  | .drain => .none
  | .mma => .of (tdEl s o.core o.a i t) (tdEl s o.core o.b j t)
  | .smma =>
    let h := s.opHdr o
    let hd := sdHdr o.a
    let v := sdVal o.a
    let sz := sizeOf h.vfmt
    let val (n : Nat) : El := elOf h.vfmt (scrNat s o.core (v + n * sz) sz)
    let col (m : Nat) : Nat := scrNat s o.core (hd + 64 + 144 + 2 * (csrPtr s o.core hd (sdBand o.a) + m)) 2 % 64
    if sdMask o.a then
      if j < h.kslots then
        let d := setBits o.b 0 18 v
        .of (tdEl s o.core d i t) (tdEl s o.core o.b (k8Idx s o.core hd h.kslots (8 * sdBand o.a + i) (sdGroup o.a) j) t)
      else .none
    else if h.form = 0 then
      if denseCsr h o.mode then
        -- the last curd of the band that names this block-column stands there
        match ((List.range (csrCnt s o)).reverse).find? (fun m => col m == t / 8) with
        | some m => .of (val (64 * m + 8 * i + t % 8)) (tdEl s o.core o.b j t)
        | none => .of (zeroEl h.vfmt) (tdEl s o.core o.b j t)
      else .of (val (64 * (t / 8) + 8 * i + t % 8)) (tdEl s o.core o.b j (8 * col (t / 8) + t % 8))
    else if h.form = 1 then
      let k := h.kslots
      .of (val (i * 64 * k + t)) (tdEl s o.core o.b j (8 * (t / k) + k8Idx s o.core hd k (8 * sdBand o.a + i) (t / k) (t % k)))
    else .of (val (512 * i + t)) (tdEl s o.core o.b j t)

/-- The accumulator's own addition: exact, then to 40 bits, to nearest even (R83). -/
def accAdd (m e : Int) (neg : Bool) (pm : Nat) (pe : Int) : Int × Int :=
  let d := Dy.add ⟨m, e⟩ ⟨if neg then -(pm : Int) else (pm : Int), pe⟩
  if d.m = 0 then (0, 0)
  else
    let r := roundAt .rne 40 (-100000) (decide (d.m < 0)) d.m.natAbs d.e
    (if d.m < 0 then -(r.1 : Int) else (r.1 : Int), r.2)
/-- One INT8 product, saturating (R88). -/
def satAdd (x : Int) (a b : Nat) : Int × Bool :=
  let v := x + sextInt 8 a * sextInt 8 b
  if 2147483647 < v then (2147483647, true) else if v < -2147483648 then (-2147483648, true) else (v, false)
/-- A cell takes one product (R83, R84, R88). -/
def Cell.take (c : Cell) (p : Prod) : Cell :=
  match p with
  | .none => c
  | .int a b =>
    let r := satAdd c.i32 a b
    { c with i32 := r.1, sat := c.sat || r.2, some_ := true }
  | .flt a b =>
    match a.mul b with
    | .nan => { c with nan := true, some_ := true, negz := false }
    | .inf n =>
      let pi := c.pinf || !n
      let ni := c.ninf || n
      { c with pinf := pi, ninf := ni, nan := c.nan || (pi && ni), some_ := true, negz := false }
    | .zero n => { c with some_ := true, negz := c.negz && n }
    | .fin n m e =>
      let r := accAdd c.m c.e n m e
      { c with m := r.1, e := r.2, some_ := true, negz := false }
def Arr.cell (x : Arr) (n : Nat) : Cell := x.cells.getD n Cell.zero
/-- Every cell takes the products of steps `[done, done + n)`. -/
def State.products (s : State) (x : Arr) (o : TileOp) (n : Nat) : List Cell :=
  (List.range 64).map (fun c =>
    (List.range n).foldl (fun cell t => cell.take (opProd s o (c / 8) (c % 8) (o.done + t))) (x.cell c))

def opIsInt (o : TileOp) : Bool := tdFmt o.b == 5
/-- The codewords that an instruction's operands stand in. -/
def opCws (s : State) (o : TileOp) : List Nat :=
  let sp : List Span := match o.kind with
    | .mma => tdSpans o.a ++ tdSpans o.b
    | .smma => ⟨sdHdr o.a, 64⟩ :: (sReads s o ++ tdSpans o.b)
    | .drain => []
  sp.flatMap (fun x => cws (scratchAddr o.core x.off) x.n)

/-- R73 between queues: nothing earlier of the same thread stands in the way of this operation's bytes. -/
def State.headFree (s : State) (o : Pend) : Bool :=
  !(s.pends o.core).any (fun p => p.thread == o.thread && decide (p.seq < o.seq) &&
    (p.holds o.rd false || p.holds o.wr true)) && !s.heldByReq o
/-- Segments hold at most 2^20 products (R86). -/
def segLimit : Nat := 0x100000

/-- A checked TMMA or TSMMA runs until it ends or its segment is full. -/
def State.runTile (s : State) (core a : Nat) (x : Arr) (o : TileOp) (rest : List TileOp) : State :=
  let ak := arrKey core a
  let fresh := o.start && o.done == 0
  let x := if fresh then { x with cells := [], live := some o.thread, segCount := 0, segs := 0, hasInt := false, hasFlt := false } else x
  let total := opCount s o
  let n := if opIsInt o then total - o.done else min (total - o.done) (segLimit - x.segCount)
  let x' : Arr := { x with
    cells := s.products x o n
    segCount := if opIsInt o then x.segCount else x.segCount + n
    hasInt := x.hasInt || opIsInt o
    hasFlt := x.hasFlt || !opIsInt o
    busyAt := s.clk.arith }
  let s := if o.kind = .smma ∧ o.done = 0 ∧ n ≠ 0 ∧ !sdMask o.a ∧ (s.opHdr o).form = 0 ∧ denseCsr (s.opHdr o) o.mode then
      s.bump (blkPRESS (coreCl o.core)) F.PRESS.DENSE_PATH_COUNT.COUNT else s
  if o.done + n = total then
    ((s.setArr ak { x' with queue := rest }).touch core).wakeParked core (.arrayFull a)
  else (s.setArr ak { x' with queue := { o with done := o.done + n } :: rest }).touch core

/-- A checked instruction reads its operands: poison aborts its task, corrected codewords are counted, and it runs. -/
def State.tileGo (s : State) (core a : Nat) (x : Arr) (o : TileOp) (rest : List TileOp) (ce : Nat) (bad : Bool) : State :=
  let l := opCws s o
  let poison := l.any (fun c => s.mem.cw c == .poison || s.mem.cw c == .bad)
  let s := s.checkCws (blkCLUS (coreCl o.core)) F.CLUS.SCRATCH_CE.COUNT 0 l
  let s := (List.range ce).foldl (fun s _ => s.corrected (blkDIGEST (coreQ core)) F.DIGEST.OPERAND_CE.COUNT 0
    (scratchAddr o.core 0) 0) s
  if poison || bad then s.coreFaultAt o.thread 0x07 o.pc else s.runTile core a x o rest
/-- ARRAY_QUEUE_HEAD: the instruction at the head is checked (R68, R69, R81, R108); a TMMA or TSMMA takes its products,
a TDRAIN then waits for the shadow set. The banks check the operand codewords they read (R54); `ce` codewords reach the
operand registers with one bad symbol, and `bad` says that one reaches them beyond correction (R81). -/
def State.queueHead (s : State) (core a ce : Nat) (bad : Bool) : State :=
  let x := s.arr (arrKey core a)
  match x.queue with
  | [] => s
  | o :: rest =>
    if !s.enabled || !s.headFree (s.pendTile o) then s
    else
      -- the header first, then what it names
      let s := s.cwAdds (opCws s o)
      let s := s.cwAdds (opCws s o)
      match o.kind with
      | .drain =>
        if odOk o.a x.hasInt x.hasFlt then
          s.setArr (arrKey core a) { x with queue := { o with done := 1 } :: rest }
        else s.coreFaultAt o.thread 0x05 o.pc
      | .mma =>
        if o.done = 0 ∧ !mmaOk o then s.coreFaultAt o.thread 0x05 o.pc else s.tileGo core a x o rest ce bad
      | .smma =>
        if o.done = 0 ∧ !sdOk s o then s.coreFaultAt o.thread 0x05 o.pc else s.tileGo core a x o rest ce bad
def execArrayQueueHead (core : Fin 4096) (a : Fin 4) (ce : Nat) (bad : Bool) (s : State) : Host.Outcome State Fault Refusal :=
  .next (s.queueHead core.val a.val ce bad)

/-! ### Segments and the drain (R85-R92) -/

def Cell.acc (c : Cell) : FV :=
  if c.m = 0 then .zero false else .fin (decide (c.m < 0)) c.m.natAbs c.e
/-- A segment sum as FP32: one that overflows is ±Infinity under every mode (R87). -/
def segFP32 (r : Rnd) (v : FV) : Nat :=
  match v with
  | .fin neg m e => if 129 ≤ (bitLen m : Int) + e then signed 32 neg 0x7F800000 else toFP32 r v
  | _ => toFP32 r v
/-- The segment sum with the segment's value fused in. -/
def Cell.fold (c : Cell) (r : Rnd) : Nat := segFP32 r ((ofFP32 c.seg).add r c.acc)
def Cell.boundary (c : Cell) (r : Rnd) : Cell := { c with seg := c.fold r, m := 0, e := 0 }
/-- SEGMENT_BOUNDARY: the segment is full and its next product is queued. -/
def execSegmentBoundary (core : Fin 4096) (a : Fin 4) (s : State) : Host.Outcome State Fault Refusal :=
  let ak := arrKey core.val a.val
  let x := s.arr ak
  .next (match x.queue with
    | o :: _ =>
      if s.enabled ∧ x.segCount = segLimit ∧ o.kind ≠ .drain ∧ (!o.start ∨ o.done ≠ 0) ∧ !opIsInt o then
        s.setArr ak { x with cells := (List.range 64).map (fun c => (x.cell c).boundary (modeRound o.mode)),
                             segCount := 0, segs := x.segs + 1 }
      else s
    | [] => s)
/-- The FP32 result of a cell (R84, R89); a value that is exactly zero takes its sign from the products. Where an accumulation
without segments overflows under RTZ, RUP or RDN, R85 being stated for RNE, the result is IEEE 754's for the mode (log entry
53). -/
def Cell.result (c : Cell) (r : Rnd) (segs : Nat) : Nat :=
  if c.nan then nan32 else if c.pinf then 0x7F800000 else if c.ninf then 0xFF800000
  else
    let v := if segs = 0 then c.acc else (ofFP32 c.seg).add r c.acc
    if v.isZero then signed 32 (c.some_ && c.negz) 0 else if segs = 0 then toFP32 r v else segFP32 r v
/-- SHADOW_MOVE: the accumulation of a checked TDRAIN moves to the free shadow set. -/
def execShadowMove (core : Fin 4096) (a : Fin 4) (s : State) : Host.Outcome State Fault Refusal :=
  let ak := arrKey core.val a.val
  let x := s.arr ak
  .next (match x.queue, x.shadow with
    | o :: rest, none =>
      if s.enabled ∧ o.kind = .drain ∧ o.done = 1 then
        let int := tdFmt o.a == 8
        let out := (List.range 64).map (fun n =>
          let c := x.cell n
          if int then (BitVec.ofInt 32 c.i32).toNat else c.result (modeRound o.mode) x.segs)
        let sats := ((List.range 64).filter (fun n => (x.cell n).sat)).length
        ((s.setArr ak { x with queue := rest, live := none, cells := [], segCount := 0, segs := 0, hasInt := false,
                               hasFlt := false, busyAt := s.clk.arith,
                               shadow := some ⟨o, out, if x.segs = 0 then 0 else x.segs + 1, sats⟩ }).touch
          core.val).wakeParked core.val (.arrayFull a.val)
      else s
    | _, _ => s)

/-- Bytes of one value of an output format. -/
def outBytes (fmt : Nat) : Nat := if fmt = 0 ∨ fmt = 8 then 4 else if fmt ≤ 2 then 2 else 1
def outIsNan (fmt v : Nat) : Bool :=
  if fmt = 0 then isNan32 v else if fmt = 1 then v == 0x7FC0 else if fmt = 2 then v == 0x7E00
  else if fmt = 3 then v == 0x7F else if fmt = 4 then v == 0x7E else false
/-- Converted outputs, each with its saturation mark. -/
def Shadow.outs (sh : Shadow) : List (Nat × Bool) :=
  let f := tdFmt sh.op.a
  sh.out.map (fun v => if f = 8 then (v, false) else narrow f (modeRound sh.op.mode) v)
/-- The packed output bytes of row `i`. -/
def rowBytes (f : Nat) (outs : List (Nat × Bool)) (i : Nat) : List Byte :=
  (List.range 8).flatMap (fun j => leBytes (outBytes f) (outs.getD (8 * i + j) (0, false)).1)
def pad16 (bs : List Byte) : List Byte := bs ++ List.replicate (16 - bs.length) 0
/-- Narrowings that saturated, counted on a quarter (R90). -/
def State.countConv (s : State) (q n : Nat) : State :=
  if n = 0 then s
  else (s.fset (blkDIGEST q) F.DIGEST.ARITH_STATUS.CONV_SAT 1).bump (blkDIGEST q) F.DIGEST.CONV_SAT_COUNT.COUNT 0 n
/-- The shadow set's rows are written, its digest contribution and its counts made (R88-R92, R98). -/
def State.drainDone (s : State) (ak : Nat) (sh : Shadow) : State :=
  let x := s.arr ak
  let o := sh.op
  let f := tdFmt o.a
  let q := coreQ o.core
  let outs := sh.outs
  let s := (List.range 8).foldl (fun s i =>
    s.scratchWrite (scratchAddr o.core (tdOffset o.a + i * tdStride o.a * 16)) (pad16 (rowBytes f outs i))) s
  let s := s.countConv q (outs.filter (·.2)).length
  let s := if outs.any (fun v => outIsNan f v.1) then s.fset (blkDIGEST q) F.DIGEST.ARITH_STATUS.NAN_DRAINED 1 else s
  let s := if sh.sats = 0 ∨ f ≠ 8 then s
    else (s.fset (blkDIGEST q) F.DIGEST.ARITH_STATUS.SAT 1).bump (blkDIGEST q) F.DIGEST.SAT_COUNT.COUNT 0 sh.sats
  let s := if sh.segs = 0 then s
    else (s.fset (blkDIGEST q) F.DIGEST.ARITH_STATUS.SEGMENTED 1).bump (blkDIGEST q) F.DIGEST.ACC_SEGMENTS.COUNT 0 sh.segs
  let s := if odDen o.a then
      s.digest q (bits o.a 45 6) ((List.range 8).flatMap (rowBytes f outs) ++ leBytes 8 o.b ++ leBytes 8 o.b2) else s
  (s.setArr ak { x with shadow := none }).touch (ak / 4)
def execDrainComplete (core : Fin 4096) (a : Fin 4) (s : State) : Host.Outcome State Fault Refusal :=
  let ak := arrKey core.val a.val
  .next (match (s.arr ak).shadow with
    | some sh => if s.enabled then s.drainDone ak sh else s
    | none => s)

/-! ### Stealing (R122, R123) -/

/-- An entire accumulation that waits behind at least one entry: what stands before it, it, what follows. -/
def wholeAcc : List TileOp → Option (List TileOp × List TileOp × List TileOp)
  | [] => none
  | o :: l =>
    match l with
    | [] => none
    | p :: _ =>
      if p.start then
        match l.findIdx? (fun x => x.kind == .drain) with
        | some n => some ([o], l.take (n + 1), l.drop (n + 1))
        | none => none
      else (wholeAcc l).map (fun r => (o :: r.1, r.2.1, r.2.2))
/-- ARRAY_STEAL: the idle array takes the first waiting accumulation of its octet. -/
def execArraySteal (core : Fin 4096) (a : Fin 4) (s : State) : Host.Outcome State Fault Refusal :=
  let ak := arrKey core.val a.val
  let x := s.arr ak
  let b := blkPRESS (coreCl core.val)
  let oct := core.val / 8 * 8
  let cands := (List.range 32).filterMap (fun i =>
    let c := oct + i / 4
    if c = core.val then none else (wholeAcc (s.arr (arrKey c (i % 4))).queue).map (fun r => (c, i % 4, r)))
  .next (match cands with
    | (c, va, pre, acc, post) :: _ =>
      if s.enabled ∧ s.fbit b F.PRESS.PRESS_CTL.STEAL_ENABLE ∧ x.queue.isEmpty ∧ x.live.isNone ∧
          x.busyAt + s.fget b F.PRESS.PRESS_CTL.STEAL_IDLE < s.clk.arith then
        let v := s.arr (arrKey c va)
        (((s.setArr (arrKey c va) { v with queue := pre ++ post }).setArr ak { x with queue := acc }).bump b
          F.PRESS.STEALS.COUNT).wakeParked c (.arrayFull va)
      else s
    | [] => s)

end Sys2Proof.Machine
end

