-- ==== Sys2Proof/Machine/Vector.lean ====
section
/-! DEFINITION. The vector unit: its queue (R50, R70), its operands (R71), VSOFT (R72), its arithmetic (R93-R95). -/

namespace Sys2Proof.Machine

/-! ### Issue -/

/-- A vector instruction enters the core's queue of eight, or the thread parks until an entry frees. -/
def State.vecIssue (s : State) (t : Tid) (kind : VecKind) (d a b c : Nat) (one : Bool) : State :=
  let k := t.key
  let v := s.vec t.core.val
  if 8 ≤ v.length then s.park k .vecFull
  else
    let sq := s.takeSeq
    let o : VecOp := ⟨kind, k, (s.thread k).job, d, a, b, c, one, sq.1, (s.thread k).mode, (s.thread k).pc.toNat⟩
    (sq.2.setVec t.core.val (v ++ [o])).pcNext k
/-- The registers of a vector instruction, read at issue. -/
def State.vecInstr (s : State) (i : Instr) (t : Tid) (g : BitVec 4) (kind : VecKind) (xd xa xb xc : BitVec 5) : State :=
  s.instr i t g (fun m =>
    let th := m.thread t.key
    some (m.vecIssue t kind (th.getX xd).toNat (th.getX xa).toNat (th.getX xb).toNat (th.getX xc).toNat (xb == 0)))
def execVfma (t : Tid) (g : BitVec 4) (xd xa xb xc : BitVec 5) (s : State) : Host.Outcome State Fault Refusal :=
  .next (s.vecInstr (.vfma t g xd xa xb xc) t g .fma xd xa xb xc)
def execVexp (t : Tid) (g : BitVec 4) (xd xa : BitVec 5) (s : State) : Host.Outcome State Fault Refusal :=
  .next (s.vecInstr (.vexp t g xd xa) t g .exp xd xa 0 0)
def execVrcp (t : Tid) (g : BitVec 4) (xd xa : BitVec 5) (s : State) : Host.Outcome State Fault Refusal :=
  .next (s.vecInstr (.vrcp t g xd xa) t g .rcp xd xa 0 0)
def execVrsq (t : Tid) (g : BitVec 4) (xd xa : BitVec 5) (s : State) : Host.Outcome State Fault Refusal :=
  .next (s.vecInstr (.vrsq t g xd xa) t g .rsq xd xa 0 0)
def execVmax (t : Tid) (g : BitVec 4) (xd xa xb : BitVec 5) (s : State) : Host.Outcome State Fault Refusal :=
  .next (s.vecInstr (.vmax t g xd xa xb) t g .max xd xa xb 0)
def execVsum (t : Tid) (g : BitVec 4) (xd xa : BitVec 5) (s : State) : Host.Outcome State Fault Refusal :=
  .next (s.vecInstr (.vsum t g xd xa) t g .sum xd xa 0 0)
def execVsoft (t : Tid) (g : BitVec 4) (xd xa xb xc : BitVec 5) (s : State) : Host.Outcome State Fault Refusal :=
  .next (s.vecInstr (.vsoft t g xd xa xb xc) t g .soft xd xa xb xc)

/-! ### The checks of R71 and R72 -/

/-- A destination: COUNT in [31:24], nothing else beside the offset. -/
def vDstOk (v align : Nat) : Bool := bits v 18 6 == 0 && bits v 32 32 == 0 && vOff v % align == 0
/-- A source row operand, or one value for every lane. -/
def vSrcOk (v : Nat) : Bool :=
  bits v 18 14 == 0 && bits v 33 31 == 0 && (if vBcast v then vOff v % 4 == 0 else vOff v % 128 == 0)
/-- The operands' form. The alignment of VSUM's destination, packed FP32 values, is not stated: 4 B here (log entry 53). -/
def VecOp.ok (o : VecOp) : Bool :=
  spansFit o.readSpans && spansFit o.writeSpans &&
  match o.kind with
  | .fma => vDstOk o.d 128 && vSrcOk o.a && vSrcOk o.b && vSrcOk o.c
  | .max => vDstOk o.d 128 && vSrcOk o.a && vSrcOk o.b
  | .sum => vDstOk o.d 4 && vSrcOk o.a
  | .soft => vDstOk o.d 128 && vSrcOk o.a && (o.one || (vSrcOk o.b && vBcast o.b)) &&
      bits o.c 18 46 == 0 && vOff o.c % 16 == 0
  | _ => vDstOk o.d 128 && vSrcOk o.a

/-! ### Results -/

/-- The FP32 encoding in lane `j` of row `i` of a source. -/
def vLane (s : State) (core v i j : Nat) : Nat :=
  if vBcast v then scrNat s core (vOff v) 4 else scrNat s core (vOff v + 128 * i + 4 * j) 4
def lanes32 : List Nat := List.range 32
/-- Row `i` of a result other than VSUM's and VSOFT's. -/
def vRow (s : State) (core : Nat) (o : VecOp) (i : Nat) : List Nat :=
  let r := modeRound o.mode
  let a := vLane s core o.a i
  let b := vLane s core o.b i
  let c := vLane s core o.c i
  lanes32.map (fun j =>
    match o.kind with
    | .fma => fma32 r (a j) (b j) (c j)
    | .exp => vexp (a j)
    | .rcp => vrcp (a j)
    | .rsq => vrsq (a j)
    | .max => max32 (a j) (b j)
    | .sum => a j
    | .soft => a j)
/-- FP32 encodings written from scratch offset `off`. -/
def State.putLanes (s : State) (core off : Nat) (l : List Nat) : State :=
  s.scratchWrite (scratchAddr core off) (l.flatMap (leBytes 4))
/-- The rows of an instruction, in order. -/
def State.vecRows (s : State) (core : Nat) (o : VecOp) : State :=
  (List.range (vCount o.d)).foldl (fun s i =>
    match o.kind with
    | .sum => s.putLanes core (vOff o.d + 4 * i)
        [tree32 (add32 (modeRound o.mode)) (lanes32.map (vLane s core o.a i))]
    | _ => s.putLanes core (vOff o.d + 128 * i) (vRow s core o i)) s

def ninf32 : Nat := 0xFF800000
def one32 : Nat := 0x3F800000
/-- What VSOFT computes from its scores and its state record: M, L, C and the rows of p. -/
structure Soft where
  m : Nat
  l : Nat
  c : Nat
  p : List (List Nat)
  deriving DecidableEq, Repr
/-- R72, over the scaled scores, row by row. -/
def softOf (r : Rnd) (sc : List (List Nat)) (m l : Nat) : Soft :=
  let mx := sc.foldl (fun acc row => List.zipWith max32 acc row) (List.replicate 32 ninf32)
  let mNew := max32 m (tree32 max32 mx)
  if mNew = ninf32 then ⟨mNew, l, one32, sc.map (fun row => row.map (fun _ => 0))⟩
  else
    let c := vexp (sub32 r m mNew)
    let p := sc.map (fun row => row.map (fun x => vexp (sub32 r x mNew)))
    let sum := p.foldl (fun acc row => add32 r acc (tree32 (add32 r) row)) 0
    ⟨mNew, add32 r (mul32 r l c) sum, c, p⟩
/-- VSOFT: the scores are read, then p, M, L and C written. -/
def State.vecSoft (s : State) (core : Nat) (o : VecOp) : State :=
  let r := modeRound o.mode
  let sg := if o.one then one32 else scrNat s core (vOff o.b) 4
  let raw := (List.range (vCount o.d)).map (fun i => lanes32.map (vLane s core o.a i))
  let sc := raw.map (fun row => row.map (fun x => mul32 r x sg))
  let z := softOf r sc (scrNat s core (vOff o.c) 4) (scrNat s core (vOff o.c + 4) 4)
  let bad := raw.any (fun row => row.any isNan32)
  let z : Soft := if bad then ⟨nan32, nan32, nan32, z.p.map (fun row => row.map (fun _ => nan32))⟩ else z
  let s := (List.range (vCount o.d)).foldl (fun s i => s.putLanes core (vOff o.d + 128 * i) (z.p.getD i [])) s
  s.putLanes core (vOff o.c) [z.m, z.l, z.c, 0]

def VecOp.cwsOf (o : VecOp) (core : Nat) : List Nat :=
  o.readSpans.flatMap (fun x => cws (scratchAddr core x.off) x.n)
/-- VECTOR_OP_COMPLETE: the instruction at the head of the core's queue is checked, its rows are done and its entry
freed; poison that it receives aborts the task (R75). -/
def State.vecComplete (s : State) (core : Nat) : State :=
  match s.vec core with
  | [] => s
  | o :: rest =>
    if !s.enabled || !s.headFree o.pend then s
    else if !o.ok then s.coreFaultAt o.thread 0x05 o.pc
    else
      let s := s.cwAdds (o.cwsOf core)
      let bad := (o.cwsOf core).any (fun c => s.mem.cw c == .poison || s.mem.cw c == .bad)
      let s := s.checkCws (blkCLUS (coreCl core)) F.CLUS.SCRATCH_CE.COUNT 0 (o.cwsOf core)
      if bad then s.coreFaultAt o.thread 0x07 o.pc
      else
        let s := match o.kind with
          | .soft => s.vecSoft core o
          | _ => s.vecRows core o
        ((s.setVec core rest).touch core).wakeParked core .vecFull
def execVectorOpComplete (core : Fin 4096) (s : State) : Host.Outcome State Fault Refusal :=
  .next (s.vecComplete core.val)

end Sys2Proof.Machine
end

