-- ==== Sys2Proof/Machine/Home.lean ====
section
/-! DEFINITION. Accesses at their homes (R172): who is admitted (R280, R281, R380, R402, R313), the Cellar cache (R285-R287),
GRAD banks (R292), the stacks' checks (R302), ordered adds (R247-R250); who may write a register (R5). -/

namespace Sys2Proof.Machine

/-! ### Who may write registers -/

/-- Port `p` owns quarter `q` (R42). -/
def State.owns (s : State) (p q : Nat) : Bool := bit (s.fget (blkJI p) F.JI.PARTITION.OWNED) q
def State.owned (s : State) (q : Nat) : Bool := s.owns 0 q || s.owns 1 q
def isFw : Requester → Bool
  | .firmware => true
  | _ => false
/-- Firmware, or the port that owns quarter `q`. -/
def State.fwOrOwner (s : State) (rq : Requester) (q : Nat) : Bool :=
  match rq with
  | .firmware => true
  | .port p => s.owns p.val q
  | _ => false
/-- A register that firmware alone may write (R200, R274, R311, R348, R367, R384, R408, R421). -/
def fwOnly (n off : Nat) : Bool :=
  match blockKind n with
  | none => false
  | some k =>
    (fieldsAt k off).any (fun f => f.acc == .lw) ||
    match k with
    | .sync => off == F.SYNC.DUMP_BASE.BASE.reg
    | .perc => off == F.PERC.KV_CTL.SERVE.reg || off == F.PERC.KV_DIR.BASE.reg || off == F.PERC.KV_BLOCKS.COUNT.reg
    | .gtc => off == F.GTC.DEV_NUM.NUM.reg || off == F.GTC.ROLE.ROLE.reg || off == F.GTC.ANNOUNCE.GO.reg ||
        off == F.GTC.FENCE.FENCED.reg || off == F.GTC.ROUTE_IDX.INDEX.reg || off == F.GTC.ROUTE_DATA.PORTS.reg ||
        (fieldsAt k off).contains F.GTC.ALIAS.NUM
    | .fm => off == F.FM.MAP_BASE.BASE.reg || off == F.FM.WEAR_CTL.GC_LOW.reg || off == F.FM.SCRUB_CTL.PASS_HOURS.reg ||
        off == F.FM.FM_CTL.FORMAT.reg
    | .silpaot => off == F.SILPAOT.LOG_CTL.CE_RECORDS.reg
    | .hctl => off == F.HCTL.PWR_CLASS.CLASS.reg || off == F.HCTL.THROTTLE_CTL.FLOOR.reg || off == F.HCTL.MGMT_WD.LIMIT.reg
    | _ => false
/-- Whether requester `rq` may write the register at offset `off` of block `n`. -/
def State.mayWrite (s : State) (rq : Requester) (n off : Nat) : Bool :=
  if fwOnly n off then isFw rq
  else match blockKind n with
    | some .qctl => s.fwOrOwner rq (n / 0x100)
    | some .cellar =>
      if (fieldsAt .cellar off).contains F.CELLAR.BANK_OWN.MODE then s.fwOrOwner rq (n / 0x100) else true
    | some .mode =>
      if off != F.MODE.MODE_NEXT.ROUND.reg && off != F.MODE.MODE_CMD.COMMIT.reg then true
      else match rq with
      | .firmware => true
      | .port p => !(List.range 4).any (fun q => s.owns (1 - p.val) q)
      | _ => false
    | some .silpaot =>
      if (fieldsAt .silpaot off).contains F.SILPAOT.REQ_ADDR.ADDR then
        match rq with
        | .firmware => true
        | .port p => off == F.SILPAOT.REQ_ADDR.ADDR.reg + 16 * p.val
        | _ => false
      else true
    | some _ => true
    | none => false
/-- A block of a quarter that is not in service, other than QCTL, CELLAR and STACK (R380, R402). -/
def State.blockGone (s : State) (n : Nat) : Bool :=
  decide (n < 0x400) && !s.qUp (n / 0x100) &&
  match blockKind n with
  | some .qctl => false
  | some .cellar => false
  | some .stack => false
  | _ => true
/-- A register's own action, where its block is in service; otherwise the write is ignored and counted. -/
def State.inService (s : State) (n off : Nat) (body : State → State) : State :=
  if s.blockGone n then s.regError n off true 1 else body s
/-- A write of a register: `body` for a requester that may write it, a register-access error otherwise (R5). -/
def State.regGuard (s : State) (rq : Requester) (n off : Nat) (body : State → State) : State :=
  if s.mayWrite rq n off then s.inService n off body else s.regError n off true 1

/-! ### Who is admitted -/

/-- What a target does with an access. `lost`: a withdrawn quarter's stacks (R312). -/
inductive Adm where
  | go | wait | refuse | lost
  deriving DecidableEq, Repr

def whoCluster : Who → Option Nat
  | .thread k => some (k / 4096)
  | _ => none
def whoStream : Who → Option Nat
  | .ctx c => some (c / 64)
  | _ => none
/-- Table 12.2: whether bank owner (kind, id) of quarter `q` admits `who`. -/
def ownerAdmits (q kind id : Nat) (who : Who) : Bool :=
  match who with
  | .thread k => kind == 2 && k / 4096 == 16 * q + id
  | .ctx c => (kind == 2 || kind == 3) && c / 64 == 16 * q + id
  | .grind g => kind == 4 && g == 4 * q + id
  | .perc h => kind == 5 && h == q / 2
  | .coll h => kind == 5 && h == q / 2
  | .firmware => kind == 6
  | .flash _ => false
  | .range _ => false
  | .port _ => false
def State.bankOwn (s : State) (q b : Nat) (f : Fld) : Nat := s.fget (blkCELLAR q) f (8 * b)
def State.bankTr (s : State) (q b : Nat) : Option BankTr := Sparse.get none s.bankTrs (q * 64 + b)
/-- A bank's answer to an access (R280-R284, R292, R294). -/
def State.bankAdm (s : State) (q b : Nat) (who : Who) (a n : Nat) (write amo : Bool) : Adm :=
  let kind := s.bankOwn q b F.CELLAR.BANK_OWN.OWNER_KIND
  let grad := s.bankOwn q b F.CELLAR.BANK_OWN.MODE == 3
  let store := match who with
    | .thread _ => !write || ((n == 4 || n == 8) && a % n == 0)
    | _ => true
  if s.bankOwn q b F.CELLAR.BANK_STATUS.FAILED ≠ 0 then .refuse
  else match s.bankTr q b with
    | some t => if t.power = 0 ∧ ownerAdmits q t.kind t.id who then .wait else .refuse
    | none =>
      if s.bankOwn q b F.CELLAR.BANK_STATUS.BUSY ≠ 0 ∨ s.bankOwn q b F.CELLAR.BANK_STATUS.POWER_STATE ≠ 0 then .refuse
      else if !ownerAdmits q kind (s.bankOwn q b F.CELLAR.BANK_OWN.OWNER_ID) who then .refuse
      else if grad && (amo || !store) then .refuse else .go
def State.clusterOff (s : State) (cl : Nat) : Bool := bit (s.fget (blkQCTL (cl / 16)) F.QCTL.CLUSTER_PWR.OFF) (cl % 16)
/-- A quarter whose stacks are in test mode (R313). -/
def State.testMode (s : State) (q : Nat) : Bool :=
  (List.range 6).any (fun i => s.fbit (blkSTACK (6 * q + i)) F.STACK.STACK_CTL.TEST_MODE)
/-- The quarter's cache is on, and the bank that its set of `a` lies in is in RETAIN or OFF (R294). -/
def State.cacheBankOff (s : State) (q a : Nat) : Bool :=
  s.cacheOn q && s.bankOwn q (s.setOf (a / 256) / 8192 % 64) F.CELLAR.BANK_STATUS.POWER_STATE != 0
/-- The answer of the home of a device-memory access. -/
def State.admission (s : State) (who : Who) (a n : Nat) (write amo : Bool) : Adm :=
  match region a with
  | .stack q =>
    if s.qState q = 5 then .lost else if s.qState q ≠ 1 ∨ s.testMode q ∨ s.cacheBankOff q a then .refuse else .go
  | .cellar q b => if s.qState q ≠ 1 then .refuse else s.bankAdm q b who a n write amo
  | .scratch core =>
    if s.qState (coreQ core) ≠ 1 then .refuse else if s.clusterOff (coreCl core) then .wait else .go
  | _ => .refuse
/-- A refused access as its target records it: a Cellar bank (R281), a quarter in standby (R402). -/
def State.refusedAt (s : State) (a : Nat) : State :=
  let standby (q : Nat) : State :=
    if s.qState q = 3 then s.bump (blkQCTL q) F.QCTL.STANDBY_REFUSALS.COUNT else s
  let bank (q : Nat) : State := (s.fset (blkCELLAR q) F.CELLAR.REFUSED_ADDR.ADDR a).bump (blkCELLAR q) F.CELLAR.REFUSED_COUNT.COUNT
  match region a with
  | .stack q => if s.qState q = 1 && !s.testMode q && s.cacheBankOff q a then bank q else standby q
  | .scratch core => standby (coreQ core)
  | .cellar q _ => if s.qState q = 1 then bank q else standby q
  | _ => s

/-! ### Stacks (R302) -/

def State.stackSt (s : State) (k : Nat) : StackSt := Sparse.get StackSt.init s.stkSts k
def State.setStack (s : State) (k : Nat) (x : StackSt) : State := { s with stkSts := Sparse.put StackSt.init s.stkSts k x }
/-- One more corrected symbol on a lane in this scrub pass (R310). -/
def State.laneHit (s : State) (l : StackLoc) (sym : Nat) : State :=
  let x := s.stackSt l.stack
  let k := 128 * l.channel + 64 * l.pc + sym
  s.setStack l.stack { x with laneN := Sparse.put 0 x.laneN k (Sparse.get 0 x.laneN k + 1) }
/-- The controller's check of a codeword that it reads: one bad symbol counted, with its bits in error on its lane (how many
of the four, the state does not hold: one to four, free); an uncorrectable codeword counted and recorded. -/
def State.stackCheckCw (s : State) (c : Nat) (st : CwState) : State :=
  let a := 16 * c
  let l := stackLoc a
  let b := blkSTACK l.stack
  match st with
  | .one sym =>
    let r := s.fresh
    ((r.2.corrected b F.STACK.CE_COUNT.COUNT 0 a sym).bump b F.STACK.LANE_CE.COUNT (0x400 * l.channel + 0x200 * l.pc + 8 * sym)
      (1 + r.1.toNat % 4)).laneHit l sym
  | .bad => ((s.bump b F.STACK.UE_COUNT.COUNT).fset b F.STACK.UE_ADDR.ADDR a).report 1 0xA1 b 0 0 a 0 0
  | _ => s
def State.stackCheck (s : State) (a n : Nat) : State :=
  (cws a n).foldl (fun s c => s.stackCheckCw c (s.mem.cw c)) s
def State.stackBytes (s : State) (a n : Nat) (write : Bool) : State :=
  let b := blkSTACK (stackLoc a).stack
  if write then s.bump b F.STACK.WRITE_BYTES.COUNT 0 n else s.bump b F.STACK.READ_BYTES.COUNT 0 n

/-! ### The cache (R285-R287) -/

/-- The listed entries of `src` in [lo, hi) in place of those of `dst`. -/
def copyRange {α : Type} (dst src : Sparse α) (lo hi : Nat) : Sparse α :=
  dst.filter (fun e => e.1 < lo) ++ src.filter (fun e => lo ≤ e.1 && e.1 < hi) ++ dst.filter (fun e => hi ≤ e.1)
/-- Line `line` of `dst` as `src` has it. -/
def Mem.copyLine (dst src : Mem) (line : Nat) : Mem :=
  ⟨copyRange dst.bytes src.bytes (256 * line) (256 * line + 256),
   copyRange dst.poison src.poison (16 * line) (16 * line + 16),
   copyRange dst.upset src.upset (16 * line) (16 * line + 16)⟩
/-- Line `line` of `src` put where line `to_` of `dst` stands. -/
def Mem.moveLine (dst src : Mem) (line to_ : Nat) : Mem :=
  let at_ {α : Type} (l : Sparse α) (n : Nat) : Sparse α :=
    (l.filter (fun e => n * line ≤ e.1 && e.1 < n * line + n)).map (fun e => (e.1 - n * line + n * to_, e.2))
  dst.copyLine ⟨at_ src.bytes 256, at_ src.poison 16, at_ src.upset 16⟩ to_
/-- Codeword `c` of `dst` as `src` has it. -/
def Mem.copyCw (dst src : Mem) (c : Nat) : Mem :=
  ⟨copyRange dst.bytes src.bytes (16 * c) (16 * c + 16), copyRange dst.poison src.poison c (c + 1),
   copyRange dst.upset src.upset c (c + 1)⟩
/-- The nodes of the pseudo-LRU tree on the way to way `w`, with the side taken. -/
def plruPath (w : Nat) : List (Nat × Bool) :=
  [(0, bit w 3), (1 + w / 8, bit w 2), (3 + w / 4, bit w 1), (7 + w / 2, bit w 0)]
/-- After a use of way `w` every node on its path points to the other side (log entry 14). -/
def plruTouch (t w : Nat) : Nat :=
  (plruPath w).foldl (fun t e => setBits t e.1 1 (b2n (!e.2))) t
/-- The way that the tree points to. -/
def plruVictim (t : Nat) : Nat :=
  ((List.range 16).find? (fun w => (plruPath w).all (fun e => bit t e.1 == e.2))).getD 0
def State.touchWay (s : State) (set w : Nat) : State :=
  { s with plru := Sparse.put 0 s.plru set (plruTouch (Sparse.get 0 s.plru set) w) }
def State.setWay (s : State) (set w : Nat) (l : CLine) : State :=
  { s with clines := Sparse.put CLine.init s.clines (set * 16 + w) l }
/-- The request or flit numbered `id` stands in a stack controller already. -/
def State.inPc (s : State) (id : Nat) : Bool :=
  s.pcs.any (fun (e : Nat × Pc) => (e.2.queue ++ e.2.flight).any (fun p => p.for_ == .req id || p.for_ == .eng id))
def State.addQueue (s : State) (p : PcReq) : State :=
  let l := stackLoc p.addr
  let k := l.stack * 32 + l.channel * 2 + l.pc
  let x := Sparse.get Pc.init s.pcs k
  { s with pcs := Sparse.put Pc.init s.pcs k { x with queue := x.queue ++ [p] } }
/-- Codewords that a CACHE-mode bank reads are checked as those of any bank (R279). -/
def State.lineCheck (s : State) (line : Nat) (l : List Nat) : State :=
  s.checkIn s.cmem (blkCELLAR (lineQ line)) F.CELLAR.BANK_STATUS.CE (8 * (s.setOf line / 8192 % 64)) l
/-- The codewords of a line as a read returns them: one bad symbol restored, more the poison word. -/
def Mem.restored (m : Mem) (line : Nat) : Mem :=
  (cws (256 * line) 256).foldl (fun m c => match m.cw c with
    | .one _ => { m with upset := Sparse.del m.upset c }
    | .bad => m.setPoison c true
    | _ => m) m
/-- A line's data goes to the stacks; the write-back is outstanding until the controller acknowledges it. -/
def State.writeBack (s : State) (q bank line : Nat) (range : Bool) : State :=
  let s := s.lineCheck line (cws (256 * line) 256)
  let s := { s with cmem := s.cmem.restored line }
  let s := { s with mem := s.mem.copyLine s.cmem line, wbacks := s.wbacks ++
    [WBack.mk q bank line range ((Mem.mk [] [] []).copyLine s.mem line) (cws (256 * line) 256)] }
  let s := (s.bump (blkCELLAR q) F.CELLAR.WRITEBACKS.COUNT).stackBytes (256 * line) 256 true
  s.addQueue ⟨.wb q line, 256 * line, 256, true, false, s.clk.arith, 0, 0, []⟩
/-- A reset meets a write-back on its way: each codeword of the line is as before it or as after it (R289). -/
def State.tearWb (s : State) (x : WBack) : State :=
  x.cws.foldl (fun s c =>
    let r := s.fresh
    if bit r.1.toNat 0 then { r.2 with mem := r.2.mem.copyCw x.old c } else r.2) s
/-- Write-backs of evicted lines that wait in a bank's buffer. -/
def State.evb (s : State) (q bank : Nat) : List WBack :=
  s.wbacks.filter (fun x => x.q == q && x.bank == bank && !x.range)
def State.dropWb (s : State) (x : WBack) : State :=
  { s with wbacks := s.wbacks.filter (· != x)
           pcs := s.pcs.map (fun e => (e.1, { e.2 with queue := e.2.queue.filter (fun r => r.for_ != .wb x.q x.line) })) }
/-- The way of a set goes back to invalid; a dirty line is written back. An eviction that meets a full buffer waits
until its oldest entry has been acknowledged. -/
def State.evict (s : State) (q bank set w : Nat) : State :=
  let l := s.way set w
  let s := s.setWay set w CLine.init
  if l.line = 0 then s else
    let s := if l.dirty then
        let s := match s.evb q bank with
          | x :: rest => if 31 ≤ rest.length then (s.dropWb x).bump (blkCELLAR q) F.CELLAR.EVB_WAITS.COUNT else s
          | [] => s
        s.writeBack q bank (l.line - 1) false
      else s
    { s with cmem := s.cmem.copyLine (Mem.mk [] [] []) (l.line - 1) }
/-- A line enters the cache from the stacks: in the lowest invalid way, else in the way the tree points to. -/
def State.allocLine (s : State) (line : Nat) : State :=
  let q := lineQ line
  let set := s.setOf line
  let bank := set / 8192 % 64
  let w := ((List.range 16).find? (fun w => (s.way set w).line == 0)).getD (plruVictim (Sparse.get 0 s.plru set))
  let s := s.evict q bank set w
  let s := (s.stackCheck (256 * line) 256).stackBytes (256 * line) 256 false
  -- the controller returns restored codewords, and the poison word for uncorrectable ones
  let s := { s with cmem := (s.cmem.copyLine s.mem line).restored line }
  (s.setWay set w ⟨line + 1, false⟩).touchWay set w
def State.det (s : State) (q : Nat) (who : Who) : Option Det := (Sparse.get [] s.dets q).find? (fun d => d.who == who)
/-- The detector of a write's source after the write (R286): of the 256, the most recently used first. -/
def Det.step (d : Option Det) (who : Who) (blk : Nat) (full : Bool) : Det :=
  match d with
  | none => ⟨who, blk, if full && blk % 4 == 0 then 1 else 0, false⟩
  | some d =>
    let next := blk == d.blk + 1
    let run := if next && full && 0 < d.run then d.run + 1 else if full && blk % 4 == 0 then 1 else 0
    ⟨who, blk, run, (d.stop && next) || 32 ≤ run⟩
def State.setDet (s : State) (q : Nat) (d : Det) : State :=
  { s with dets := Sparse.upd [] s.dets q (fun l => (d :: l.filter (fun x => x.who != d.who)).take 256) }
/-- A write of source `who` bypasses allocation: its detector has seen eight full-line stores and this write follows
its previous one. -/
def State.bypasses (s : State) (q : Nat) (who : Who) (blk : Nat) : Bool :=
  s.fbit (blkCELLAR q) F.CELLAR.CACHE_CTL.STREAM_DETECT &&
  match s.det q who with
  | some d => d.stop && blk == d.blk + 1
  | none => false
def State.markDirty (s : State) (line : Nat) : State :=
  let set := s.setOf line
  match s.findWay set line with
  | some w => (s.setWay set w ⟨line + 1, true⟩).touchWay set w
  | none => s
/-- A request meets the cache before it is performed: counted as a hit or a miss, and where the cache allocates, its
line brought in. -/
def State.cacheLook (s : State) (q : Nat) (who : Who) (a n : Nat) (write : Bool) : State :=
  let line := a / 256
  let b := blkCELLAR q
  let byp := write && s.bypasses q who (a / 64)
  let s := if write then s.setDet q (Det.step (s.det q who) who (a / 64) (a % 64 == 0 && n == 64)) else s
  if s.holdsLine line then
    let s := s.bump b F.CELLAR.CACHE_HITS.COUNT
    match s.findWay (s.setOf line) line with
    | some w => s.touchWay (s.setOf line) w
    | none => s
  else
    let s := s.bump b F.CELLAR.CACHE_MISSES.COUNT
    if s.fbit b F.CELLAR.CACHE_STATUS.DISABLING then s
    else if byp then s.bump b F.CELLAR.NOALLOC_WRITES.COUNT
    else
      -- a write to a line that is being written back waits for its acknowledgement
      let s := match s.wbacks.find? (fun x => x.line == line) with
        | some x => if write then s.dropWb x else s
        | none => s
      s.allocLine line

/-! ### Performing -/

/-- Bytes or poison put into the cells of their home; codewords written in part are read and checked first. -/
def State.cellWrite (s : State) (a : Nat) (bs : List Byte) (poison : Bool) : State :=
  match region a with
  | .stack _ =>
    if s.holdsLine (a / 256) then
      let s := s.lineCheck (a / 256) (partCws a bs.length)
      ({ s with cmem := s.cmem.writeP a bs poison }).markDirty (a / 256)
    else
      let s := (partCws a bs.length).foldl (fun s c => s.stackCheckCw c (s.mem.cw c)) s
      ({ s with mem := s.mem.writeP a bs poison, wbacks := s.wbacks.map (fun (x : WBack) =>
        if x.line = a / 256 then { x with cws := x.cws.filter (fun c => !(cws a bs.length).contains c) } else x) }).stackBytes a bs.length true
  | .scratch _ => s.scratchWrite a bs poison
  | .cellar q b =>
    let s := s.checkCws (blkCELLAR q) F.CELLAR.BANK_STATUS.CE (8 * b) (partCws a bs.length)
    { s with mem := s.mem.writeP a bs poison }
  | _ => { s with mem := s.mem.writeP a bs poison }

/-- The held ordered adds of the operand at `l` are applied as one step (R248). -/
def State.applyAddsAt (s : State) (l : Nat) : State :=
  let mine := s.oadds.filter (fun x => x.addr == l)
  let s := { s with oadds := s.oadds.filter (fun x => x.addr != l) }
  if s.viewPoison l 4 then s
  else s.cellWrite l (leBytes 4 ((sortAdds mine).foldl (fun v x => add32 .rne v x.v) (s.viewNat l 4))) false
/-- Every operand with held adds that an access to `[a, a + n)` meets. -/
def State.applyAdds (s : State) (a n : Nat) : State :=
  ((s.oadds.filter (fun x => x.addr < a + n && a < x.addr + 4)).map (·.addr)).eraseDups.foldl State.applyAddsAt s
/-- The end of a job applies every operand that holds a contribution of it (R248). -/
def State.applyAddsOf (s : State) (j : JobId) : State :=
  ((s.oadds.filter (fun x => x.job == j)).map (·.addr)).eraseDups.foldl State.applyAddsAt s

/-- What an access at its home does before it is performed: held adds are applied, codewords read are checked and
counted, the cache looks the line up. -/
def State.homeTouch (s : State) (who : Who) (a n : Nat) (write : Bool) : State :=
  let s := s.applyAdds a n
  match region a with
  | .stack q =>
    if s.qState q = 5 then s.bump (blkSTACK (stackLoc a).stack) F.STACK.WITHDRAWN_ACCESSES.COUNT
    else if s.cacheOn q then
      let s := s.cacheLook q who a n write
      if write then s else if s.holdsLine (a / 256) then s.lineCheck (a / 256) (cws a n) else (s.stackCheck a n).stackBytes a n false
    else if write then s else (s.stackCheck a n).stackBytes a n false
  | .cellar q b =>
    if write then s
    else s.checkCws (blkCELLAR q) F.CELLAR.BANK_STATUS.CE (8 * b) (cws a n)
  | .scratch _ => if write then s else s.scratchCheck a n
  | _ => s
/-- A codeword as a read returns it (R373). -/
def State.viewCode (s : State) (a : Nat) : Code :=
  match region a with
  | .stack q => if s.qState q = 5 then ⟨0, true⟩ else
      if s.viewPoison a 16 then ⟨0, true⟩ else ⟨s.viewNat a 16, false⟩
  | _ => if s.viewPoison a 16 then ⟨0, true⟩ else ⟨s.viewNat a 16, false⟩
/-- A read of `n` bytes returns poison. -/
def State.readPoison (s : State) (a n : Nat) : Bool :=
  match region a with
  | .stack q => s.qState q == 5 || s.viewPoison a n
  | _ => s.viewPoison a n
/-- The codewords of a 64 B block that a read of `n` bytes in it finds poison, as a mask. -/
def State.readBad (s : State) (a n : Nat) : Nat :=
  (cws a n).foldl (fun m c => if s.readPoison (16 * c) 16 then m ||| 2 ^ (c % 4) else m) 0
/-- One element of a GRAD bank takes a write (R292). -/
def State.gradAdd (s : State) (r : Rnd) (a v : Nat) : State :=
  if s.viewPoison a 4 then { s with mem := s.mem.setPoison (a / 16) true }
  else { s with mem := s.mem.write a (leBytes 4 (add32 r (s.mem.readNat a 4) v)) }
/-- The element at `e` takes its part of a write of `bs` at `a`; what an element written only in part becomes, the spec does
not say (log entry 50). -/
def State.gradPart (s : State) (r : Rnd) (a : Nat) (bs : List Byte) (e : Nat) : State :=
  if a ≤ e ∧ e + 4 ≤ a + bs.length then s.gradAdd r e (leNat ((bs.drop (e - a)).take 4))
  else
    let f := s.fresh
    { f.2 with mem := f.2.mem.write e (leBytes 4 f.1.toNat) }
/-- A write of `bs` put into the cells, on behalf of a task with mode values `mode`. -/
def State.homePut (s : State) (mode a : Nat) (bs : List Byte) (poison : Bool) : State :=
  match region a with
  | .stack q => if s.qState q = 5 then s else s.cellWrite a bs poison
  | .cellar q b =>
    if s.bankOwn q b F.CELLAR.BANK_OWN.MODE = 3 then
      -- the bank reads what it adds to
      let s := s.checkCws (blkCELLAR q) F.CELLAR.BANK_STATUS.CE (8 * b) (cws a bs.length)
      if poison then { s with mem := s.mem.writePoison a bs.length }
      else (List.range ((a + bs.length + 3) / 4 - a / 4)).foldl (fun s i =>
        s.gradPart (modeRound mode) a bs (4 * (a / 4 + i))) s
    else s.cellWrite a bs poison
  | _ => s.cellWrite a bs poison
/-- The bytes that `[a, a + n)` has in each codeword, each part with its codeword's place in its 64 B block. -/
def cwParts (a n : Nat) : List (Nat × Nat × Nat) :=
  (cws a n).map (fun c =>
    let lo := max a (16 * c)
    (lo, min (a + n) (16 * c + 16) - lo, c % 4))
/-- A write whose data came with the codewords of `bad` poison. -/
def State.homePutBad (s : State) (mode a : Nat) (bs : List Byte) (bad : Nat) : State :=
  if bad = 0 then s.homePut mode a bs false
  else (cwParts a bs.length).foldl (fun s p => s.homePut mode p.1 ((bs.drop (p.1 - a)).take p.2.1) (bit bad p.2.2)) s
/-- The same performed at its home. -/
def State.homeWrite (s : State) (who : Who) (mode a : Nat) (bs : List Byte) (poison : Bool) : State :=
  (s.homeTouch who a bs.length true).homePut mode a bs poison
/-- A write of whole codewords. -/
def State.homeWriteCodes (s : State) (who : Who) (mode a : Nat) (l : List Code) : State :=
  if l.all (fun c => !c.poison) then s.homeWrite who mode a (l.flatMap (fun c => leBytes 16 c.v)) false
  else (List.range l.length).foldl (fun s i =>
    let c := l.getD i ⟨0, false⟩
    s.homeWrite who mode (a + 16 * i) (leBytes 16 c.v) c.poison) s

/-! ### Spans of engines -/

/-- The 64 B blocks that `[a, a + n)` touches, each with its part of the span. -/
def blocksOf (a n : Nat) : List (Nat × Nat) :=
  if n = 0 then [] else
    (List.range ((a + n - 1) / 64 - a / 64 + 1)).map (fun i =>
      let lo := max a (64 * (a / 64 + i))
      let hi := min (a + n) (64 * (a / 64 + i) + 64)
      (lo, hi - lo))
/-- The worst answer that an engine's access to a span meets: refused, waiting, or through. -/
def State.spanAdm (s : State) (who : Who) (a n : Nat) (write : Bool) : Adm :=
  let l := (blocksOf a n).map (fun b => s.admission who b.1 b.2 write false)
  if l.contains .refuse then .refuse else if l.contains .wait then .wait else .go
/-- An engine's read of a span, block by block; its data is then what the homes show. -/
def State.spanTouch (s : State) (who : Who) (a n : Nat) : State :=
  (blocksOf a n).foldl (fun s b => s.homeTouch who b.1 b.2 false) s
/-- An engine's write of a span, block by block. -/
def State.spanWrite (s : State) (who : Who) (mode a : Nat) (bs : List Byte) : State :=
  (blocksOf a bs.length).foldl (fun s b => s.homeWrite who mode b.1 ((bs.drop (b.1 - a)).take b.2) false) s
/-- A request that an engine may not make is rejected at issue and recorded (R25), or refused at its home. -/
def State.engineReject (s : State) (a : Nat) (write : Bool) : State :=
  if mapped a false then s.refusedAt a else s.fabReject a write
/-- A request that the unit itself turns away: its interface records it where it is mapped nowhere. -/
def State.unitReject (s : State) (a : Nat) (write : Bool) : State := if mapped a false then s else s.fabReject a write
/-- The first of a span's requests that is refused. -/
def State.firstRefused (s : State) (who : Who) (a n : Nat) (write : Bool) : Nat :=
  (((blocksOf a n).find? (fun b => s.admission who b.1 b.2 write false == .refuse)).map (·.1)).getD a
/-- A read of a span that meets a refusal: its requests go out in rising order (log entry 52), those before the refused one
are performed. -/
def State.spanRefuseR (s : State) (who : Who) (a n : Nat) : State :=
  let b := s.firstRefused who a n false
  (s.spanTouch who a (b - a)).engineReject b false
/-- The same of a write. -/
def State.spanRefuseW (s : State) (who : Who) (mode a : Nat) (bs : List Byte) : State :=
  let b := s.firstRefused who a bs.length true
  (s.spanWrite who mode a (bs.take (b - a))).engineReject b true

end Sys2Proof.Machine
end

