-- ==== Sys2Proof/Machine/Press.lean ====
section
/-! DEFINITION. The Press: its parameter word (R114), its tiles (R104-R107) and its five operations (R115-R119), as
functions from input bytes to output bytes. -/

namespace Sys2Proof.Machine

/-! ### The parameter word (Table 5.5) -/

def ppOp (w : Nat) : Nat := bits w 0 4
def ppVfmt (w : Nat) : Nat := bits w 4 4
def ppK (w : Nat) : Nat := bits w 8 3
def ppTrow (w : Nat) : Nat := bits w 12 26
def ppTcol (w : Nat) : Nat := bits w 38 26
def kOk (k : Nat) : Bool := k == 1 || k == 2 || k == 4
def ppOk (w : Nat) : Bool :=
  let op := ppOp w
  1 ≤ op && op ≤ 5 && bits w 11 1 == 0 && (4 ≤ op || ppVfmt w ≤ 5) && (if op = 2 ∨ op = 3 then kOk (ppK w) else ppK w == 0)
def tileElems : Nat := 262144
/-- The input length of a dense tile (Table 5.6). -/
def denseLen (vfmt : Nat) : Nat := tileElems * sizeOf vfmt
def k8Len (vfmt k : Nat) : Nat := 64 + 12288 * k + 32768 * k * sizeOf vfmt

/-! ### Values -/

/-- Zero as the Press sees it: ±0, or an INT8 0 (R115). -/
def pIsZero (vfmt v : Nat) : Bool :=
  if vfmt = 5 then v == 0 else v % 2 ^ (8 * sizeOf vfmt - 1) == 0
/-- The rank of a magnitude: NaN above all (R117). -/
def pMag (vfmt v : Nat) : Nat :=
  if vfmt = 5 then (sextInt 8 v).natAbs
  else if elemVal vfmt v == .nan then 2 ^ 40 else v % 2 ^ (8 * sizeOf vfmt - 1)

/-! ### Tiles as bytes -/

/-- The header (Table 5.1). -/
def hdrBytes (form vfmt k ncurd meta_ val trow tcol drops : Nat) : List Byte :=
  leBytes 1 form ++ leBytes 1 vfmt ++ leBytes 1 k ++ [0] ++ leBytes 2 ncurd ++ [0, 0] ++ leBytes 4 meta_ ++ leBytes 4 val ++
    leBytes 4 trow ++ leBytes 4 tcol ++ leBytes 4 (min drops 0xFFFFFFFF) ++ List.replicate 36 0
def padTo (n : Nat) (l : List Byte) : List Byte := l ++ List.replicate (n - l.length) 0
/-- A curd: its band, its block-column and its 64 values. -/
structure Curd where
  band : Nat
  col  : Nat
  vals : List Nat
  deriving DecidableEq, Repr
/-- The row pointers of R105. -/
def csrPtrs (l : List Curd) : List Nat := (List.range 65).map (fun b => (l.filter (fun c => c.band < b)).length)
def csrMeta (n : Nat) : Nat := 144 + 16 * ((n + 7) / 8)
def csrBytes (vfmt trow tcol drops : Nat) (l : List Curd) : List Byte :=
  let n := l.length
  hdrBytes 0 vfmt 0 n (csrMeta n) (n * 64 * sizeOf vfmt) trow tcol drops ++
    padTo (csrMeta n) (padTo 144 ((csrPtrs l).flatMap (leBytes 2)) ++ l.flatMap (fun c => leBytes 2 c.col)) ++
    l.flatMap (fun c => c.vals.flatMap (leBytes (sizeOf vfmt)))
/-- The curds of a dense tile (R115, R116): every block with a value that is not zero. -/
def curdsOf (vfmt : Nat) (el : Nat → Nat → Nat) : List Curd :=
  (List.range 4096).filterMap (fun i =>
    let b := i / 64
    let c := i % 64
    let v := (List.range 64).map (fun j => el (8 * b + j / 8) (8 * c + j % 8))
    if v.all (pIsZero vfmt) then none else some ⟨b, c, v⟩)
def denseBytes (vfmt trow tcol : Nat) (el : Nat → Nat → Nat) : List Byte :=
  hdrBytes 2 vfmt 0 0 0 (denseLen vfmt) trow tcol 0 ++
    (List.range tileElems).flatMap (fun i => leBytes (sizeOf vfmt) (el (i / 512) (i % 512)))
/-- A tile in Curd CSR form, or dense where that is not smaller (R116); whether it fell back. -/
def csrOrDense (vfmt trow tcol : Nat) (curds : List Curd) (el : Nat → Nat → Nat) : List Byte × Bool :=
  let n := curds.length
  if 64 + csrMeta n + n * 64 * sizeOf vfmt < denseLen vfmt then (csrBytes vfmt trow tcol 0 curds, false)
  else (denseBytes vfmt trow tcol el, true)

/-- The slots of a group, index and value in slot order, and the values dropped (R117). -/
def keepK (vfmt k : Nat) (g : List Nat) : List (Nat × Nat) × Nat :=
  let nz := (List.range 8).filter (fun i => !pIsZero vfmt (g.getD i 0))
  let mag (i : Nat) : Nat := pMag vfmt (g.getD i 0)
  -- rank: how many non-zero values go before it
  let rank (i : Nat) : Nat := (nz.filter (fun j => mag i < mag j || (mag j == mag i && decide (j < i)))).length
  let kept := nz.filter (fun i => rank i < k)
  let free := (List.range 8).filter (fun i => !kept.contains i)
  ((kept.map (fun i => (i, g.getD i 0))) ++ (free.take (k - kept.length)).map (fun i => (i, 0)), nz.length - kept.length)
/-- A K_OF_8 tile from the slots of each row and group (R106). -/
def k8Bytes (vfmt k trow tcol drops : Nat) (slots : Nat → Nat → List (Nat × Nat)) : List Byte :=
  let row (r : Nat) : List (Nat × Nat) := (List.range 64).flatMap (slots r)
  let metaRow (r : Nat) : List Byte :=
    leBytes (24 * k) (((row r).foldr (fun s acc => s.1 + 8 * acc) 0))
  hdrBytes 1 vfmt k 0 (12288 * k) (32768 * k * sizeOf vfmt) trow tcol drops ++
    (List.range 512).flatMap metaRow ++ (List.range 512).flatMap (fun r => (row r).flatMap (fun s => leBytes (sizeOf vfmt) s.2))

/-! ### Operations -/

/-- What an operation gives: its output, what it counts, or its fault. -/
structure Pressed where
  out   : List Byte
  drops : Nat
  /-- the output's tiles: first byte, end, whether DENSE_FALLBACK -/
  tiles : List (Nat × Nat × Bool)
  faults : Nat
  badTiles : Nat
  deriving DecidableEq, Repr

/-- Element (r, c) of a dense input. -/
def inEl (rd : Nat → Nat → Nat) (vfmt : Nat) (r c : Nat) : Nat := rd ((512 * r + c) * sizeOf vfmt) (sizeOf vfmt)
def compressCsr (rd : Nat → Nat → Nat) (w : Nat) : Pressed :=
  let f := ppVfmt w
  let el := inEl rd f
  let o := csrOrDense f (ppTrow w) (ppTcol w) (curdsOf f el) el
  ⟨o.1, 0, [(0, o.1.length, o.2)], 0, 0⟩
/-- The group of 8 values of row `r` of a dense input. -/
def inGroup (rd : Nat → Nat → Nat) (f r q : Nat) : List Nat := (List.range 8).map (fun i => inEl rd f r (8 * q + i))
def k8Drops (rd : Nat → Nat → Nat) (f k : Nat) : Nat :=
  (List.range 32768).foldl (fun n i => n + (keepK f k (inGroup rd f (i / 64) (i % 64))).2) 0
def compressK8 (rd : Nat → Nat → Nat) (w : Nat) : Pressed :=
  let f := ppVfmt w
  let d := k8Drops rd f (ppK w)
  let o := k8Bytes f (ppK w) (ppTrow w) (ppTcol w) d (fun r q => (keepK f (ppK w) (inGroup rd f r q)).1)
  ⟨o, d, [(0, o.length, false)], 0, 0⟩
/-- The value that the mask holds at (r, c), if the slots of W name it; `pick` chooses among slots that name one position
twice, which the spec leaves open (log entry 15). -/
def maskAt (slots : Nat → Nat → List (Nat × Nat)) (pick r c : Nat) : Option Nat :=
  let l := ((slots r (c / 8)).filter (fun s => s.1 == c % 8)).map (·.2)
  if l.isEmpty then none else l[pick % l.length]?
/-- The tile of the transpose of a mask and its values (R119). -/
def transposed (f trow tcol pick : Nat) (slots : Nat → Nat → List (Nat × Nat)) : List Byte × Bool :=
  let at_ (r c : Nat) : Option Nat := maskAt slots pick c r
  let grp (r q : Nat) : List (Nat × Nat) := (List.range 8).filterMap (fun i => (at_ r (8 * q + i)).map (fun v => (i, v)))
  let m := (List.range 32768).foldl (fun m i => max m (grp (i / 64) (i % 64)).length) 0
  if m ≤ 4 then
    let k := if m ≤ 1 then 1 else if m ≤ 2 then 2 else 4
    let pad (r q : Nat) : List (Nat × Nat) :=
      let l := grp r q
      let free := (List.range 8).filter (fun i => !l.any (fun s => s.1 == i))
      l ++ (free.take (k - l.length)).map (fun i => (i, 0))
    (k8Bytes f k trow tcol 0 pad, false)
  else
    let el (r c : Nat) : Nat := (at_ r c).getD 0
    let curds := (List.range 4096).filterMap (fun i =>
      let pos := (List.range 64).map (fun j => (8 * (i / 64) + j / 8, 8 * (i % 64) + j % 8))
      if pos.any (fun p => (at_ p.1 p.2).isSome) then some (Curd.mk (i / 64) (i % 64) (pos.map (fun p => el p.1 p.2))) else none)
    csrOrDense f trow tcol curds el
def fixMask (rd : Nat → Nat → Nat) (w : Nat) : Pressed :=
  let f := ppVfmt w
  let a := compressK8 rd w
  let t := transposed f (ppTcol w) (ppTrow w) 0 (fun r q => (keepK f (ppK w) (inGroup rd f r q)).1)
  let n := (a.out.length + 63) / 64 * 64
  ⟨padTo n a.out ++ t.1, a.drops, [(0, a.out.length, false), (n, n + t.1.length, t.2)], 0, 0⟩
def inHdr (rd : Nat → Nat → Nat) : SHdr := sHdr (rd 0 64)
/-- The slots of a K_OF_8 input. -/
def inSlots (rd : Nat → Nat → Nat) (f k r q : Nat) : List (Nat × Nat) :=
  (List.range k).map (fun sl =>
    let p := 3 * (q * k + sl)
    (bits (rd (64 + r * 24 * k + p / 8) 2) (p % 8) 3, rd (64 + 12288 * k + (r * 64 * k + q * k + sl) * sizeOf f) (sizeOf f)))
def transposeTile (rd : Nat → Nat → Nat) (w pick : Nat) : Pressed :=
  let h := inHdr rd
  let t := transposed h.vfmt (ppTcol w) (ppTrow w) pick (inSlots rd h.vfmt h.kslots)
  ⟨t.1, 0, [(0, t.1.length, t.2)], 0, 0⟩
/-- An audited tile. -/
def Pressed.csr (o : List Byte) (faults badTiles : Nat) : Pressed := ⟨o, 0, [(0, o.length, false)], faults, badTiles⟩
/-- AUDIT (R118). -/
def auditPtr (rd : Nat → Nat → Nat) (i : Nat) : Nat := rd (64 + 2 * i) 2
def auditOk (rd : Nat → Nat → Nat) (h : SHdr) : Bool :=
  auditPtr rd 0 == 0 && (List.range 64).all (fun i => auditPtr rd i ≤ auditPtr rd (i + 1)) && auditPtr rd 64 == h.ncurd &&
    h.ncurd ≤ 4096 && h.meta_ == csrMeta h.ncurd && h.val == h.ncurd * 64 * sizeOf h.vfmt
/-- The curds of band `b` whose index is below 64 and above that of the last one kept. -/
def auditBand (rd : Nat → Nat → Nat) (b : Nat) : List Nat :=
  ((List.range (auditPtr rd (b + 1) - auditPtr rd b)).foldl (fun (acc : List Nat × Nat) i =>
    let c := auditPtr rd b + i
    let ix := rd (64 + 144 + 2 * c) 2
    if ix < 64 ∧ acc.2 ≤ ix then (acc.1 ++ [c], ix + 1) else acc) ([], 0)).1
def auditTile (rd : Nat → Nat → Nat) (len : Nat) : Pressed :=
  let h := inHdr rd
  if h.form ≠ 0 then ⟨(List.range len).map (fun i => BitVec.ofNat 8 (rd i 1)), 0, [(0, len, false)], 0, 0⟩
  else
    let drops := rd 24 4
    if auditOk rd h then
      let keep := (List.range 64).flatMap (fun b => (auditBand rd b).map (fun c => (b, c)))
      let sz := sizeOf h.vfmt
      let curds := keep.map (fun e => Curd.mk e.1 (rd (64 + 144 + 2 * e.2) 2)
        ((List.range 64).map (fun j => rd (64 + h.meta_ + (64 * e.2 + j) * sz) sz)))
      Pressed.csr (csrBytes h.vfmt h.trow h.tcol drops curds) (h.ncurd - keep.length) 0
    else Pressed.csr (csrBytes h.vfmt h.trow h.tcol drops []) (min h.ncurd 4096) 1
/-- The length that a tile's input must have (Table 5.6): of a dense tile, of the tile its header describes. No length is right
for a TRANSPOSE of a tile that is not K_OF_8 or has a reserved KSLOTS or VFMT, for which the spec names no outcome (log
entry 54). -/
def pressLen (rd : Nat → Nat → Nat) (w : Nat) : Option Nat :=
  let h := inHdr rd
  if ppOp w ≤ 3 then some (denseLen (ppVfmt w))
  else if ppOp w = 4 then some (64 + h.meta_ + h.val)
  else if h.form = 1 ∧ kOk h.kslots ∧ h.vfmt ≤ 5 then some (k8Len h.vfmt h.kslots) else none
def pressRun (rd : Nat → Nat → Nat) (w len pick : Nat) : Pressed :=
  if ppOp w = 1 then compressCsr rd w else if ppOp w = 2 then compressK8 rd w else if ppOp w = 3 then fixMask rd w
  else if ppOp w = 4 then auditTile rd len else transposeTile rd w pick

end Sys2Proof.Machine
end

