-- ==== Sys2Proof/Machine/Streams.lean ====
section
/-! DEFINITION. The stream engines: arming and waiting (R125-R128), descriptors (R129-R131), moving data (R132-R137),
rings and credits (R138-R141), multicast (R142, R143), relays (R144), arbitration (R146), completion (R148-R150), faults
(R151, R152). -/

namespace Sys2Proof.Machine

/-! ### Descriptor fields (Tables 6.2 and 6.3), over the eight words -/

def dW (d : List Nat) (i : Nat) : Nat := d.getD i 0
def dKind (d : List Nat) : Nat := bits (dW d 0) 0 4
def dLat (d : List Nat) : Bool := bit (dW d 0) 4
def dPress (d : List Nat) : Bool := bit (dW d 0) 5
def dRing (d : List Nat) : Bool := bit (dW d 0) 6
def dShed (d : List Nat) : Bool := bit (dW d 0) 7
def dDen (d : List Nat) : Bool := bit (dW d 0) 8
def dSlot (d : List Nat) : Nat := bits (dW d 0) 9 6
def dDoneEn (d : List Nat) : Bool := bit (dW d 0) 15
/-- Bytes of a segment. -/
def dSeg (d : List Nat) : Nat := if bits (dW d 0) 16 12 = 0 then 65536 else 16 * bits (dW d 0) 16 12
def dDoneObj (d : List Nat) : Nat := bits (dW d 0) 28 18
def dChain (d : List Nat) : Bool := bit (dW d 0) 46
def dTag (d : List Nat) : Nat := bits (dW d 0) 48 16
def dSrc (d : List Nat) : Nat := bits (dW d 1) 0 49
def dDst (d : List Nat) : Nat := bits (dW d 2) 0 49
def dLen (d : List Nat) : Nat := bits (dW d 3) 0 40
def dBudget (d : List Nat) : Nat := bits (dW d 3) 40 24
/-- ROW_BYTES: of a STRIDED descriptor in word 4, of INDEXED and BITMAP in word 5; a LINEAR one has a single row. -/
def dRowB (d : List Nat) : Nat :=
  if dKind d = 1 then bits (dW d 4) 0 32 else if dKind d = 2 ∨ dKind d = 3 then bits (dW d 5) 0 16 else dLen d
def dRows (d : List Nat) : Nat := bits (dW d 4) 32 32
def dSrcPitch (d : List Nat) : Nat := bits (dW d 5) 0 32
def dDstPitch (d : List Nat) : Nat := bits (dW d 5) 32 32
/-- INDEX_ADDR, BITMAP_ADDR or LIST_ADDR. -/
def dListAddr (d : List Nat) : Nat := bits (dW d 4) 0 49
def dIdx64 (d : List Nat) : Bool := bit (dW d 4) 49
def dList (d : List Nat) : Bool := dKind d == 3 && bit (dW d 4) 49
def dTabRows (d : List Nat) : Nat := bits (dW d 5) 32 32
def dNrecv (d : List Nat) : Nat := bits (dW d 5) 0 7
def dNmemb (d : List Nat) : Nat := bits (dW d 5) 0 11
def dCap (d : List Nat) : Nat := bits (dW d 5) 0 40
def dDataObj (d : List Nat) : Nat := bits (dW d 6) 0 18
def dSpaceObj (d : List Nat) : Nat := bits (dW d 6) 18 18
def dNseg (d : List Nat) : Nat := bits (dW d 6) 36 8
def dConsCyc (d : List Nat) : Nat := bits (dW d 6) 44 20
def dListOut (d : List Nat) : Nat := bits (dW d 6) 0 49
def dCpl (d : List Nat) : Nat := bits (dW d 7) 0 49

def kLinear : Nat := 0
def kStrided : Nat := 1
def kIndexed : Nat := 2
def kBitmap : Nat := 3
def kMulti : Nat := 4
def kRelay : Nat := 5

/-- The reserved bits of a descriptor are zero and its flags stand on a KIND that allows them (Table 6.3, R131). -/
def descShape (d : List Nat) : Bool :=
  let k := dKind d
  k ≤ 5 && !bit (dW d 0) 47 && (!bit (dW d 0) 4 || k == 2 || k == 3) && (!dPress d || k == 0) &&
    (if k = 5 then dRing d else !dRing d || (k ≠ 4 && !dList d)) && (!dShed d || k == 4) &&
    bits (dW d 1) 49 15 == 0 && bits (dW d 2) 49 15 == 0 && bits (dW d 7) 49 15 == 0 &&
    (k < 4 || bits (dW d 2) 18 31 == 0) &&
    (if k = 0 then (if dPress d then bits (dW d 5) 40 24 == 0 else dW d 4 == 0 && dW d 5 == 0)
     else if k = 1 then true
     else if k ≤ 3 then bits (dW d 4) 50 14 == 0 && bits (dW d 5) 16 16 == 0
     else bits (dW d 4) 49 15 == 0 && (if k = 4 then bits (dW d 5) 7 57 == 0 else bits (dW d 5) 11 53 == 0)) &&
    (if dRing d then true else if dList d then bits (dW d 6) 49 15 == 0 else dW d 6 == 0)
/-- The other conditions of R131 that the descriptor alone decides. -/
def descOk (d : List Nat) : Bool :=
  let k := dKind d
  let a16 (n : Nat) : Bool := n % 16 == 0
  descShape d && a16 (dSrc d) && a16 (dDst d) && a16 (dLen d) && dCpl d % 32 == 0 &&
    (if k = 1 then a16 (dRowB d) && a16 (dSrcPitch d) && a16 (dDstPitch d) && dRowB d ≠ 0 && dRows d ≠ 0 &&
        dLen d == dRows d * dRowB d && (if dRing d then dDstPitch d == 0 else dRowB d ≤ dDstPitch d)
     else if k = 2 then a16 (dRowB d) && a16 (dListAddr d) && dRowB d ≠ 0 && dLen d % dRowB d == 0
     else if k = 3 then a16 (dRowB d) && dRowB d ≠ 0 && dTabRows d ≠ 0
     else if k = 4 then a16 (dListAddr d) && 1 ≤ dNrecv d && dNrecv d ≤ 64 && dSeg d ≤ 16384 && dDst d + dLen d ≤ 0x40000
     else if k = 5 then a16 (dListAddr d) && 1 ≤ dNmemb d && dNmemb d ≤ 1024 &&
        dDataObj d % 65536 + dNmemb d ≤ 65536 && dSpaceObj d % 65536 + dNmemb d ≤ 65536
     else true) &&
    (!dRing d || (2 ≤ dNseg d && dNseg d ≤ 255))

/-! ### Contexts -/

def ctxCl (k : Nat) : Nat := k / 64
/-- The context with no descriptor current. -/
def Ctx.noDesc (c : Ctx) : Ctx :=
  { c with desc := [], pos := 0, reads := [], lists := [], listAt := 0, row := 0, rows := 0, oob := 0, segs := 0, acked := 0,
           credits := 0, creditWait := false, sigs := 0, doneSent := false, recv := [], mcHeld := 0, mcIn := 0, store := [],
           pin := [], again := false, out := [], tiles := [], outs := [], pressed := none }
/-- The bytes of the current descriptor's output; a BITMAP's is known once its bitmap is walked. -/
def Ctx.total? (c : Ctx) : Option Nat :=
  if dLen c.desc = 0 then some 0
  else if dPress c.desc || dKind c.desc == 3 then c.pressed else some (dLen c.desc)
def segCount (d : List Nat) (total : Nat) : Nat := (total + dSeg d - 1) / dSeg d
/-- Where output byte `p` of the descriptor goes (R133, R138, R144). -/
def Ctx.dst (c : Ctx) (p : Nat) : Nat :=
  let d := c.desc
  let base := if dKind d = 5 then scratchAddr (c.recv.getD 0 ⟨0, false, 0⟩).core (dDst d) else dDst d
  if dRing d then base + (c.ringP + p / dSeg d) % dNseg d * dSeg d + p % dSeg d
  else if dKind d = 1 then base + p / dRowB d * dDstPitch d + p % dRowB d
  else base + p
/-- The cluster whose engine carries a hop out of member `mem` of a relay. -/
def State.memCl (s : State) (k mem : Nat) : Nat := coreCl ((s.ctx k).recv.getD mem ⟨0, false, 0⟩).core
/-- The interface of a source of sync operations. -/
def State.whoIface (s : State) (who : SyncWho) : Iface :=
  match who with
  | .thread k => threadIface k
  | .ctx k => strmIface (ctxCl k)
  | .hop k _ mem => strmIface (s.memCl k mem)
  | .cmd id => ((s.cmd? id).map (·.unit.iface)).getD (blockIface blkHCTL)
  | .reg (.thread t) => threadIface t.key
  | .reg (.port p) => blockIface (blkJI p.val)
  | .reg _ => blockIface blkHCTL
/-- An operation leaves for the table of its object's quarter. -/
def State.sendSync (s : State) (who : SyncWho) (obj : Nat) (op : SyncOp) : State :=
  let r := s.sendMsg (s.whoIface who) (.quarter (obj / 65536))
  { r.2 with syncMsgs := r.2.syncMsgs ++ [SyncMsg.mk r.1 who obj op none] }
/-- The Press of the cluster holds no tile of context `k` any more. -/
def State.pressFree (s : State) (k : Nat) : State :=
  let b := blkPRESS (ctxCl k)
  if s.fbit b F.PRESS.PRESS_STATUS.BUSY ∧ s.fget b F.PRESS.PRESS_STATUS.CONTEXT = k % 64 then
    ((s.fset b F.PRESS.PRESS_STATUS.BUSY 0).fset b F.PRESS.PRESS_STATUS.OP 0).fset b F.PRESS.PRESS_STATUS.CONTEXT 0
  else s

/-- A chain ends on a fault (R151, R152): recorded, its task aborted, every context of the task cancelled, its job ended.
CLUS.FAULT_PC, for which a stream fault has no instruction, keeps what it held, and CLUS.FAULT_COUNT counts core faults (log
entry 55). -/
def State.chainFault (s : State) (k code addr : Nat) : State :=
  let c := s.ctx k
  let b := blkSTRM (ctxCl k)
  let core := c.owner / 64
  let d := c.cur.getD 0
  let s := (((s.fset b F.STRM.FAULT_LAST.CONTEXT (k % 64)).fset b F.STRM.FAULT_LAST.CORE core).fset b
    F.STRM.FAULT_LAST.THREAD (c.owner % 64)).fset b F.STRM.FAULT_LAST.CODE code
  let s := ((s.fset b F.STRM.FAULT_LAST.COUNT_AT s.now).fset b F.STRM.FAULT_DESC.ADDR d).bump b F.STRM.FAULT_COUNT.COUNT
  let cb := blkCLUS (ctxCl k)
  let s := (((s.fset cb F.CLUS.FAULT_LAST.CORE core).fset cb F.CLUS.FAULT_LAST.THREAD (c.owner % 64)).fset cb
    F.CLUS.FAULT_LAST.CODE code).fset cb F.CLUS.FAULT_LAST.COUNT_AT s.now
  let id := s.err.nextId
  let s := s.report 2 code b (whoThread c.owner + k % 64 * 0x40000) (jobWord c.job) addr d 0
  let s := s.cancelCtx k code (some id)
  let mine := s.ctxs.filter (fun e => e.2.owner == c.owner && e.2.job == c.job && e.2.ownerEnded == c.ownerEnded &&
    e.2.born == c.born)
  let s := mine.foldl (fun s e => s.cancelCtx e.1 0x47 (some id)) s
  let s := if c.ownerEnded then s else s.stopThread c.owner
  s.endJob c.job 0x20 (some id)

/-- The owner's STRM.WAIT returns when the context holds no chain. -/
def State.strmWake (s : State) (k : Nat) : State :=
  let c := s.ctx k
  match (s.thread c.owner).st with
  | .parked (.strm x rd) =>
    if x = k % 64 ∧ !c.ownerEnded then
      let s := s.setCtx k { c with shed := false }
      let s := s.setThread c.owner ((s.thread c.owner).setXn rd (b2n c.shed))
      s.wakeThread c.owner
    else s
  | _ => s
/-- A chain that passes into a block that was read early takes it from there. -/
def Ctx.takeBlock (c : Ctx) : Ctx :=
  if c.nblkAt.isSome ∧ c.nblkAt = c.cur.map (fun a => a / 512 * 512) then
    { c with blkAt := c.nblkAt, blk := c.nblk, nblkAt := none, nblk := [] }
  else c
/-- The current descriptor is over: the next of its chain, else the NEXT chain, else none (R127, R130). -/
def State.ctxAdvance (s : State) (k : Nat) : State :=
  let c := s.ctx k
  let n := segCount c.desc (c.total?.getD 0)
  let shed := c.shed || (c.desc != [] && c.recv.any (·.shed))
  let p := if dRing c.desc then c.ringP + n else c.ringP
  let c' := { c.noDesc with shed := shed, ringP := p }
  let s := s.pressFree k
  if dChain c.desc then s.setCtx k ({ c' with cur := c.cur.map (· + 64) }).takeBlock
  else match c.next with
    | some a => s.setCtx k { c' with cur := some a, next := none, blkAt := none, nblkAt := none, nblk := [] }
    | none =>
      if c.ownerEnded then s.setCtx k Ctx.init
      else (s.setCtx k { c' with st := .owned, cur := none, blkAt := none, nblkAt := none, nblk := [] }).strmWake k

/-! ### Arming and waiting (R126-R128) -/

/-- A thread's register is written with a status and it goes on. -/
def State.retStatus (s : State) (k : Nat) (rd : BitVec 5) (v : Nat) : State :=
  (s.setThread k ((s.thread k).setX rd (BitVec.ofNat 64 v))).pcNext k
/-- STRM.GO by thread `k`, once its earlier writes are acknowledged (R73). Of threads that arm one FREE context in one cycle the
lowest becomes its owner, in whatever order their commands come (R127). -/
def State.strmGo (s : State) (k : Nat) (xd : BitVec 5) (a addr : Nat) : State :=
  let ck := ctxKey (coreCl (k / 64)) (a % 64)
  let c := s.ctx ck
  let b := blkSTRM (ctxCl ck)
  let mine := c.owner = k ∧ !c.ownerEnded
  let arm (s : State) : State :=
    let t := s.thread k
    (s.setCtx ck { Ctx.init with st := .active, owner := k, job := t.job, mode := t.mode, modeSens := t.modeSens, cur := some addr,
                                 eligAt := s.clk.arith, born := t.started, go := some (s.clk.arith, k, xd) }).retStatus k xd 0
  if 64 ≤ a ∨ addr % 64 ≠ 0 ∨ 2 ^ 48 ≤ addr then s.coreFault k 0x05
  else if c.st = .active ∧ c.go.any (fun g => g.1 == s.clk.arith && decide (k < g.2.1)) then
    let g := c.go.getD (0, 0, 0)
    arm (s.setThread g.2.1 ((s.thread g.2.1).setX g.2.2 3))
  else match c.st with
    | .free => arm s
    | .owned =>
      if mine then (s.setCtx ck { c with st := .active, cur := some addr, blkAt := none, eligAt := s.clk.arith }).retStatus k xd 0
      else s.retStatus k xd 3
    | .active =>
      if mine then
        (match c.next with
          | none => (s.setCtx ck { c with next := some addr }).retStatus k xd 1
          | some _ => ((s.fset b F.STRM.CTX_STATE.REARM_REJECT 1 (8 * (ck % 64))).bump b F.STRM.REARM_REJECTS.COUNT).retStatus k xd 2)
      else s.retStatus k xd 3
    | .cancelling => s.retStatus k xd 3
def execStrmGo (t : Tid) (g : BitVec 4) (xd xa xb : BitVec 5) (s : State) : Host.Outcome State Fault Refusal :=
  .next (s.instr (.strmGo t g xd xa xb) t g (fun m =>
    let th := m.thread t.key
    if m.unacked t.key then none else some (m.strmGo t.key xd (th.getX xa).toNat (th.getX xb).toNat)))
def State.strmWait (s : State) (k : Nat) (xd : BitVec 5) (a : Nat) : State :=
  let ck := ctxKey (coreCl (k / 64)) (a % 64)
  let c := s.ctx ck
  if 64 ≤ a then s.coreFault k 0x05
  else if c.st = .free ∨ c.owner ≠ k ∨ c.ownerEnded then s.retStatus k xd 2
  else if c.st = .owned then (s.setCtx ck { c with shed := false }).retStatus k xd (b2n c.shed)
  else (s.pcNext k).park k (.strm (a % 64) xd.toNat)
def execStrmWait (t : Tid) (g : BitVec 4) (xd xa : BitVec 5) (s : State) : Host.Outcome State Fault Refusal :=
  .next (s.instr (.strmWait t g xd xa) t g (fun m => some (m.strmWait t.key xd ((m.thread t.key).getX xa).toNat)))

/-! ### Descriptors become current (R129-R131) -/

/-- An engine's check of an address: `none`, or the code that a refusal gives. -/
def State.ctxRefused (s : State) (k a n : Nat) (write : Bool) : Bool :=
  !inDevMem a || s.spanAdm (.ctx k) a n write == .refuse
def State.ctxWaits (s : State) (k a n : Nat) (write : Bool) : Bool := inDevMem a && s.spanAdm (.ctx k) a n write == .wait
/-- The four codewords of the descriptor at `a`. -/
def Ctx.codesAt (c : Ctx) (a : Nat) : List Code := (c.blk.drop (a % 512 / 16)).take 4
def wordsOf (l : List Code) : List Nat := l.flatMap (fun w => [w.v % 2 ^ 64, w.v / 2 ^ 64])
/-- The chain has reached the second half of a block whose last descriptor has CHAIN set. -/
def Ctx.runsOn (c : Ctx) (a : Nat) : Bool :=
  256 ≤ a % 512 && c.blkAt == some (a / 512 * 512) && dChain (wordsOf (c.codesAt 448)) && !(c.codesAt 448).any (·.poison)
/-- DESCRIPTOR_BLOCK_READ: the 512 B block of the next descriptor is read; while a descriptor of the second half of a
block runs, the block that follows. -/
def State.blockRead (s : State) (k : Nat) : State :=
  let c := s.ctx k
  match c.cur with
  | none => s
  | some a =>
    let early := decide (c.desc ≠ [])
    let blk := if early then a / 512 * 512 + 512 else a / 512 * 512
    if c.st ≠ .active ∨ (if early then !c.runsOn a || c.nblkAt == some blk else c.blkAt == some blk) ∨ !s.alive then s
    else if s.ctxWaits k blk 512 false then s
    else if s.ctxRefused k blk 512 false then (s.spanRefuseR (.ctx k) blk 512).chainFault k 0x41 (s.firstRefused (.ctx k) blk 512 false)
    else
      let s := s.spanTouch (.ctx k) blk 512
      let l := (List.range 32).map (fun i => s.viewCode (blk + 16 * i))
      s.setCtx k (if early then { s.ctx k with nblkAt := some blk, nblk := l } else { s.ctx k with blkAt := some blk, blk := l })
def execDescriptorBlockRead (c x : Fin 64) (s : State) : Host.Outcome State Fault Refusal :=
  .next (s.blockRead (ctxKey c.val x.val))
/-- The entries of a multicast or relay list (Table 6.4). -/
def State.readList (s : State) (a n : Nat) : List Recv := (List.range n).map (fun i => ⟨s.viewNat (a + 4 * i) 4 % 4096, false, 0⟩)
def dListLen (d : List Nat) : Nat := if dKind d = 4 then dNrecv d else if dKind d = 5 then dNmemb d else 0
/-- The checks of R131, R114 and R148 on a descriptor that becomes current, in the order of its state: a fault code with
an address, or none. -/
def State.descFault (s : State) (k : Nat) (d : List Nat) : Option (Nat × Nat) :=
  let n := dListLen d
  if !descOk d then some (0x40, 0)
  else if dCpl d ≠ 0 ∧ !inDevMem (dCpl d) then some (0x42, dCpl d)
  else if dPress d ∧ !ppOk (dW d 4) then some (0x45, 0)
  else if dPress d ∧ dLen d ≠ 0 ∧ ppOp (dW d 4) ≤ 3 ∧ dLen d ≠ denseLen (ppVfmt (dW d 4)) then some (0x44, 0)
  else if n = 0 then none
  else if s.ctxRefused k (dListAddr d) (4 * n) false then some (0x41, dListAddr d)
  else if (blocksOf (dListAddr d) (4 * n)).any (fun b => s.readPoison b.1 b.2) then some (0x07, dListAddr d)
  else if dKind d = 4 ∧ ((s.readList (dListAddr d) n).map (·.core)).eraseDups.length ≠ n then some (0x40, 0)
  else none
/-- The next descriptor of context `k`, of the kind named, becomes current. -/
def State.begin (s : State) (k kind : Nat) : State :=
  let c := s.ctx k
  match c.cur with
  | none => s
  | some a =>
    let codes := c.codesAt a
    let d := wordsOf codes
    if c.st ≠ .active ∨ c.desc ≠ [] ∨ c.blkAt ≠ some (a / 512 * 512) ∨ dKind d % 6 ≠ kind ∨ !s.alive then s
    else if dListLen d ≠ 0 ∧ s.ctxWaits k (dListAddr d) (4 * dListLen d) false then s
    else if codes.any (·.poison) then s.chainFault k 0x07 a
    else match s.descFault k d with
      | some (code, addr) =>
        let s := if code = 0x41 then s.spanRefuseR (.ctx k) addr (4 * dListLen d) else if code = 0x42 then s.engineReject addr true else s
        (s.setCtx k { (s.ctx k).noDesc with desc := d }).chainFault k code addr
      | none =>
        let n := dListLen d
        let s := if n = 0 then s else s.spanTouch (.ctx k) (dListAddr d) (4 * n)
        s.setCtx k { (s.ctx k).noDesc with desc := d, t0 := s.now, tRing := s.now, recv := s.readList (dListAddr d) n,
                                           eligAt := s.clk.arith }
def execLinear (c x : Fin 64) (s : State) : Host.Outcome State Fault Refusal := .next (s.begin (ctxKey c.val x.val) 0)
def execStrided (c x : Fin 64) (s : State) : Host.Outcome State Fault Refusal := .next (s.begin (ctxKey c.val x.val) 1)
def execIndexed (c x : Fin 64) (s : State) : Host.Outcome State Fault Refusal := .next (s.begin (ctxKey c.val x.val) 2)
def execBitmap (c x : Fin 64) (s : State) : Host.Outcome State Fault Refusal := .next (s.begin (ctxKey c.val x.val) 3)
/-- The room of the multicast stores that the contexts of cluster `cl` hold (R143). -/
def State.mcUsed (s : State) (cl : Nat) : Nat := (List.range 64).foldl (fun n x => n + (s.ctx (ctxKey cl x)).mcHeld) 0
/-- A MULTICAST descriptor reserves 4 × SEG of the store where there is room; else MC_STORE_ENTRY tries again. -/
def State.mcReserve (s : State) (k : Nat) : State :=
  let c := s.ctx k
  if c.st = .active ∧ c.desc ≠ [] ∧ dKind c.desc = 4 ∧ c.mcHeld = 0 ∧ s.mcUsed (ctxCl k) + 4 * dSeg c.desc ≤ 0x40000 then
    s.setCtx k { c with mcHeld := 4 * dSeg c.desc }
  else s
def execMulticast (c x : Fin 64) (s : State) : Host.Outcome State Fault Refusal :=
  let k := ctxKey c.val x.val
  .next ((s.begin k 4).mcReserve k)
def execRelay (c x : Fin 64) (s : State) : Host.Outcome State Fault Refusal := .next (s.begin (ctxKey c.val x.val) 5)

/-! ### The next request of a transfer (R133-R136) -/

/-- What the engine would request next for a context. -/
inductive Nxt where
  | nothing
  /-- a row would pass the destination's capacity -/
  | full
  /-- a BITMAP has no further row -/
  | over
  /-- bytes of the index list or the bitmap -/
  | list (addr n : Nat)
  /-- source address, bytes, whether zeros are written instead, the row taken and the rows begun -/
  | piece (addr n : Nat) (zeros : Bool) (row rows : Nat)
  deriving DecidableEq, Repr

def idxBytes (d : List Nat) : Nat := if dIdx64 d then 8 else 4
/-- Bytes of the index list (R134), or of the bitmap (R121). -/
def listBytes (d : List Nat) : Nat :=
  if dKind d = 2 then dLen d / dRowB d * idxBytes d else (dTabRows d + 511) / 512 * 64
/-- The number in `n` bytes of the list at `a`, where they have been read. -/
def Ctx.listNat? (c : Ctx) (a n : Nat) : Option Nat :=
  (c.lists.find? (fun e => decide (e.1 ≤ a) && decide (a + n ≤ e.1 + e.2.length))).map (fun e => leNat ((e.2.drop (a - e.1)).take n))
/-- The next active row of a bitmap from row `r` on (R121): up to `fuel` rows are looked at. -/
def nextRow (act : Nat → Bool) (n : Nat) : Nat → Nat → Option Nat
  | 0, _ => none
  | fuel + 1, r => if n ≤ r then none else if act r then some r else nextRow act n fuel (r + 1)
/-- A piece of at most 64 B inside one source block, row, segment and destination block. -/
def Ctx.pieceLen (c : Ctx) (addr left : Nat) : Nat :=
  let p := c.pos
  min (min (64 - addr % 64) (64 - c.dst p % 64)) (min left (dSeg c.desc - p % dSeg c.desc))
/-- The next 64 B block's part of the list. -/
def Ctx.nextList (c : Ctx) : Nxt :=
  let a := dListAddr c.desc + c.listAt
  .list a (min (64 - a % 64) (listBytes c.desc - c.listAt))
/-- An INDEXED stream (R134): the engine reads its indices as far as four blocks ahead (how far, log entry 56). -/
def Ctx.nxtIndexed (c : Ctx) : Nxt :=
  let d := c.desc
  let rb := dRowB d
  let ia := dListAddr d + c.pos / rb * idxBytes d
  if c.listAt < listBytes d ∧ (dListAddr d + c.listAt) / 64 ≤ ia / 64 + 4 then c.nextList
  else match c.listNat? ia (idxBytes d) with
    | none => .nothing
    | some ix =>
      if dTabRows d ≠ 0 ∧ dTabRows d ≤ ix then .piece 0 (c.pieceLen (c.pos % rb) (rb - c.pos % rb)) true 0 0
      else
        let a := dSrc d + ix * rb + c.pos % rb
        .piece a (c.pieceLen a (rb - c.pos % rb)) false 0 0
/-- A BITMAP stream (R121, R135): its bitmap is read block by block. -/
def Ctx.nxtBitmap (c : Ctx) : Nxt :=
  let d := c.desc
  let rb := dRowB d
  let p := c.pos
  if p < c.rows * rb then
    let a := dSrc d + c.row * rb + p % rb
    .piece a (c.pieceLen a (rb - p % rb)) false c.row c.rows
  else if c.reads.any (fun r => r.kind == .list) then .nothing
  else
    let from_ := if c.rows = 0 then 0 else c.row + 1
    let act (r : Nat) : Bool := bit ((c.listNat? (dListAddr d + r / 8) 1).getD 0) (r % 8)
    match nextRow act (min (dTabRows d) (8 * c.listAt)) (dTabRows d) from_ with
    | none => if c.listAt < listBytes d then c.nextList else .over
    | some r =>
      if dLen d < p + rb then .full
      else .piece (dSrc d + r * rb) (c.pieceLen (dSrc d + r * rb) rb) false r (c.rows + 1)
/-- The context holds its cluster's Press. -/
def State.hasPress (s : State) (k : Nat) : Bool :=
  s.fbit (blkPRESS (ctxCl k)) F.PRESS.PRESS_STATUS.BUSY && s.fget (blkPRESS (ctxCl k)) F.PRESS.PRESS_STATUS.CONTEXT == k % 64
def State.nxt (s : State) (k : Nat) : Nxt :=
  let c := s.ctx k
  let d := c.desc
  let p := c.pos
  let rb := dRowB d
  let plain := Nxt.piece (dSrc d + p) (c.pieceLen (dSrc d + p) (dLen d - p)) false 0 0
  if d = [] ∨ dLen d = 0 then .nothing
  else if dPress d then
    -- the Press serves one tile at a time (R114)
    (if c.pressed = none ∧ p < dLen d ∧ (s.hasPress k || !s.fbit (blkPRESS (ctxCl k)) F.PRESS.PRESS_STATUS.BUSY) then plain else .nothing)
  else if c.total? = some p then .nothing
  else if dKind d = 0 ∨ dKind d = 5 then plain
  else if dKind d = 4 then (if p < c.mcIn * dSeg d then plain else .nothing)
  else if dKind d = 1 then
    let a := dSrc d + p / rb * dSrcPitch d + p % rb
    .piece a (c.pieceLen a (rb - p % rb)) false 0 0
  else if dKind d = 2 then c.nxtIndexed else c.nxtBitmap

/-! ### Credits and arbitration (R138, R146) -/

/-- The hop that must have read its slot before segment `g` may be written into member `m` (R144) is done. -/
def State.slotFree (s : State) (k g m : Nat) : Bool :=
  let c := s.ctx k
  let n := dNseg c.desc
  dKind c.desc ≠ 5 || g < n || !(s.hops.any (fun h => h.ctx == k && h.seg + n == g && h.mem == m)) &&
    (m ≠ 0 || g < c.segs + n)
def Nxt.isPiece : Nxt → Bool
  | .piece .. => true
  | _ => false
/-- The context has a piece to request, or a segment of the Press to write, whose segment's credit it does not hold. -/
def State.wantsCredit (s : State) (k : Nat) : Bool :=
  let c := s.ctx k
  let more := if dPress c.desc then decide (c.segs < segCount c.desc (c.pressed.getD 0)) else (s.nxt k).isPiece
  let g := if dPress c.desc then c.segs else c.pos / dSeg c.desc
  c.st == .active && c.desc ≠ [] && dRing c.desc && !c.creditWait && more && c.credits ≤ g && s.slotFree k g 0
/-- Engine credit waits are waits of 1 on SPACE_OBJ. -/
def State.askCredit (s : State) (k : Nat) : State :=
  let c := s.ctx k
  (s.setCtx k { c with creditWait := true }).sendSync (.ctx k) (dSpaceObj c.desc) (.wait 1)
def State.outstanding (s : State) (cl : Nat) : Nat :=
  (List.range 64).foldl (fun n x => n + (s.ctx (ctxKey cl x)).reads.length) 0
/-- Eligible for a request slot (R146). A piece of a ring needs its segment's credit; what the Press reads needs none. -/
def State.eligible (s : State) (k : Nat) : Bool :=
  let c := s.ctx k
  let x := s.nxt k
  c.st == .active && c.desc ≠ [] && !c.creditWait && c.reads.length < 64 && s.outstanding (ctxCl k) < 1024 && x != .nothing &&
    (!dRing c.desc || dPress c.desc || !x.isPiece || c.pos < c.credits * dSeg c.desc)
/-- The deadline of R146; none: later than every finite one. -/
def State.deadline (s : State) (k : Nat) : Option Nat :=
  let c := s.ctx k
  let d := c.desc
  if dRing d ∧ dConsCyc d ≠ 0 then some (c.tRing + (s.obj (dDataObj d)).count * dConsCyc d)
  else if dBudget d = 0 then none else some (c.t0 + 16 * dBudget d)
def earlier (a b : Option Nat) : Bool :=
  match a, b with
  | some x, some y => x < y
  | some _, none => true
  | none, _ => false
/-- FABRIC cycles in `n` ARITH cycles (R20). -/
def fabricCycles (n : Nat) : Nat := n * 8 / 5
/-- The context that takes the slot: one past its age limit first, else the smallest deadline, then the lowest number. -/
def State.slotFor (s : State) (cl : Nat) : Option Nat :=
  let l := ((List.range 64).map (ctxKey cl)).filter s.eligible
  let limit := s.fget (blkSTRM cl) F.STRM.STRM_CTL.AGE_LIMIT
  match l.find? (fun k => limit ≤ fabricCycles (s.clk.arith - (s.ctx k).eligAt)) with
  | some k => some k
  | none => l.foldl (fun best k => match best with
      | none => some k
      | some b => if earlier (s.deadline k) (s.deadline b) then some k else some b) none
/-- A context that is not eligible in a cycle has waited for no slot (R146). -/
def State.tickStreams (s : State) : State :=
  { s with ctxs := s.ctxs.map (fun (e : Nat × Ctx) =>
      if e.2.st == .active && !s.eligible e.1 then (e.1, { e.2 with eligAt := s.clk.arith + 1 }) else e) }
/-- A read request of context `k` leaves for the home of its address; zeros are read nowhere. -/
def State.sendRead (s : State) (k addr n : Nat) (kind : RdKind) (pos : Nat) : State :=
  let c := s.ctx k
  let r := s.takeSeq
  let data : Option (List Code) := if kind = .zeros then some (List.replicate (n / 16) ⟨0, false⟩) else none
  let s := r.2.setCtx k { c with reads := c.reads ++ [StrmRead.mk c.nextRd pos addr n kind r.1 0 data], nextRd := c.nextRd + 1,
                                 eligAt := s.clk.arith }
  if kind = .zeros then s else s.send r.1 (strmCls (dLat c.desc)) (strmIface (ctxCl k)) (homeNode addr)
/-- A context takes the cluster's Press for its tile. -/
def State.takePress (s : State) (k : Nat) : State :=
  let d := (s.ctx k).desc
  let b := blkPRESS (ctxCl k)
  if !dPress d ∨ s.fbit b F.PRESS.PRESS_STATUS.BUSY then s
  else ((s.fset b F.PRESS.PRESS_STATUS.BUSY 1).fset b F.PRESS.PRESS_STATUS.OP (ppOp (dW d 4))).fset b F.PRESS.PRESS_STATUS.CONTEXT (k % 64)
/-- One read request of a context. -/
def State.requestPiece (s : State) (k : Nat) : State :=
  let c := s.ctx k
  match s.nxt k with
  | .nothing => s
  | .over => s.setCtx k { c with pressed := some c.pos }
  | .full => s.chainFault k 0x42 (dDst c.desc + c.pos)
  | .list a n =>
    if !inDevMem a then (s.engineReject a false).chainFault k 0x41 a
    else
      -- blocks of the bitmap that have been looked through are needed no more
      let s := s.setCtx k { c with listAt := c.listAt + n, lists := if dKind c.desc = 3 then [] else c.lists }
      s.sendRead k a n .list 0
  | .piece addr n zeros row rows =>
    let first := dKind c.desc == 2 && c.pos % dRowB c.desc == 0
    if !zeros ∧ !inDevMem addr then (s.engineReject addr false).chainFault k 0x41 addr
    else
      let s := s.takePress k
      let s := if first && zeros then s.bump (blkSTRM (ctxCl k)) F.STRM.OOB_INDICES.COUNT else s
      let s := s.sendRead k addr n (if zeros then .zeros else .src) c.pos
      let c := s.ctx k
      let ia := dListAddr c.desc + c.pos / dRowB c.desc * idxBytes c.desc
      s.setCtx k { c with
        pos := c.pos + n
        row := row
        rows := rows
        oob := if first && zeros then c.oob + 1 else c.oob
        lists := if first then c.lists.filter (fun e => decide (ia < e.1 + e.2.length)) else c.lists }
/-- STREAM_REQUEST_SLOT: a context that needs a credit asks for it; else a slot is granted. -/
def execStreamRequestSlot (c : Fin 64) (s : State) : Host.Outcome State Fault Refusal :=
  .next (if !s.alive then s else
    match ((List.range 64).map (ctxKey c.val)).find? s.wantsCredit with
    | some k => s.askCredit k
    | none => match s.slotFor c.val with
      | some k => s.requestPiece k
      | none => s)

/-! ### Data returns (R132, R137, R139) -/

/-- A delivery into a core's scratch waits for queued operations that read its bytes (R139). -/
def State.deliveryHeld (s : State) (a n : Nat) : Bool :=
  match region a with
  | .scratch core => (s.pends core).any (fun p => anyMeet [⟨a % 0x40000, n⟩] p.rd)
  | _ => false
/-- The codewords of `[a, a + n)`. -/
def readCodes (s : State) (a n : Nat) : List Code := (cws a n).map (fun c => s.viewCode (16 * c))
def State.countMoved (s : State) (cl rd wr : Nat) : State :=
  (s.bump (blkSTRM cl) F.STRM.BYTES_READ.BYTES 0 rd).bump (blkSTRM cl) F.STRM.BYTES_WRITTEN.BYTES 0 wr
/-- A stream's read that stands before its home, with its context. Reads of one cluster at one home keep their order (R17). -/
def State.strmAtHome (s : State) (id : Nat) : Option (Nat × StrmRead) :=
  match s.strmRead? id with
  | none => none
  | some (k, r) =>
    let older := s.ctxs.any (fun e => e.1 / 64 == k / 64 && e.2.reads.any (fun x => decide (x.flit < id) && x.data.isNone &&
      homeIface x.addr == homeIface r.addr && !s.inPc x.flit))
    if r.data.isSome || !s.landed id || !s.alive || older || s.ctxWaits k r.addr r.n false then none else some (k, r)
/-- The home answers a stream's read; no codewords: refused. -/
def State.strmAnswer (s : State) (k : Nat) (r : StrmRead) (l : List Code) : State :=
  (s.setCtx k { s.ctx k with reads := (s.ctx k).reads.map (fun x => if x.flit = r.flit then { x with data := some l } else x) }).send
    r.flit (strmCls (dLat (s.ctx k).desc)) (homeIface r.addr) (clusterNode (ctxCl k))
/-- The write of a list field or of a row number: refused, the chain ends with DEST_FAULT. -/
def State.listWrite (s : State) (k a v : Nat) : State :=
  if s.ctxRefused k a 4 true then (s.engineReject a true).chainFault k 0x42 a
  else s.homeWrite (.ctx k) (s.ctx k).mode a (leBytes 4 v) false
/-- A destination that has to wait: in a gated cluster, in a bank in transition, or under R139. -/
def State.destWaits (s : State) (k a n : Nat) : Bool := s.ctxWaits k a n true || s.deliveryHeld a n
/-- Data goes to its destination. -/
def State.landPiece (s : State) (k : Nat) (r : StrmRead) (l : List Code) : State :=
  let c := s.ctx k
  let d := c.desc
  let dst := c.dst r.pos
  -- the number of a row goes to the list with the row's first piece (R135)
  let rb := dRowB d
  let la := dListOut d + 4 * (r.pos / rb)
  let lists := dList d && r.pos % rb == 0
  if s.destWaits k dst r.n || lists && s.destWaits k la 4 then s
  else
    let s := s.setCtx k { c with reads := c.reads.filter (fun x => x.id != r.id) }
    if s.ctxRefused k dst r.n true then (s.engineReject dst true).chainFault k 0x42 dst
    else
      let s := s.homeWriteCodes (.ctx k) c.mode dst l
      let s := s.countMoved (ctxCl k) (if r.kind = .zeros then 0 else r.n) r.n
      let c := s.ctx k
      let outs := if dDen d then (List.range l.length).foldl (fun m i => Sparse.put ⟨0, false⟩ m (r.pos / 16 + i) (l.getD i ⟨0, false⟩)) c.outs
        else c.outs
      let s := s.setCtx k { c with acked := c.acked + r.n, outs := outs }
      if lists then s.listWrite k la ((r.addr - dSrc d) / rb) else s
/-- A segment's digest contribution (R150). -/
def State.segDigest (s : State) (k g : Nat) (l : List Code) (n : Nat) : State :=
  let d := (s.ctx k).desc
  s.digest (ctxCl k / 16) (dSlot d)
    ((l.flatMap (fun c => leBytes 16 c.v)).take n ++ leBytes 8 (g * dSeg d) ++ leBytes 2 (dTag d) ++ List.replicate 6 0)
/-- Data of segment `p / SEG` comes into the multicast store; a whole segment enters its digest. -/
def State.intoStore (s : State) (k : Nat) (r : StrmRead) (l : List Code) : State :=
  let c := s.ctx k
  let d := c.desc
  let g := r.pos / dSeg d
  let at_ := r.pos % dSeg d / 16
  let put (x : List (Option Code)) : List (Option Code) := (List.range l.length).foldl (fun x i => x.set (at_ + i) l[i]?) x
  let store := c.store.map (fun e => if e.1 = g then (e.1, put e.2) else e)
  let s := (s.setCtx k { c with store := store, reads := c.reads.filter (fun x => x.id != r.id) }).countMoved (ctxCl k) r.n 0
  match store.find? (fun e => e.1 == g && e.2.all (·.isSome)) with
  | some e =>
    let codes := e.2.filterMap id
    if !dDen d then s
    else if codes.any (·.poison) then s.chainFault k 0x07 (dSrc d + g * dSeg d)
    else s.segDigest k g codes (16 * codes.length)
  | none => s
/-- The data of a read has come back: list bytes are kept, the Press's input is gathered, a multicast's data enters the store,
the rest is delivered. What the engine consumes ends the chain where it is poison (R137). -/
def State.movePiece (s : State) (k : Nat) (r : StrmRead) (l : List Code) : State :=
  let c := s.ctx k
  let d := c.desc
  let s' := s.setCtx k { c with reads := c.reads.filter (fun x => x.id != r.id) }
  if l.isEmpty then s'.chainFault k 0x41 r.addr
  else if r.kind = .list then
    if l.any (·.poison) then s'.chainFault k 0x07 r.addr
    else
      let bs := ((l.flatMap (fun c => leBytes 16 c.v)).drop (r.addr % 16)).take r.n
      s'.setCtx k { s'.ctx k with lists := c.lists ++ [(r.addr, bs)] }
  else if dPress d then
    if l.any (·.poison) then s'.chainFault k 0x07 r.addr
    else (s'.setCtx k { s'.ctx k with pin := (List.range l.length).foldl (fun m i =>
      Sparse.put ⟨0, true⟩ m (r.pos / 16 + i) (l.getD i ⟨0, false⟩)) c.pin }).countMoved (ctxCl k) r.n 0
  else if dKind d = 4 then s.intoStore k r l
  else s.landPiece k r l
/-- STREAM_READ_RETURN: the data of read `i` has come back; a context that is being cancelled discards it. -/
def execStreamReadReturn (c x : Fin 64) (i : Nat) (s : State) : Host.Outcome State Fault Refusal :=
  let k := ctxKey c.val x.val
  let t := s.ctx k
  .next (match t.reads.find? (fun r => r.id == i) with
    | none => s
    | some r =>
      match r.data with
      | none => s
      | some l =>
        if !s.alive || !s.landed r.flit then s
        else if t.st = .active then s.movePiece k r (spoil r.addr r.bad l)
        else s.setCtx k { t with reads := t.reads.filter (fun y => y.id != i) })

/-! ### The Press as a stage (R114, R116, R136) -/

/-- The context's whole input has come in. -/
def State.pressFed (s : State) (k : Nat) : Bool :=
  let c := s.ctx k
  c.st == .active && c.desc ≠ [] && dPress c.desc && s.hasPress k && c.pressed.isNone && c.pos == dLen c.desc && c.reads.isEmpty &&
    dLen c.desc != 0
/-- An operation of the Press on the input that it has been fed. An output that falls back has its input read a second time and
is made from that (R116; where the two differ, log entry 57). -/
def State.pressOp (s : State) (k op : Nat) : State :=
  let c := s.ctx k
  let w := dW c.desc 4
  let b := blkPRESS (ctxCl k)
  if !s.pressFed k || ppOp w != op || !s.alive then s
  else
    let bs := (c.pin.flatMap (fun e => leBytes 16 e.2.v)).toArray
    let rd (o n : Nat) : Nat := leNat ((List.range n).map (fun i => bs.getD (o + i) 0))
    if pressLen rd w ≠ some (dLen c.desc) then s.chainFault k 0x44 0
    else
      let pick := s.fresh
      let r := pressRun rd w (dLen c.desc) pick.1.toNat
      if r.tiles.any (·.2.2) && !c.again then s.setCtx k { c with again := true, pos := 0, pin := [] }
      else
        let s := if op = 5 then pick.2 else s
        let s := ((s.bump b F.PRESS.PRESS_DROP_COUNT.COUNT 0 r.drops).bump b F.PRESS.AUDIT_FAULTS.COUNT 0 r.faults).bump b
          F.PRESS.AUDIT_BAD_TILES.COUNT 0 r.badTiles
        let n := r.out.length
        let codes := (List.range ((n + 15) / 16)).map (fun i => Code.mk (leNat ((r.out.drop (16 * i)).take 16)) false)
        s.setCtx k { c with pressed := some n, pin := [], out := codes, tiles := r.tiles }
def execCompressCsr (c x : Fin 64) (s : State) : Host.Outcome State Fault Refusal := .next (s.pressOp (ctxKey c.val x.val) 1)
def execCompressK8 (c x : Fin 64) (s : State) : Host.Outcome State Fault Refusal := .next (s.pressOp (ctxKey c.val x.val) 2)
def execFixMask (c x : Fin 64) (s : State) : Host.Outcome State Fault Refusal := .next (s.pressOp (ctxKey c.val x.val) 3)
def execAudit (c x : Fin 64) (s : State) : Host.Outcome State Fault Refusal := .next (s.pressOp (ctxKey c.val x.val) 4)
def execTranspose (c x : Fin 64) (s : State) : Host.Outcome State Fault Refusal := .next (s.pressOp (ctxKey c.val x.val) 5)

/-! ### Segments (R138, R150) -/

/-- Bytes of segment `g` of an output of `total` bytes. -/
def segLen (d : List Nat) (total g : Nat) : Nat := min (dSeg d) (total - g * dSeg d)
/-- Codewords [lo, hi) of the Press's output are written. -/
def State.pressPut (s : State) (k lo hi : Nat) : State :=
  let c := s.ctx k
  (List.range (hi - lo)).foldl (fun s i =>
    s.homeWriteCodes (.ctx k) c.mode (c.dst (16 * (lo + i))) [c.out.getD (lo + i) ⟨0, false⟩]) s
/-- The Press's segment `g` of `n` bytes is written. The header of a tile is written last (R116): with the segment that ends the
tile, or, into a ring, whose slots are used up before the tile ends, last in its own segment (log entry 57). A tile is counted
when its last byte is written. -/
def State.pressWrite (s : State) (k g n : Nat) : State :=
  let c := s.ctx k
  let lo := g * dSeg c.desc
  let heads := if dRing c.desc then c.tiles.filter (fun t => decide (lo ≤ t.1) && decide (t.1 < lo + n))
    else c.tiles.filter (fun t => decide (lo < t.2.1) && decide (t.2.1 ≤ lo + n))
  let inHead (i : Nat) : Bool := c.tiles.any (fun t => decide (t.1 ≤ 16 * i) && decide (16 * i < t.1 + 64))
  let idx := (List.range ((n + 15) / 16)).map (lo / 16 + ·)
  let s := (idx.filter (fun i => !inHead i)).foldl (fun s i => s.pressPut k i (i + 1)) s
  let s := heads.foldl (fun s t => s.pressPut k (t.1 / 16) (t.1 / 16 + 4)) s
  let done := c.tiles.filter (fun t => decide (lo < t.2.1) && decide (t.2.1 ≤ lo + n))
  let b := blkPRESS (ctxCl k)
  let s := (s.bump b F.PRESS.TILES_OUT.COUNT 0 done.length).bump b F.PRESS.FALLBACK_COUNT.COUNT 0 (done.filter (·.2.2)).length
  s.countMoved (ctxCl k) 0 n
/-- The codewords of segment `g`, of `n` bytes, in output order. -/
def Ctx.segCodes (c : Ctx) (g n : Nat) : List Code :=
  (List.range ((n + 15) / 16)).map (fun i =>
    let p := g * dSeg c.desc / 16 + i
    if dPress c.desc then c.out.getD p ⟨0, false⟩ else Sparse.get ⟨0, false⟩ c.outs p)
/-- Segment `segs` of a context other than a multicast's is written and acknowledged. -/
def State.segReady (s : State) (k : Nat) : Bool :=
  let c := s.ctx k
  let g := c.segs
  let d := c.desc
  match c.total? with
  | some t =>
    g < segCount d t && (if dPress d then !dRing d || decide (g < c.credits)
      else decide (min t ((g + 1) * dSeg d) ≤ c.pos) && c.reads.all (fun r => r.kind == .list || (g + 1) * dSeg d ≤ r.pos))
  | none => decide ((g + 1) * dSeg d ≤ c.pos) && c.reads.all (fun r => r.kind == .list || (g + 1) * dSeg d ≤ r.pos)
/-- After a segment: its digest, the DATA signal, and in a relay its hop to member 1. -/
def State.segDone (s : State) (k g n : Nat) : State :=
  let c := s.ctx k
  let d := c.desc
  let l := c.segCodes g n
  if dDen d && l.any (·.poison) then s.chainFault k 0x07 (c.dst (g * dSeg d))
  else
    let s := if dDen d then s.segDigest k g l n else s
    let c := s.ctx k
    let s := s.setCtx k { c with segs := c.segs + 1, outs := c.outs.filter (fun e => decide ((g + 1) * dSeg d / 16 ≤ e.1)), sigs := if dRing d then c.sigs + 1 else c.sigs }
    let s := if dRing d then s.sendSync (.ctx k) (dDataObj d) (.sig 1 true) else s
    if dKind d = 5 ∧ 1 < dNmemb d then
      if s.slotFree k g 1 then
        { s with hops := s.hops ++ [Hop.mk k g 0 .credit] }.sendSync (.hop k g 0) (dSpaceObj d + 1) (.wait 1)
      else { s with hops := s.hops ++ [Hop.mk k g 0 .blocked] }
    else s
def State.segWritten (s : State) (k : Nat) : State :=
  let c := s.ctx k
  if c.st ≠ .active ∨ c.desc = [] ∨ dKind c.desc = 4 ∨ !s.segReady k then s
  else
    let g := c.segs
    let n := match c.total? with
      | some t => segLen c.desc t g
      | none => dSeg c.desc
    if dPress c.desc then
      let a := c.dst (g * dSeg c.desc)
      if dCap c.desc < g * dSeg c.desc + n then s.chainFault k 0x42 (dDst c.desc + dCap c.desc)
      else if s.destWaits k a n then s
      else if s.ctxRefused k a n true then (s.engineReject (s.firstRefused (.ctx k) a n true) true).chainFault k 0x42 a
      else
        let s := s.pressWrite k g n
        (s.setCtx k { s.ctx k with acked := (s.ctx k).acked + n }).segDone k g n
    else s.segDone k g n

/-! ### Multicast (R143) -/

/-- The receivers that still take segments. -/
def Ctx.live (c : Ctx) : List Recv := c.recv.filter (fun r => !r.shed)
/-- Segments that every receiver not shed has acknowledged leave the store. -/
def Ctx.mcLeave (c : Ctx) : Ctx := { c with store := c.store.filter (fun e => c.live.any (fun r => r.segs ≤ e.1)) }
/-- A receiver's list entry (Table 6.4). -/
def State.putEntry (s : State) (k i : Nat) (r : Recv) : State :=
  s.listWrite k (dListAddr (s.ctx k).desc + 4 * i) (r.core + b2n r.shed * 4096 + min r.segs 0xFFFF * 65536)
/-- A list entry cannot be written now. -/
def State.entriesWait (s : State) (k : Nat) : Bool :=
  let c := s.ctx k
  (List.range c.recv.length).any (fun i => s.destWaits k (dListAddr c.desc + 4 * i) 4)
/-- A segment that cannot enter sheds every receiver that has not acknowledged segment g − 4, where the policy is SHED
and some receiver has acknowledged every segment held. -/
def State.mcShed (s : State) (k : Nat) : State :=
  let c := s.ctx k
  let g := c.mcIn
  if dShed c.desc && c.live.any (fun r => g ≤ r.segs) && !s.entriesWait k then
    (List.range c.recv.length).foldl (fun s i =>
      let r := (s.ctx k).recv.getD i ⟨0, false, 0⟩
      if (s.ctx k).st ≠ .active ∨ r.shed ∨ g - 4 < r.segs then s
      else
        let r' := { r with shed := true }
        let s := (s.setCtx k { s.ctx k with recv := (s.ctx k).recv.set i r' }).bump (blkSTRM (ctxCl k)) F.STRM.SHED_RECEIVERS.COUNT
        s.putEntry k i r') s
  else s
/-- MC_STORE_ENTRY: the next segment is let into the store, to be read from the source; a full store sheds or holds it. -/
def State.mcEntry (s : State) (k : Nat) : State :=
  let s := s.mcReserve k
  let c := s.ctx k
  let d := c.desc
  let g := c.mcIn
  if c.st ≠ .active ∨ d = [] ∨ dKind d ≠ 4 ∨ c.mcHeld = 0 ∨ segCount d (dLen d) ≤ g ∨ !s.alive then s
  else
    let s := if 4 ≤ c.store.length then s.mcShed k else s
    let c := (s.ctx k).mcLeave
    if c.st ≠ .active then s
    else if 4 ≤ c.store.length then s.setCtx k c
    else s.setCtx k { c with store := c.store ++ [(g, List.replicate (segLen d (dLen d) g / 16) none)], mcIn := g + 1 }
def execMcStoreEntry (c x : Fin 64) (s : State) : Host.Outcome State Fault Refusal := .next (s.mcEntry (ctxKey c.val x.val))
/-- The oldest segment of the store that receiver `i` lacks is written there and acknowledged. -/
def State.mcWrite (s : State) (k i : Nat) : State :=
  let c := s.ctx k
  let r := c.recv.getD i ⟨0, true, 0⟩
  let a := scratchAddr r.core (dDst c.desc + r.segs * dSeg c.desc)
  match c.store.find? (fun e => e.1 == r.segs && e.2.all (·.isSome)) with
  | none => s
  | some e =>
    let l := e.2.filterMap id
    let n := 16 * l.length
    if c.st ≠ .active ∨ r.shed ∨ s.destWaits k a n then s
    else if s.ctxRefused k a n true then (s.engineReject a true).chainFault k 0x42 a
    else
      let s := (List.range l.length).foldl (fun s j => s.homeWriteCodes (.ctx k) c.mode (a + 16 * j) [l.getD j ⟨0, false⟩]) s
      let s := s.countMoved (ctxCl k) 0 n
      let c := s.ctx k
      s.setCtx k ({ c with recv := c.recv.set i { r with segs := r.segs + 1 } }).mcLeave
/-- SEGMENT_WRITTEN: of a multicast, for receiver `r`; otherwise the context's next segment. -/
def execSegmentWritten (c x : Fin 64) (r : Nat) (s : State) : Host.Outcome State Fault Refusal :=
  let k := ctxKey c.val x.val
  .next (if !s.alive then s else if dKind (s.ctx k).desc = 4 ∧ (s.ctx k).desc ≠ [] then s.mcWrite k r else s.segWritten k)

/-! ### Relays (R144) -/

def State.setHop (s : State) (h : Hop) (st : HopSt) : State :=
  { s with hops := s.hops.map (fun x => if x = h then { h with st := st } else x) }
/-- The cluster whose engine carries a hop: that of the member it leaves. -/
def State.hopCl (s : State) (h : Hop) : Nat := s.memCl h.ctx h.mem
/-- RELAY_HOP: with its credit, a hop takes one of the engine's 8 forwarders. -/
def execRelayHop (c x : Fin 64) (seg mem : Nat) (s : State) : Host.Outcome State Fault Refusal :=
  let k := ctxKey c.val x.val
  .next (match s.hops.find? (fun h => h.ctx == k && h.seg == seg && h.mem == mem && h.st == .ready) with
    | none => s
    | some h =>
      if s.alive ∧ (s.hops.filter (fun y => y.st == .moving && s.hopCl y == s.hopCl h)).length < 8 then s.setHop h .moving else s)
/-- Where segment `g` stands in member `m`. -/
def Ctx.memAddr (c : Ctx) (g m : Nat) : Nat :=
  scratchAddr (c.recv.getD m ⟨0, false, 0⟩).core (dDst c.desc + (c.ringP + g) % dNseg c.desc * dSeg c.desc)
/-- A blocked hop whose slot has become free asks for its credit. -/
def State.unblock (s : State) (k : Nat) : State :=
  (s.hops.filter (fun h => h.ctx == k && h.st == .blocked)).foldl (fun s h =>
    if s.slotFree k h.seg (h.mem + 1) then
      (s.setHop h .credit).sendSync (.hop k h.seg h.mem) (dSpaceObj (s.ctx k).desc + h.mem + 1) (.wait 1)
    else s) s
/-- RELAY_HOP_DONE: the segment stands in the next member, whose DATA object is signalled; the next hop begins. -/
def State.hopDone (s : State) (h : Hop) : State :=
  let k := h.ctx
  let c := s.ctx k
  let d := c.desc
  let n := segLen d (dLen d) h.seg
  let src := c.memAddr h.seg h.mem
  let dst := c.memAddr h.seg (h.mem + 1)
  let drop (s : State) : State := { s with hops := s.hops.filter (· != h) }
  if c.st ≠ .active then drop s
  else if s.ctxWaits k src n false ∨ s.destWaits k dst n then s
  else if s.ctxRefused k src n false then ((drop s).engineReject src false).chainFault k 0x41 src
  else if s.ctxRefused k dst n true then ((drop s).engineReject dst true).chainFault k 0x42 dst
  else
    let s := s.spanTouch (.ctx k) src n
    let l := readCodes s src n
    let s := (List.range l.length).foldl (fun s j => s.homeWriteCodes (.ctx k) c.mode (dst + 16 * j) [l.getD j ⟨0, false⟩]) s
    let s := (drop s).countMoved (s.hopCl h) n n
    let m := h.mem + 1
    let c := s.ctx k
    let s := s.setCtx k { c with sigs := c.sigs + 1, recv := c.recv.modify m (fun r => { r with segs := r.segs + 1 }) }
    let s := s.sendSync (.ctx k) (dDataObj d + m) (.sig 1 true)
    let s := if m + 1 < dNmemb d then { s with hops := s.hops ++ [Hop.mk k h.seg m .blocked] } else s
    s.unblock k
def execRelayHopDone (c x : Fin 64) (seg mem : Nat) (s : State) : Host.Outcome State Fault Refusal :=
  let k := ctxKey c.val x.val
  .next (match s.hops.find? (fun h => h.ctx == k && h.seg == seg && h.mem == mem && h.st == .moving) with
    | none => s
    -- segments reach a member in order
    | some h => if s.alive ∧ !s.hops.any (fun y => y.ctx == k && y.mem == mem && y.seg < seg) then s.hopDone h else s)

/-! ### Answers from the sync tables (R138, R140) -/

/-- An answer for context `k` or one of its hops. -/
def wakeFor (k : Nat) (w : Wake) : Bool :=
  match w.who with
  | .ctx c => c == k
  | .hop c _ _ => c == k
  | _ => false
/-- One that has reached it. -/
def State.wakeOf (s : State) (k : Nat) (sig : Bool) (w : Wake) : Bool :=
  s.landed w.id && w.sig == sig && wakeFor k w
def State.takeWake (s : State) (w : Wake) : State := { s with wakes := s.wakes.erase w }
/-- CREDIT_WAIT_GRANTED: a credit is held, or the chain ends with SYNC_OBJ_FAULT. -/
def execCreditWaitGranted (c x : Fin 64) (s : State) : Host.Outcome State Fault Refusal :=
  let k := ctxKey c.val x.val
  .next (match s.wakes.find? (s.wakeOf k false) with
    | none => s
    | some w =>
      let s := s.takeWake w
      if (s.ctx k).st ≠ .active then s
      else if w.status ≠ 0 then s.chainFault k 0x46 0
      else match w.who with
        | .hop _ seg mem =>
          (match s.hops.find? (fun h => h.ctx == k && h.seg == seg && h.mem == mem) with
            | some h => s.setHop h .ready
            | none => s)
        | _ => s.setCtx k { s.ctx k with credits := (s.ctx k).credits + 1, creditWait := false, eligAt := s.clk.arith })
/-- ENGINE_SIGNAL_ANSWER: a signal's answer; after the DONE signal's the chain goes on. -/
def execEngineSignalAnswer (c x : Fin 64) (s : State) : Host.Outcome State Fault Refusal :=
  let k := ctxKey c.val x.val
  .next (match s.wakes.find? (s.wakeOf k true) with
    | none => s
    | some w =>
      let s := s.takeWake w
      let t := s.ctx k
      let s := s.setCtx k { t with sigs := t.sigs - 1, noRec := t.noRec || t.doneSent && w.status != 0 }
      if t.st ≠ .active then s
      else if w.status ≠ 0 then s.chainFault k 0x46 0
      else if t.doneSent ∧ t.sigs = 1 then s.ctxAdvance k else s)

/-! ### Completion (R148, R149) and the end of a cancelled context (R152) -/

/-- The completion record (Table 6.5). -/
def Ctx.record (c : Ctx) (x status bytes gtc detail : Nat) : List Byte :=
  let d := c.desc
  let count := if dKind d = 2 then c.oob else if dKind d = 3 then c.rows else 0
  leBytes 1 status ++ leBytes 1 (1 + 2 * b2n (c.recv.any (·.shed))) ++ leBytes 2 (dTag d) ++ leBytes 4 count ++
    leBytes 8 (bytes % 2 ^ 40) ++ leBytes 8 gtc ++ leBytes 4 (x + c.owner / 64 * 64 + c.owner % 64 * 0x40000) ++ leBytes 4 detail
/-- The bytes that have been written and acknowledged: of a multicast or a relay, in every receiver not shed or every member
(log entry 58). -/
def Ctx.ackedBytes (c : Ctx) : Nat :=
  if dKind c.desc = 4 then c.live.foldl (fun n r => min n (min (dLen c.desc) (r.segs * dSeg c.desc))) (dLen c.desc)
  else if dKind c.desc = 5 then (c.recv.drop 1).foldl (fun n r => min n (min (dLen c.desc) (r.segs * dSeg c.desc))) c.acked
  else c.acked
/-- The segments completed in the current descriptor, counted in the same way. -/
def Ctx.doneSegs (c : Ctx) : Nat :=
  if dKind c.desc = 4 then c.live.foldl (fun n r => min n r.segs) (segCount c.desc (dLen c.desc))
  else if dKind c.desc = 5 then (c.recv.drop 1).foldl (fun n r => min n r.segs) c.segs
  else c.segs
def State.descReady (s : State) (k : Nat) : Bool :=
  let c := s.ctx k
  let d := c.desc
  c.st == .active && d ≠ [] && c.reads.isEmpty && c.sigs == 0 && !c.doneSent && !s.hops.any (fun h => h.ctx == k) &&
  match c.total? with
  | some t =>
    if dKind d = 4 then c.mcIn == segCount d t && c.live.all (fun r => r.segs == segCount d t)
    else c.segs == segCount d t && (dPress d || c.pos == t)
  | none => false
/-- DESCRIPTOR_COMPLETE: the list's fields, the record, the DONE signal; without one, the chain goes on at once. -/
def State.descComplete (s : State) (k : Nat) : State :=
  let c := s.ctx k
  let d := c.desc
  let cpl := dCpl d
  if !s.descReady k || !s.alive then s
  else if cpl ≠ 0 && s.destWaits k cpl 32 || s.entriesWait k then s
  else
    let s := (List.range c.recv.length).foldl (fun s i =>
      let r := c.recv.getD i ⟨0, false, 0⟩
      if (s.ctx k).st ≠ .active then s else s.putEntry k i (if dKind d = 5 ∧ i = 0 then { r with segs := c.segs } else r)) s
    if (s.ctx k).st ≠ .active then s
    else if cpl ≠ 0 && s.ctxRefused k cpl 32 true then
      ((s.setCtx k { s.ctx k with noRec := true }).engineReject cpl true).chainFault k 0x42 cpl
    else
      let s := if cpl = 0 then s
        else s.homeWrite (.ctx k) c.mode cpl (c.record (k % 64) 0 (c.total?.getD 0) s.now 0) false
      if dDoneEn d then
        (s.setCtx k { s.ctx k with doneSent := true, sigs := 1 }).sendSync (.ctx k) (dDoneObj d) (.sig 1 false)
      else s.ctxAdvance k
def execDescriptorComplete (c x : Fin 64) (s : State) : Host.Outcome State Fault Refusal :=
  .next (s.descComplete (ctxKey c.val x.val))
/-- The SEQ of report `id`, once the logger has taken it: of the newest record that carries it; 0 where it was merged or
dropped. -/
def State.seqOf (s : State) (id : Option Nat) : Nat :=
  match id with
  | none => 0
  | some i => match s.err.log.find? (fun e => match e.2 with
      | some r => r.id == i
      | none => false) with
    | some (_, some r) => r.seq
    | _ => 0
/-- The logger has still to take report `id`. -/
def State.reportWaits (s : State) (id : Option Nat) : Bool :=
  match id with
  | none => false
  | some i => s.err.queues.any (fun e => e.2.any (fun r => r.id == i)) ||
      -- the report of a firing whose dump is being written is still to come (R198)
      (List.range 4).any (fun q => (s.wd q).errRef == some i && s.fbit (blkSYNC q) F.SYNC.WD_STATUS.DUMPING)
/-- CONTEXT_FREE: all of a cancelled context's requests are answered; its record is written and it is FREE. -/
def State.ctxFree (s : State) (k : Nat) : State :=
  let c := s.ctx k
  let cpl := dCpl c.desc
  if c.st ≠ .cancelling ∨ !c.reads.isEmpty ∨ s.hops.any (fun h => h.ctx == k) ∨ s.reportWaits c.errRef ∨
      s.syncMsgs.any (fun m => m.who == .ctx k) then s
  else if c.desc ≠ [] ∧ cpl ≠ 0 ∧ cpl % 32 = 0 ∧ !c.noRec ∧ s.destWaits k cpl 32 then s
  else
    let s := s.pressFree k
    let s := if c.desc = [] ∨ cpl = 0 ∨ cpl % 32 ≠ 0 ∨ c.noRec ∨ !inDevMem cpl ∨ s.ctxRefused k cpl 32 true then s
      else s.homeWrite (.ctx k) c.mode cpl (c.record (k % 64) c.fault c.ackedBytes s.now (s.seqOf c.errRef)) false
    let s := { s with wakes := s.wakes.filter (fun w => !wakeFor k w) }
    s.setCtx k Ctx.init
def execContextFree (c x : Fin 64) (s : State) : Host.Outcome State Fault Refusal := .next (s.ctxFree (ctxKey c.val x.val))

end Sys2Proof.Machine
end

