-- ==== Sys2Proof/Machine/Tasks.lean ====
section
/-! DEFINITION. Task records and the schedulers: spawning (R157, R158), flags (R159, R160), placement (R163-R167), the
latency window (R163). -/

namespace Sys2Proof.Machine

/-! ### Records (Table 7.1) -/

/-- A task record from its 64 bytes as a number. -/
def taskRec (v : Nat) : TaskRec :=
  ⟨bits v 0 49, bits v 64 64, bits v 128 32, bits v 160 32, bits v 192 1, bits v 193 4, bit v 197, bits v 198 2,
    bits v 208 12, bits v 256 32, bits v 288 32⟩
def recReserved (v : Nat) : Bool :=
  bits v 49 15 == 0 && bits v 200 8 == 0 && bits v 220 4 == 0 && bits v 224 32 == 0 && bits v 320 192 == 0
/-- The checks of R157 on a record for a job with QMASK `qm`; a root's CLASS and LEVEL are not checked (R162). -/
def recOk (v qm : Nat) (root : Bool) : Bool :=
  let r := taskRec v
  recReserved v && r.place ≠ 3 && (root || r.cls == 0 || r.level ≤ 7) && r.entry % 4 == 0 &&
    (r.place ≠ 0 || r.pcore % 1024 == 0) && (r.place ≠ 1 || r.pcore % 64 == 0) && bit qm (r.pcore / 1024)
/-- The quarter a record names. -/
def TaskRec.q (r : TaskRec) : Nat := r.pcore / 1024
def handleOf (q gen e : Nat) : Nat := q * 2 ^ 30 + gen * 2 ^ 14 + e

/-! ### The task table (R155) -/

/-- The lowest-numbered free entry of quarter `q`. -/
def State.freeEntry? (s : State) (q : Nat) : Option Nat :=
  (List.range 16384).find? (fun e => !(s.entry (entryKey q e)).used)
def State.usedEntries (s : State) (q : Nat) : Nat :=
  (s.tasks.filter (fun e => e.1 / 16384 == q && e.2.used)).length
def Entry.isReady (e : Entry) : Bool := e.flags &&& e.trec.mask == e.trec.mask
/-- A record enters entry `e` of quarter `q`; with MASK = 0, or flags that cover it, the task is ready at once. -/
def State.takeEntry (s : State) (q e : Nat) (r : TaskRec) (addr : Nat) (j : JobId) (eligible : Bool) : State :=
  let k := entryKey q e
  let x : Entry := ⟨true, (s.entry k).gen, r, addr, j, r.flags, eligible, none, false, s.clk.arith⟩
  s.setEntry k (if x.isReady then { x with ready := some s.clk.arith } else x)

/-! ### Spawning (R157, R158) -/

/-- TASK.SPAWN by thread `k`: the record is read as one LAT request. -/
def State.spawnIssue (s : State) (k rd a : Nat) : State :=
  if a % 64 ≠ 0 ∨ bit a 48 then s.coreFault k 0x05
  else match rejectedAt a 64 false with
    | some b => (s.fabReject b false).coreFault k 0x04 b
    | none =>
      let s := (s.sendReq k .spawn a 64 0 0 0).pcNext k
      let s := { s with spawns := s.spawns ++ [Spawn.mk k 0 (s.thread k).job a .reading 0] }
      s.park k (.spawn rd)
def execTaskSpawn (t : Tid) (g : BitVec 4) (xd xa : BitVec 5) (s : State) : Host.Outcome State Fault Refusal :=
  .next (s.instr (.taskSpawn t g xd xa) t g (fun m =>
    if m.unacked t.key then none else some (m.spawnIssue t.key xd.toNat ((m.thread t.key).getX xa).toNat)))
def Req.isSpawn (r : Req) : Bool := r.op == .spawn
/-- SPAWN_RECORD_RETURN: the record is checked and goes to its scheduler, where it waits its turn. -/
def State.spawnReturn (s : State) (k : Nat) : State :=
  let rs := s.reqsOf k Req.isSpawn
  if rs.isEmpty || !rs.all s.answered then s
  else
    let s' := s.dropReqsOf k Req.isSpawn
    match s.spawns.find? (fun x => x.thread == k), gather rs with
    | none, _ => s'
    | some _, .refused c a => if s.goneWindow a then s'.withdrawnFault k (s.thread k).faultPc a else s'.coreFault k c a
    | some _, .poison a => s'.coreFault k 0x07 a
    | some x, .value v =>
      let r := taskRec v
      if !recOk v (s.qmaskOf x.job) false then s'.coreFault k 0x05
      else if s.qState r.q = 5 then s'.withdrawnFault k (s'.thread k).faultPc x.addr
      else
        let before := (s.spawns.filter (fun y => y.q == r.q && match y.phase with
          | .waiting _ => true
          | _ => false)).length
        let full := decide (16384 ≤ s.usedEntries r.q + before)
        let s' := if full then s'.bump (blkTSCHED r.q) F.TSCHED.SPAWN_PARKS.COUNT else s'
        { s' with spawns := s'.spawns.filter (fun y => y.thread != k) ++ [{ x with q := r.q, phase := .waiting r, parkedAt := s.clk.arith }] }
def execSpawnRecordReturn (t : Tid) (s : State) : Host.Outcome State Fault Refusal := .next (s.spawnReturn t.key)
/-- The next spawn to be served at quarter `q`: the first to arrive, of those of one cycle the lowest core and thread. -/
def State.waitingSpawn (s : State) (q : Nat) : Option (Spawn × TaskRec) :=
  let l := s.spawns.filterMap (fun x => match x.phase with
    | .waiting r => if x.q = q then some (x, r) else none
    | _ => none)
  l.foldl (fun (best : Option (Spawn × TaskRec)) e => match best with
    | none => some e
    | some b => if [e.1.parkedAt, e.1.thread] < [b.1.parkedAt, b.1.thread] then some e else some b) none
/-- SPAWN_ACCEPT: the next waiting spawn takes the lowest free entry, when the cycle of its arrival is over. -/
def execSpawnAccept (q : Fin 4) (s : State) : Host.Outcome State Fault Refusal :=
  .next (match s.waitingSpawn q.val, s.freeEntry? q.val with
    | some (x, r), some e =>
      if !s.alive || !s.qUp q.val || decide (s.clk.arith ≤ x.parkedAt) then s
      else
        let h := handleOf q.val (s.entry (entryKey q.val e)).gen e
        let s := s.takeEntry q.val e r x.addr x.job true
        { s with spawns := s.spawns.map (fun y => if y.thread = x.thread then { y with phase := .accepted h } else y) }
    | _, _ => s)
/-- SPAWN_HANDLE_ARRIVAL: the handle is written to xd and the spawning thread is READY. -/
def execSpawnHandleArrival (t : Tid) (s : State) : Host.Outcome State Fault Refusal :=
  let k := t.key
  .next (match (s.thread k).st, s.spawns.find? (fun x => x.thread == k) with
    | .parked (.spawn rd), some x =>
      (match x.phase with
        | .accepted h =>
          let s := { s with spawns := s.spawns.filter (fun y => y.thread != k) }
          (s.setThread k ((s.thread k).setXn rd h)).wakeThread k
        | _ => s)
    | _, _ => s)

/-! ### Flags (R159, R160) -/

def execTaskFlag (t : Tid) (g : BitVec 4) (xa xb : BitVec 5) (s : State) : Host.Outcome State Fault Refusal :=
  .next (s.instr (.taskFlag t g xa xb) t g (fun m =>
    let th := m.thread t.key
    let h := (th.getX xa).toNat
    let f := (th.getX xb).toNat
    if m.unacked t.key then none
    else if 2 ^ 32 ≤ h ∨ 2 ^ 32 ≤ f then some (m.coreFault t.key 0x05)
    else some ((m.sendFlag t.key (some t.key) th.job h f).pcNext t.key)))
/-- Table 7.2. -/
def State.flagArrives (s : State) (q : Nat) (m : FlagMsg) : State :=
  let k := entryKey q (m.handle % 16384)
  let e := s.entry k
  if !bit (s.qmaskOf m.job) q || !e.used || e.job != m.job || e.gen != bits m.handle 14 16 then
    s.bump (blkTSCHED q) F.TSCHED.FLAG_REJECTS.COUNT
  else
    let e' := { e with flags := e.flags ||| m.flags }
    s.setEntry k (if e'.ready = none ∧ e'.isReady then { e' with ready := some (s.clk.arith + 1) } else e')
/-- FLAG_ARRIVAL: the first flag that has come to quarter `q`; at a withdrawn quarter the sender's task aborts (R380). -/
def execFlagArrival (q : Fin 4) (s : State) : Host.Outcome State Fault Refusal :=
  .next (match s.flagMsgs.find? (fun m => m.handle / 2 ^ 30 == q.val && s.landed m.id) with
    | none => s
    | some m =>
      if !s.alive then s
      else
        let s := { s with flagMsgs := s.flagMsgs.erase m }
        if s.qState q.val = 5 then
          match m.sender with
          | some k => if (s.thread k).st = .free ∨ (s.thread k).job ≠ m.job then s else s.withdrawnFault k (s.thread k).faultPc 0
          | none => s
        else if s.qUp q.val then s.flagArrives q.val m
        else s.bump (blkTSCHED q.val) F.TSCHED.FLAG_REJECTS.COUNT)

/-! ### Placement (R163-R167) -/

def State.inTransition (s : State) : Bool := s.fbit blkMODE F.MODE.MODE_STATUS.TRANSITION
/-- A task is ready in this cycle. -/
def Entry.readyBy (e : Entry) (now : Nat) : Bool := e.ready.any (fun t => decide (t ≤ now))
/-- A ready task that may be placed now. -/
def State.placeable (s : State) (e : Entry) : Bool :=
  e.used && e.eligible && !e.placed && !(e.trec.modeSens && s.inTransition) &&
  match e.ready with
  | some t => t < s.clk.arith
  | none => false
/-- PLACE and PCORE allow the core. -/
def TaskRec.allows (r : TaskRec) (core : Nat) : Bool :=
  r.q == coreQ core && (r.place == 0 || (r.place == 1 && r.pcore / 64 == core / 64) || (r.place == 2 && r.pcore == core))
def State.candidates (s : State) (core : Nat) : List (Nat × Entry) :=
  s.tasks.filter (fun e => e.1 / 16384 == coreQ core && s.placeable e.2 && e.2.trec.allows core)
/-- R164: the order within a class, level first where `lv`, then readiness, then the entry's number. -/
def before (lv : Bool) (a b : Nat × Entry) : Bool :=
  let key (e : Nat × Entry) : List Nat := [if lv then e.2.trec.level else 0, e.2.ready.getD 0, e.1]
  decide (key a < key b)
def firstOf (lv : Bool) (l : List (Nat × Entry)) : Option Nat :=
  (l.foldl (fun best e => match best with
    | none => some e
    | some b => if before lv e b then some e else some b) none).map (·.1)
/-- The signed deficit of bulk group `g`. -/
def State.deficit (s : State) (q g : Nat) : Int := sextInt 48 (s.fget (blkTSCHED q) F.TSCHED.GROUP_CTL.DEFICIT (8 * g))
def State.setDeficit (s : State) (q g : Nat) (v : Int) : State :=
  s.fset (blkTSCHED q) F.TSCHED.GROUP_CTL.DEFICIT (BitVec.ofInt 48 (max v (-140737488355328))).toNat (8 * g)
/-- Group `g` has ready tasks anywhere in the quarter. -/
def State.groupBusy (s : State) (q g : Nat) : Bool :=
  s.tasks.any (fun e => e.1 / 16384 == q && e.2.used && e.2.trec.cls == 1 && e.2.trec.level == g && !e.2.placed && e.2.readyBy s.clk.arith)
/-- Steps 2 to 4 of R165. -/
def State.drrNext (s : State) (q : Nat) : State :=
  let g := ((s.sched q).ptr + 1) % 8
  let quantum : Int := s.fget (blkTSCHED q) F.TSCHED.GROUP_CTL.WEIGHT (8 * g) * 65536
  let d := s.deficit q g
  let d' := if s.groupBusy q g then max d (min (d + quantum) (2 * quantum)) else min d 0
  (s.setSched q { s.sched q with ptr := g }).setDeficit q g d'
/-- Deficit round robin (R165) over the bulk tasks `l` eligible for the core: each turn brings a busy group nearer to a
positive deficit, so the turns end. -/
def State.drr (s : State) (q : Nat) (l : List (Nat × Entry)) : Nat → State × Option Nat
  | 0 => (s, none)
  | fuel + 1 =>
    let p := (s.sched q).ptr
    match firstOf false (l.filter (fun e => e.2.trec.level == p)) with
    | some e => if 0 < s.deficit q p then (s, some e) else (s.drrNext q).drr q l fuel
    | none => (s.drrNext q).drr q l fuel
/-- Turns that suffice: a deficit of −2^47 is made up in 2^31 rounds of 8 groups. -/
def drrFuel : Nat := 0x800000000
def State.latCapped (s : State) (q : Nat) : Bool :=
  let cap := s.fget (blkTSCHED q) F.TSCHED.SCHED_CTL.LAT_CAP
  cap != 256 && cap * 22937600 ≤ s.fget (blkTSCHED q) F.TSCHED.LAT_USED.COUNT
/-- The task that goes to a core (R163). -/
def State.choose (s : State) (core : Nat) : State × Option Nat :=
  let c := s.candidates core
  let lat := c.filter (fun e => e.2.trec.cls == 0)
  let bulk := c.filter (fun e => e.2.trec.cls != 0)
  if !lat.isEmpty && (!s.latCapped (coreQ core) || bulk.isEmpty) then (s, firstOf true lat)
  else if bulk.isEmpty then (s, none) else s.drr (coreQ core) bulk drrFuel
/-- The core of cluster `cl` that takes the next placement (R166), and whether into RUN. -/
def State.slotCore (s : State) (cl : Nat) : Option (Nat × Bool) :=
  let cores := ((List.range 64).map (cl * 64 + ·)).filter (fun c => !(s.candidates c).isEmpty)
  match cores.find? (fun c => (s.core c).run.isNone && (s.freeThread c).isSome) with
  | some c => some (c, true)
  | none => (cores.find? (fun c => (s.core c).next.isNone)).map (fun c => (c, (s.core c).run.isNone))
/-- The cluster may place: its quarter dispatches, it is powered and not in reset, and it has not placed in this cycle. -/
def State.mayPlace (s : State) (cl : Nat) : Bool :=
  let q := cl / 16
  s.alive && s.qUp q && !s.fbit (blkTSCHED q) F.TSCHED.SCHED_STATUS.STOPPED && !s.clusterOff cl &&
    !s.pow.qreset.getLsbD q && !s.pow.creset.getLsbD cl && !(s.sched q).placed.getLsbD (cl % 16)
/-- Every cluster that comes before `cl` in this cycle has placed or has nothing to place. -/
def State.turnOf (s : State) (cl : Nat) : Bool :=
  let q := cl / 16
  let f := (s.sched q).first
  let n := (cl % 16 + 16 - f % 16) % 16
  (List.range n).all (fun i =>
    let c := 16 * q + (f + i) % 16
    !s.mayPlace c || (s.slotCore c).isNone)
/-- Entry `e` goes into RUN or NEXT of a core. -/
def State.placeAt (s : State) (core e : Nat) (run : Bool) : State :=
  let c := s.core core
  let s := s.setEntry e { s.entry e with placed := true }
  let s := s.setCore core (if run then { c with run := some e } else { c with next := some e })
  -- a gated core wakes when RUN is filled while a thread is FREE (R53)
  let s := if run && (s.freeThread core).isSome then s.touch core else s
  let x := s.sched (coreQ core)
  s.setSched (coreQ core) { x with placed := x.placed ||| (1 <<< (coreCl core % 16)) }
/-- TASK_PLACEMENT (R166). -/
def execTaskPlacement (cl : Fin 64) (s : State) : Host.Outcome State Fault Refusal :=
  .next (if s.mayPlace cl.val && s.turnOf cl.val then
    match s.slotCore cl.val with
    | none => s
    | some (core, run) =>
      let r := s.choose core
      match r.2 with
      | some e => r.1.placeAt core e run
      | none => s
  else s)
/-- LAT_WINDOW_RESET (R163): at a GTC count that is a multiple of 89,600. -/
def execLatWindowReset (s : State) : Host.Outcome State Fault Refusal :=
  .next (if s.now % 89600 = 0 then
    [0, 1, 2, 3].foldl (fun s q => s.fset (blkTSCHED q) F.TSCHED.LAT_USED.COUNT 0) s
  else s)

end Sys2Proof.Machine
end

