-- ==== Sys2Proof/Machine/Sync.lean ====
section
/-! DEFINITION. The sync tables: signals, waits and barriers (R179-R188), FAULTED objects and re-initialisation (R189,
R190), waking (R192). Objects are numbered 65,536 · quarter + number. -/

namespace Sys2Proof.Machine

/-! ### Issue (R179, R180) -/

/-- The object reference in xa is well formed and names a quarter of the job. -/
def State.refOk (s : State) (k : Nat) (a : Nat) : Bool :=
  a < 2 ^ 19 && bit (s.qmaskOf (s.thread k).job) (bits a 16 2)
def objOf (a : Nat) : Nat := a % 2 ^ 18
def State.syncSig (s : State) (k a v : Nat) : State :=
  if s.refOk k a && (sextInt 32 v == sextInt 64 v) then
    (s.sendSync (.thread k) (objOf a) (.sig (sextInt 32 v) (bit a 18))).pcNext k
  else s.coreFault k 0x05
def execSyncSig (t : Tid) (g : BitVec 4) (xa xb : BitVec 5) (s : State) : Host.Outcome State Fault Refusal :=
  .next (s.instr (.syncSig t g xa xb) t g (fun m =>
    let th := m.thread t.key
    if m.unacked t.key then none else some (m.syncSig t.key (th.getX xa).toNat (th.getX xb).toNat)))
def State.syncWait (s : State) (k rd a w : Nat) : State :=
  if s.refOk k a && w < 2 ^ 32 then
    ((s.sendSync (.thread k) (objOf a) (.wait w)).pcNext k).park k (.sync (a % 2 ^ 18) rd)
  else s.coreFault k 0x05
def execSyncWait (t : Tid) (g : BitVec 4) (xd xa xb : BitVec 5) (s : State) : Host.Outcome State Fault Refusal :=
  .next (s.instr (.syncWait t g xd xa xb) t g (fun m =>
    let th := m.thread t.key
    some (m.syncWait t.key xd.toNat (th.getX xa).toNat (th.getX xb).toNat)))
def State.syncBar (s : State) (k rd a : Nat) : State :=
  if s.refOk k a then
    ((s.sendSync (.thread k) (objOf a) (.bar (bit a 18))).pcNext k).park k (.sync a rd)
  else s.coreFault k 0x05
def execSyncBar (t : Tid) (g : BitVec 4) (xd xa : BitVec 5) (s : State) : Host.Outcome State Fault Refusal :=
  .next (s.instr (.syncBar t g xd xa) t g (fun m =>
    if m.unacked t.key then none else some (m.syncBar t.key xd.toNat ((m.thread t.key).getX xa).toNat)))

/-! ### Object words (R182) -/

def Obj.word0 (o : Obj) : Nat :=
  o.type + b2n o.faulted * 4 + o.cause * 8 + b2n o.set_ * 64 + b2n o.gen * 128 + o.overrun * 256 + o.parts * 65536 +
    (if o.type = 3 then o.arrived * 2 ^ 32 + o.next * 2 ^ 48 else o.count * 2 ^ 32)
def objQ (k : Nat) : Nat := k / 65536

/-! ### Wakes, faults (R189, R192) -/

/-- A message from the table of quarter `q` to `w`: a wake, or the answer to a signal. -/
def State.sendWake (s : State) (q : Nat) (w : SyncWho) (status cause : Nat) (sig : Bool) : State :=
  let r := s.sendMsg (blockIface (blkSYNC q)) (s.whoIface w).node
  { r.2 with wakes := r.2.wakes ++ [⟨r.1, w, status, cause, sig⟩] }
/-- The wait of `w` on object `k` ends. -/
def State.wake (s : State) (k : Nat) (w : SyncWho) (status cause : Nat) : State := s.sendWake (objQ k) w status cause false
def State.wakeAll (s : State) (k : Nat) (l : List Waiter) (status cause : Nat) : State :=
  l.foldl (fun s w => s.wake k w.who status cause) s
/-- An engine's signal is answered; a thread's is not. -/
def State.answerSig (s : State) (k : Nat) (w : SyncWho) (ok : Bool) : State :=
  match w with
  | .thread _ => s
  | .reg _ => s
  | _ => s.sendWake (objQ k) w (b2n !ok) 0 true
/-- SYNC_FAULT on the port that owns quarter `q`, or on both (R189). -/
def State.syncPorts (s : State) (q : Nat) : State :=
  if s.owns 0 q then s.devEvent 0 0 else if s.owns 1 q then s.devEvent 1 0 else (s.devEvent 0 0).devEvent 1 0
/-- The object and cause in FAULT_LAST (R186, R189). -/
def State.syncLast (s : State) (k cause : Nat) : State :=
  let b := blkSYNC (objQ k)
  ((s.fset b F.SYNC.FAULT_LAST.OBJECT (k % 65536)).fset b F.SYNC.FAULT_LAST.CAUSE cause).fset b F.SYNC.FAULT_LAST.COUNT_AT s.now
/-- An object becomes FAULTED (R189). Its ports learn it once the logger has placed the record (R376); at once where no record
will be made. -/
def State.faultObj (s : State) (k cause : Nat) : State :=
  let o := s.obj k
  let s := s.setObj k { o with faulted := true, cause := cause, waiters := [], held := [] }
  let s := s.wakeAll k (o.waiters ++ o.held) 1 cause
  let b := blkSYNC (objQ k)
  let s := (s.syncLast k cause).bump b F.SYNC.FAULT_COUNT.COUNT
  let fits := s.reportFits 0xA7 b
  let s := s.report 2 0xA7 b 0 0 0 0 (k % 65536 + cause * 65536)
  if fits then s else s.syncPorts (objQ k)

/-! ### Operations (R183-R188) -/

/-- The waiters that a count satisfies, from the head: those left, the count left, those granted. -/
def grantFrom : List Waiter → Nat → List Waiter × Nat × List Waiter
  | [], c => ([], c, [])
  | w :: l, c =>
    if w.value ≤ c then
      let r := grantFrom l (c - w.value)
      (r.1, r.2.1, w :: r.2.2)
    else (w :: l, c, [])
/-- The ring contexts whose DATA object a wait has lowered learn the time (R146). -/
def State.lowered (s : State) (k : Nat) : State :=
  { s with ctxs := s.ctxs.map (fun e =>
    if e.2.st = .active ∧ dRing e.2.desc ∧ dDataObj e.2.desc = k then (e.1, { e.2 with tRing := s.now }) else e) }
/-- A granting pass over a COUNTER (R185). -/
def State.grantPass (s : State) (k : Nat) : State :=
  let o := s.obj k
  let r := grantFrom o.waiters o.count
  let s := s.setObj k { o with waiters := r.1, count := r.2.1, grant := false }
  let s := s.wakeAll k r.2.2 0 0
  if r.2.1 < o.count then s.lowered k else s
/-- A generation completes (Table 8.6). -/
def State.complete (s : State) (k : Nat) : State :=
  let o := s.obj k
  let s := s.setObj k { o with arrived := o.next, next := 0, gen := !o.gen, waiters := o.held, held := [],
                               chain := o.next == o.parts }
  s.wakeAll k o.waiters 0 0
/-- An arrival on a BARRIER (R188); `who`: the arriver that parks. False: rejected. -/
def State.arrive (s : State) (k : Nat) (gen : Bool) (who : Option Waiter) : State × Bool :=
  let o := s.obj k
  if gen = o.gen then
    let o' := { o with arrived := o.arrived + 1, waiters := o.waiters ++ who.toList }
    let s := s.setObj k o'
    (if o'.arrived = o.parts then s.complete k else s, true)
  else if o.next < o.parts then
    (s.setObj k { o with next := o.next + 1, held := o.held ++ who.toList }, true)
  else
    let s := s.faultObj k 3
    (match who with
      | some w => s.wake k w.who 1 3
      | none => s, false)
/-- A set of an EVENT (R186, R187). -/
def State.setEvent (s : State) (k : Nat) : State :=
  let o := s.obj k
  if o.set_ then
    let s := (s.setObj k { o with overrun := min (o.overrun + 1) 255 }).bump (blkSYNC (objQ k)) F.SYNC.OVERRUN_EVENTS.COUNT
    if s.fbit (blkSYNC (objQ k)) F.SYNC.SYNC_CTL.EVENT_OVERRUN_IRQ then (s.syncLast k 4).syncPorts (objQ k) else s
  else
    let obs := o.waiters.filter (fun w => w.value == 0)
    let con := o.waiters.filter (fun w => w.value != 0)
    let s := s.setObj k { o with set_ := con.isEmpty, waiters := con.drop 1 }
    s.wakeAll k (obs ++ con.take 1) 0 0
/-- SYNC.SIG at its object; false: rejected or dropped. -/
def State.doSig (s : State) (k : Nat) (v : Int) (gen : Bool) : State × Bool :=
  let o := s.obj k
  if o.type = 0 ∨ o.faulted then (s.bump (blkSYNC (objQ k)) F.SYNC.SIG_REJECTS.COUNT, false)
  else if o.type = 1 then
    if (o.count : Int) + v < 0 then (s.faultObj k 1, false)
    else if 0xFFFFFFFF < (o.count : Int) + v then (s.faultObj k 2, false)
    else ((s.setObj k { o with count := ((o.count : Int) + v).toNat }).grantPass k, true)
  else if o.type = 2 then (s.setEvent k, true)
  else s.arrive k gen none
/-- SYNC.WAIT at its object (R183, R185, R187). -/
def State.doWait (s : State) (k : Nat) (w : Waiter) : State :=
  let o := s.obj k
  if o.type = 1 then
    if o.faulted then s.wake k w.who 1 o.cause
    else if w.value = 0 then s.wake k w.who 0 0
    else if o.waiters.isEmpty ∧ w.value ≤ o.count then
      ((s.setObj k { o with count := o.count - w.value }).wake k w.who 0 0).lowered k
    else s.setObj k { o with waiters := o.waiters ++ [w] }
  else if o.type = 2 ∧ w.value ≤ 1 then
    if o.set_ then (s.setObj k { o with set_ := w.value == 0 }).wake k w.who 0 0
    else s.setObj k { o with waiters := o.waiters ++ [w] }
  else s.wake k w.who 2 0
/-- SYNC.BAR at its object. -/
def State.doBar (s : State) (k : Nat) (gen : Bool) (w : Waiter) : State :=
  let o := s.obj k
  if o.type ≠ 3 then s.wake k w.who 2 0
  else if o.faulted then s.wake k w.who 1 o.cause
  else (s.arrive k gen (some w)).1
/-- Word 0 as a register write leaves it: the half written, the other half as it stood. -/
def initWord (old : Nat) (half : Option Bool) (v : Nat) : Nat :=
  match half with
  | none => v
  | some false => old / 2 ^ 32 * 2 ^ 32 + v % 2 ^ 32
  | some true => v % 2 ^ 32 * 2 ^ 32 + old % 2 ^ 32
/-- A register write re-initialises an object (R190); a field that Table 8.4 does not give the type is zero. -/
def State.initObj (s : State) (k : Nat) (half : Option Bool) (v : Nat) : State :=
  let o := s.obj k
  let w := initWord o.word0 half v
  let ty := bits w 0 2
  if ty = 3 ∧ bits w 16 16 = 0 then s
  else
    let s := s.setObj k { Obj.init with type := ty, set_ := ty == 2 && bit w 6, gen := ty == 3 && bit w 7,
                                        parts := if ty = 3 then bits w 16 16 else 0, count := if ty = 1 then bits w 32 32 else 0 }
    s.wakeAll k (o.waiters ++ o.held) 3 0
def State.waiter (s : State) (who : SyncWho) (value : Nat) (bar : Bool) : Waiter := ⟨who, value, bar, s.clk.arith, s.now⟩
def SyncWho.isThread : SyncWho → Bool
  | .thread _ => true
  | _ => false
/-- The object suits an engine's operation (R138): a COUNTER, and for a DONE signal also an EVENT. A NONE object meets
its own check. -/
def Obj.suits (o : Obj) (counter : Bool) : Bool := o.type == 0 || o.type == 1 || (o.type == 2 && !counter)
/-- One operation is performed at its table. An engine's signal carries, in place of a generation, whether its object
must be a COUNTER. -/
def State.doSync (s : State) (m : SyncMsg) : State :=
  let o := s.obj m.obj
  match m.op with
  | .sig v gen =>
    if !m.who.isThread && !o.suits gen then s.answerSig m.obj m.who false
    else
      let r := s.doSig m.obj v gen
      r.1.answerSig m.obj m.who r.2
  | .wait w =>
    if !m.who.isThread && !o.suits true then s.wake m.obj m.who 2 0 else s.doWait m.obj (s.waiter m.who w false)
  | .bar gen => s.doBar m.obj gen (s.waiter m.who 0 true)
  | .init half v => s.initObj m.obj half v

/-! ### At the tables (R181, R198, R380) -/

def State.tableFrozen (s : State) (q : Nat) : Bool := s.fbit (blkSYNC q) F.SYNC.WD_STATUS.DUMPING
/-- An operation aimed at a withdrawn quarter: its task aborts, or its engine meets SYNC_OBJ_FAULT. -/
def State.syncLost (s : State) (m : SyncMsg) : State :=
  match m.who, m.op.isSig with
  | .thread k, _ => if (s.thread k).st = .free then s else s.withdrawnFault k (s.thread k).faultPc 0
  | .reg _, _ => s
  | w, sig =>
    let r := s.takeSeq
    { r.2 with wakes := r.2.wakes ++ [⟨r.1, w, 1, 0, sig⟩] }
/-- The place of an operation among those that reach a table in one cycle (R181): register writes, threads, stream engines and
their forwarders, Grinders and flash managers, which the rule does not name (log entry 59), Percolators, collectives
engines. -/
def State.rank (s : State) (m : SyncMsg) : List Nat :=
  match m.who with
  | .reg _ => [0]
  | .thread k => [1, k]
  | .ctx c => [2, c / 64, c % 64]
  | .hop c _ mem => [2, s.memCl c mem, 64 + c % 64]
  | .cmd id =>
    match (s.cmd? id).map (fun (c : Cmd) => c.unit) with
    | some (.grind g) => [3, g]
    | some (.flash h) => [4, h]
    | some (.perc h) => [5, h]
    | some (.coll h) => [6, h]
    | none => [7]
/-- An operation that has reached its table is the next on its object: the earliest cycle first, then by rank, then by issue. -/
def State.syncNext (s : State) (m : SyncMsg) : Bool :=
  match m.at_ with
  | none => false
  | some t => s.syncMsgs.all (fun x => x == m || x.obj != m.obj || match x.at_ with
    | none => true
    | some u => decide (t :: s.rank m ++ [m.id] < u :: s.rank x ++ [x.id]))
/-- What has reached the tables in this ARITH cycle. -/
def State.tickSync (s : State) : State :=
  { s with syncMsgs := s.syncMsgs.map (fun m => if m.at_.isNone && s.landed m.id then { m with at_ := some s.clk.arith } else m) }
/-- SYNC_OPERATION: the operation that stands at place `i` is performed at its table, in the order of R181 among those that
came in the same ARITH cycle. A frozen table performs none; a completion that is due goes first. -/
def execSyncOperation (i : Nat) (s : State) : Host.Outcome State Fault Refusal :=
  .next (match s.syncMsgs[i]? with
    | none => s
    | some m =>
      let q := objQ m.obj
      let s' := { s with syncMsgs := s.syncMsgs.eraseIdx i }
      if !s.alive || !s.syncNext m || s.tableFrozen q || (s.obj m.obj).chain then s
      else if s.qState q = 5 then s'.syncLost m
      else if s.qUp q then s'.doSync m else s)
/-- BARRIER_CHAINED_COMPLETION: the new generation is complete already (Table 8.6). -/
def execBarrierChainedCompletion (q : Fin 4) (n : Fin 65536) (s : State) : Host.Outcome State Fault Refusal :=
  let k := q.val * 65536 + n.val
  .next (if (s.obj k).chain && !s.tableFrozen q.val then s.complete k else s)
/-- GRANTING_PASS: the head of a COUNTER's queue has changed (R185). -/
def execGrantingPass (q : Fin 4) (n : Fin 65536) (s : State) : Host.Outcome State Fault Refusal :=
  let k := q.val * 65536 + n.val
  .next (if (s.obj k).grant && !s.tableFrozen q.val then s.grantPass k else s)
/-- WAKE_ARRIVAL: the wake message at place `i` reaches its thread (R183, R192). -/
def execWakeArrival (i : Nat) (s : State) : Host.Outcome State Fault Refusal :=
  .next (match s.wakes[i]? with
    | some ⟨id, .thread k, st, cause, _⟩ =>
      if !s.landed id then s
      else (match (s.thread k).st with
        | .parked (.sync _ rd) =>
          let s := { s with wakes := s.wakes.eraseIdx i }
          (s.setThread k ((s.thread k).setXn rd (st + if st = 1 then cause * 256 else 0))).wakeThread k
        | _ => s)
    | _ => s)
/-- A register write of object `k` waits at its table's input: the table is frozen, or an earlier one stands there. -/
def State.objWaits (s : State) (k : Nat) : Bool :=
  s.tableFrozen (objQ k) || s.syncMsgs.any (fun m => m.obj == k && match m.op with
    | .init _ _ => true
    | _ => false)
/-- A register write of OBJ[n] by `rq`. -/
def State.objWrite (s : State) (rq : Requester) (k : Nat) (half : Option Bool) (v : Nat) : State :=
  if s.objWaits k then
    let r := s.takeSeq
    { r.2 with syncMsgs := r.2.syncMsgs ++ [⟨r.1, .reg rq, k, .init half v, some s.clk.arith⟩] }
  else
    let s := if (s.obj k).chain then s.complete k else s
    s.initObj k half v
/-- OBJ_WRITE, which names no requester: `half` names the 4-byte half that is written, high when true. -/
def execObjWrite (q : Fin 4) (n : Fin 65536) (half : Option Bool) (v : Word) (s : State) : Host.Outcome State Fault Refusal :=
  .next (s.inService (blkSYNC q.val) (F.SYNC.OBJ.TYPE.reg + 8 * n.val) (fun s =>
    s.objWrite .engine (q.val * 65536 + n.val) half v.toNat))

end Sys2Proof.Machine
end

