-- ==== Sys2Proof/Machine/Rings.lean ====
section
/-! DEFINITION. Host ports and rings: links (R29, R427), doorbells and ring set-up (R31-R33, R428), fetch (R34, R40),
completion records and interrupts (R38, R39, R41), partitions and loss (R42, R43), PORT reset (R44). -/

namespace Sys2Proof.Machine

/-! ### Links and interrupts -/

/-- The highest option set in a mask of `n`, plus one; 0: none. -/
def topBit : Nat → Nat → Nat
  | 0, _ => 0
  | n + 1, m => if m.testBit n then n + 1 else topBit n m
/-- PCIE_LINK_TRAINING: the partner offers the rates 2.5 to 64.0 GT/s (bits 0 to 5; 64.0 in FLIT mode) and the widths
x4, x8, x16 (bits 0 to 2). -/
def execPcieLinkTraining (p : Fin 2) (rates : BitVec 6) (widths : BitVec 3) (s : State) : Host.Outcome State Fault Refusal :=
  let x := s.port p.val
  .next (if x.link || x.perst || s.pow.boot == .held || s.clk.mgmtOnly then s
    else if rates = 0 ∨ widths = 0 then s.setPort p.val { x with noLink := true }
    else s.setPort p.val { x with link := true, noLink := false, rate := topBit 6 rates.toNat,
                                  width := 2 * 2 ^ topBit 3 widths.toNat })
/-- PCIE_LINK_DOWN. -/
def execPcieLinkDown (p : Fin 2) (s : State) : Host.Outcome State Fault Refusal :=
  let x := s.port p.val
  .next (if x.link then s.setPort p.val { x with link := false, downAt := s.clk.arith } else s)
def State.logAer (s : State) (p : Nat) (a : Aer) : State := s.setPort p { s.port p with aer := (s.port p).aer ++ [a] }
/-- A vector is raised, or its pending bit set while it is masked. -/
def State.raiseVec (s : State) (p v : Nat) : State :=
  let x := s.port p
  s.setPort p (if x.masked.getLsbD v then { x with pend := x.pend ||| (1 <<< v) }
    else { x with raised := Sparse.put 0 x.raised v (Sparse.get 0 x.raised v + 1) })
/-- An access that the port turns away (R30): a read completes with UR, a write is discarded; logged under AER. -/
def State.barRefuse (s : State) (p : Nat) (write : Bool) : State := s.logAer p (if write then .discarded else .unsupported)
/-- A host bus address as a device address in port `p`'s window. -/
def hostAddr (p a : Nat) : Nat := 0x800000000000 + p * 0x400000000000 + a

/-! ### Ring counts -/

/-- a − b modulo 2³². -/
def countSub (a b : Nat) : Nat := (a + 2 ^ 32 - b) % 2 ^ 32
def State.sqSize (s : State) (p r : Nat) : Nat := 2 ^ s.fget (blkJI p) F.JI.RING_CTL.SQ_LOG2 (64 * r)
def State.cqSize (s : State) (p r : Nat) : Nat := 2 ^ s.fget (blkJI p) F.JI.RING_CTL.CQ_LOG2 (64 * r)
def State.cfgReject (s : State) (p : Nat) : State := s.fset (blkJI p) F.JI.STATUS.CFG_REJECT 1
def State.dbIgnored (s : State) (p : Nat) : State := s.bump (blkJI p) F.JI.STATUS.DB_IGNORED
/-- No further block of a ring is awaited. -/
def State.dropFetch (s : State) (p r : Nat) : State :=
  let s := s.setRing p r { s.ring p r with fetch := none, mismatch := none }
  { s with hostReads := s.hostReads.filter (fun h => !(h.port == p && h.for_ == HostReadFor.fetch r)) }
def State.ringError (s : State) (p r cause : Nat) : State :=
  let s := s.dropFetch p r
  s.setRing p r { s.ring p r with state := .error, cause := cause }

/-! ### Completion records (R38, R39, R41) -/

/-- A record counts towards the ring's next interrupt. -/
def State.coalesce (s : State) (p r : Nat) (irq : Bool) : State :=
  let x := s.ring p r
  let b := blkJI p
  let n := x.coalN + 1
  if irq || s.fget b F.JI.RING_CQ_CTL.COAL_COUNT (64 * r) ≤ n then
    (s.setRing p r { x with coalN := 0 }).raiseVec p (s.fget b F.JI.RING_CQ_CTL.VECTOR (64 * r))
  else s.setRing p r { x with coalN := n, coalAt := if n = 1 then s.clk.arith else x.coalAt }
/-- Table 2.5. -/
def CplRec.bytes (c : CplRec) : List Byte :=
  leBytes 4 c.tag ++ leBytes 4 c.head ++ leBytes 1 c.status ++ leBytes 1 c.phase ++ leBytes 2 c.ring ++
    leBytes 4 c.detail ++ leBytes 8 c.user ++ leBytes 8 c.gtc
def State.cqFull (s : State) (p r : Nat) : Bool := countSub (s.ring p r).written (s.ring p r).cqHead == s.cqSize p r
/-- A record goes to host memory; with the link down it is discarded and still counts as written. -/
def State.putRec (s : State) (p r : Nat) (c : CplRec) : State :=
  let x := s.ring p r
  let n := s.cqSize p r
  let c := { c with head := x.head, phase := 1 - x.written / n % 2 }
  let a := hostAddr p (s.fget (blkJI p) F.JI.RING_CQ_BASE.BASE (64 * r) * 4096 + x.written % n * 32)
  let s := if (s.port p).link then { s with host := s.host.write a c.bytes } else s
  (s.setRing p r { x with written := (x.written + 1) % 2 ^ 32 }).coalesce p r c.irq
/-- Records of the completion buffer are written as far as the ring has room. -/
def State.flushRecs (s : State) (p r : Nat) : Nat → State
  | 0 => s
  | fuel + 1 =>
    let x := s.ring p r
    match x.held with
    | [] => s
    | c :: l => if s.cqFull p r || (s.port p).d3hot then s else ((s.setRing p r { x with held := l }).putRec p r c).flushRecs p r fuel
def State.finishRec (s : State) (p r : Nat) (c : CplRec) : State :=
  let x := s.ring p r
  if x.held = [] ∧ !s.cqFull p r ∧ !(s.port p).d3hot then s.putRec p r c
  else s.setRing p r { x with held := x.held ++ [c] }
/-- COAL_TIMER_EXPIRE (R41). -/
def execCoalTimerExpire (p : Fin 2) (r : Fin 64) (s : State) : Host.Outcome State Fault Refusal :=
  let x := s.ring p.val r.val
  let b := blkJI p.val
  let t := s.fget b F.JI.RING_CQ_CTL.COAL_TIME (64 * r.val)
  .next (if 0 < x.coalN ∧ t ≠ 0 ∧ x.coalAt + 1024 * t ≤ s.clk.arith then
    (s.setRing p.val r.val { x with coalN := 0 }).raiseVec p.val (s.fget b F.JI.RING_CQ_CTL.VECTOR (64 * r.val))
  else s)

/-! ### Doorbells (R33, Table 2.3) -/

/-- The new tail count `v` of Table 2.3. -/
def State.tailWrite (s : State) (p r v : Nat) : State :=
  let s := s.setRing p r { s.ring p r with dbTail := v }
  let x := s.ring p r
  if x.state ≠ .running then s.dbIgnored p
  else if v = x.tail then s
  else if countSub v x.head ≤ s.sqSize p r ∧ countSub x.tail x.head < countSub v x.head then s.setRing p r { x with tail := v }
  else s.ringError p r 1
/-- CQ_HEAD becomes `v`: room for records that wait in the completion buffer. -/
def State.headWrite (s : State) (p r v : Nat) : State :=
  let s := s.setRing p r { s.ring p r with dbHead := v }
  let x := s.ring p r
  let bad := countSub x.written x.cqHead < countSub v x.cqHead
  match x.state with
  | .running => if bad then s.ringError p r 2
      else (s.setRing p r { x with cqHead := v }).flushRecs p r x.held.length
  | .error => if bad then s else (s.setRing p r { x with cqHead := v }).flushRecs p r x.held.length
  | _ => s.dbIgnored p
/-- An access of `size` bytes at offset `off` of ring `r`'s doorbell page: aligned, of four or eight bytes; of a doorbell's
upper four bytes nothing is kept. Outside the doorbells the page reads as zero and ignores writes. Any other access R30
turns away. -/
def State.doorbell (s : State) (p r : Nat) (write : Bool) (off size v : Nat) : State :=
  let x := s.ring p r
  let answer (a : Answer) : State := s.setPort p { s.port p with bar0 := some a }
  if (size ≠ 4 ∧ size ≠ 8) ∨ off % size ≠ 0 then
    (if write then s else answer (.refused 0)).barRefuse p write
  else if off = 0 then (if write then s.tailWrite p r (v % 2 ^ 32) else answer (.data x.dbTail 0))
  else if off = 8 then (if write then s.headWrite p r (v % 2 ^ 32) else answer (.data x.dbHead 0))
  else if write then s else answer (.data 0 0)
/-- SQ_TAIL. -/
def execSqTail (p : Fin 2) (r : Fin 64) (v : DbAccess 8) (s : State) : Host.Outcome State Fault Refusal :=
  .next (s.doorbell p.val r.val v.write v.off.val v.size v.v)
/-- CQ_HEAD. -/
def execCqHead (p : Fin 2) (r : Fin 64) (v : DbAccess 4088) (s : State) : Host.Outcome State Fault Refusal :=
  .next (s.doorbell p.val r.val v.write (8 + v.off.val) v.size v.v)

/-! ### Setting up and disabling rings (R31, R32, R428) -/

/-- RING_BASE_WRITE: SQ_BASE, or CQ_BASE with `cq`. -/
def State.baseWrite (s : State) (p r : Nat) (cq : Bool) (v : Nat) : State :=
  let f := if cq then F.JI.RING_CQ_BASE.BASE else F.JI.RING_SQ_BASE.BASE
  match (s.ring p r).state with
  | .running => s.cfgReject p
  | .error => s.cfgReject p
  | _ => s.fset (blkJI p) f (bits v 12 34) (64 * r)
def execRingBaseWrite (p : Fin 2) (r : Fin 64) (cq : Bool) (v : Word) (s : State) : Host.Outcome State Fault Refusal :=
  .next (s.baseWrite p.val r.val cq v.toNat)
/-- A job of a port or ring that stops is cancelled without a record. -/
def State.cancelSilently (s : State) (j : JobId) : State :=
  (s.updJob j (fun x => { x with noRecord := true })).endJob j 0x22 none
def Job.onRing (x : Job) (p r : Nat) : Bool := x.id.port == p && x.id.ring == r
/-- A ring stops: fetch ends, its jobs are cancelled, its buffered records discarded (R428). CAUSE reads 0 from then on, a
DESIGN CHOICE (log entry 60). -/
def State.stopRing (s : State) (p r : Nat) : State :=
  let s := (s.dropFetch p r).fset (blkJI p) F.JI.RING_CTL.ENABLE 0 (64 * r)
  let mine := s.jobs.filter (fun x => x.onRing p r)
  let s := s.setRing p r { s.ring p r with held := [], cause := 0, state := if mine.isEmpty then .disabled else .draining }
  mine.foldl (fun s x => s.cancelSilently x.id) s
def State.setSizes (s : State) (p r v : Nat) : State :=
  let b := blkJI p
  let legal (n : Nat) : Bool := 4 ≤ n && n ≤ 16
  let s := if legal (bits v 8 5) then s.fset b F.JI.RING_CTL.SQ_LOG2 (bits v 8 5) (64 * r) else s
  if legal (bits v 16 5) then s.fset b F.JI.RING_CTL.CQ_LOG2 (bits v 16 5) (64 * r) else s
/-- A write of RING[r].CTL. -/
def State.ctlWrite (s : State) (p r v : Nat) : State :=
  let b := blkJI p
  let other := bits v 8 5 ≠ s.fget b F.JI.RING_CTL.SQ_LOG2 (64 * r) ∨ bits v 16 5 ≠ s.fget b F.JI.RING_CTL.CQ_LOG2 (64 * r)
  let run := bit v 0
  match (s.ring p r).state with
  | .disabled =>
    let s := s.setSizes p r v
    if run then
      let x := s.ring p r
      (s.fset b F.JI.RING_CTL.ENABLE 1 (64 * r)).setRing p r
        { Ring.init with dbTail := x.dbTail, dbHead := x.dbHead, state := .running }
    else s
  | .draining => if run then s.cfgReject p else s.setSizes p r v
  | _ =>
    let s := if other then s.cfgReject p else s
    if run then s else s.stopRing p r
def execRingEnable (p : Fin 2) (r : Fin 64) (v : Word) (s : State) : Host.Outcome State Fault Refusal :=
  .next (s.ctlWrite p.val r.val (v ||| 1).toNat)
def execRingDisable (p : Fin 2) (r : Fin 64) (v : Word) (s : State) : Host.Outcome State Fault Refusal :=
  .next (s.ctlWrite p.val r.val (v &&& ~~~(1 : Word)).toNat)
/-- RING_DRAIN_DONE: the last job of a draining ring has ended. -/
def execRingDrainDone (p : Fin 2) (r : Fin 64) (s : State) : Host.Outcome State Fault Refusal :=
  let x := s.ring p.val r.val
  .next (if x.state = .draining ∧ !s.jobs.any (fun j => j.onRing p.val r.val) then
    s.setRing p.val r.val { x with state := .disabled }
  else s)

/-! ### Fetch (R34, R40) -/

/-- Jobs in flight on a port: taken, their records not in host memory. -/
def State.inFlight (s : State) (p : Nat) : Nat :=
  (s.jobs.filter (fun x => x.id.port == p)).length + (List.range 64).foldl (fun n r => n + (s.ring p r).held.length) 0
/-- R40's conditions. -/
def State.fetchFull (s : State) (p : Nat) : Bool :=
  256 ≤ s.inFlight p || 256 ≤ (List.range 64).foldl (fun n r => n + (s.ring p r).held.length) 0 ||
    s.jobs.any (fun x => x.id.port == p && x.phase == .rootsWait)
/-- In D3hot a port fetches nothing either (R404). -/
def State.fetchStopped (s : State) (p : Nat) : Bool := (s.port p).d3hot || s.fetchFull p
/-- A register write of port `p`'s stands before a frozen sync table. -/
def State.inboundHeld (s : State) (p : Nat) : Bool :=
  s.syncMsgs.any (fun m => match m.who with
    | .reg (.port i) => i.val == p
    | _ => false)
/-- Writes that reached the port before are still to be performed (R178). -/
def State.inboundWaits (s : State) (p : Nat) : Bool := !(s.port p).inq.isEmpty || s.inboundHeld p
/-- A ring has entries to fetch, awaits no block, and no job of an earlier use of it is left. -/
def State.fetchable (s : State) (p r : Nat) : Bool :=
  let x := s.ring p r
  x.state == .running && x.fetch.isNone && x.mismatch.isNone && x.tail != x.head && !s.inboundWaits p &&
    !s.jobs.any (fun j => j.onRing p r && j.noRecord)
def State.issueFetch (s : State) (p r : Nat) (reread : Bool) : State :=
  let x := s.ring p r
  let s := s.setRing p r { x with fetch := some ⟨x.head, reread⟩, mismatch := none }
  let (id, s) := s.takeSeq
  let a := hostAddr p (s.fget (blkJI p) F.JI.RING_SQ_BASE.BASE (64 * r) * 4096 + x.head % s.sqSize p r / 8 * 512)
  { s with hostReads := s.hostReads ++ [HostRead.mk id p (.fetch r) a 512] }
/-- SUBMISSION_FETCH: the block read of the ring whose round-robin turn it is. -/
def execSubmissionFetch (p : Fin 2) (r : Fin 64) (s : State) : Host.Outcome State Fault Refusal :=
  let x := s.port p.val
  let turn := ((List.range 64).map (fun i => (x.rr + i) % 64)).find? (fun i => s.fetchable p.val i)
  .next (if s.alive ∧ turn = some r.val ∧ !s.fetchStopped p.val then
    (s.setPort p.val { x with rr := (r.val + 1) % 64 }).issueFetch p.val r.val false
  else s)
/-- SEQ_REREAD: 1,400 ARITH cycles after a mismatch. -/
def execSeqReread (p : Fin 2) (r : Fin 64) (s : State) : Host.Outcome State Fault Refusal :=
  let x := s.ring p.val r.val
  .next (match x.mismatch with
    | some t => if s.alive ∧ x.state = .running ∧ x.fetch = none ∧ t + 1400 ≤ s.clk.arith ∧ !s.fetchStopped p.val ∧ !s.inboundWaits p.val then
        s.issueFetch p.val r.val true else s
    | none => s)

/-! ### Descriptors (R35, R36) -/

def isHostWin (p a : Nat) : Bool := region a == .host p
/-- The last address of the region that holds `a` lies at or beyond `e`. -/
def sameSpan (a e : Nat) : Bool :=
  match region a, region e with
  | .stack _, .stack _ => true
  | .cellar _ _, .cellar _ _ => true
  | .scratch _, .scratch _ => true
  | _, _ => false
/-- A descriptor of eight words as a job. -/
def jobOf (j : JobId) (w : List Nat) : Job :=
  let g (i : Nat) : Nat := w.getD i 0
  { id := j, kind := bits (g 0) 8 8, qmask := bits (g 0) 16 4, cls := bits (g 0) 20 1, level := bits (g 0) 21 4
    irq := bit (g 0) 25, ordered := bit (g 0) 26, tag := bits (g 0) 32 32, addrA := g 1, addrB := g 2
    len := bits (g 3) 0 40, launch := g 4, arg := g 5, user := g 6, phase := .taken, status := 0, errRef := none
    spoilt := none, noRecord := false, roots := [], handleOut := 0, issued := 0, done := 0, gtcEnd := 0, endAt := 0 }
def reservedOk (w : List Nat) : Bool :=
  let g (i : Nat) : Nat := w.getD i 0
  bits (g 0) 27 5 == 0 && bits (g 3) 40 24 == 0 && g 7 == 0
/-- The conditions of BAD_FIELD (R36, R331). -/
def State.badField (s : State) (x : Job) (w : List Nat) : Bool :=
  let p := x.id.port
  let e := x.addrA + max x.len 1 - 1
  let common := !reservedOk w || (x.cls == 1 && decide (7 < x.level)) || decide (s.now + 2 ^ 36 < x.launch)
  let dev (a : Nat) : Bool := region a != .unmapped && !(inDevMem a && sameSpan a (a + x.len - 1))
  let host (a : Nat) : Bool := region a != .unmapped && !isHostWin (1 - p) a &&
    !(isHostWin p a && (isHostWin p (a + x.len - 1) || isHostWin (1 - p) (a + x.len - 1)))
  common ||
    (if x.kind = 0 then
      x.addrA % 4096 != 0 || x.addrB % 64 != 0 ||
        (region x.addrA != .unmapped && !(decide (x.addrA < 0x024000000000) && decide (e < 0x024000000000)))
    else if x.kind = 1 then x.len < 64 || x.len % 64 != 0 || dev x.addrB || host x.addrA
    else x.len < 64 || x.len % 64 != 0 || dev x.addrA || host x.addrB)
def State.partFault (s : State) (x : Job) : Bool :=
  let p := x.id.port
  let host (a : Nat) : Bool := isHostWin (1 - p) a || isHostWin (1 - p) (a + x.len - 1)
  if x.kind = 0 then x.qmask == 0 || (List.range 4).any (fun q => bit x.qmask q && !s.owns p q)
  else if x.kind = 1 then host x.addrA else host x.addrB
/-- The status of a descriptor that fails its checks; with an unmapped address, that address. The reserved bits of a FENCE are
among its ignored fields, a DEDUCED reading of R36 (log entry 61). -/
def State.descStatus (s : State) (x : Job) (w : List Nat) : Nat × Option Nat :=
  if 3 < x.kind then (0x10, none)
  else if x.kind = 3 then (0, none)
  else if s.badField x w then (0x11, none)
  else if s.partFault x then (0x12, none)
  else if region x.addrA = .unmapped then (0x13, some x.addrA)
  else if region x.addrB = .unmapped then (0x13, some x.addrB)
  else (0, none)
/-- An entry is taken: it becomes a job, one that has ended at once where it fails its checks. -/
def State.takeDesc (s : State) (p r : Nat) (w : List Nat) : State :=
  let y := s.ring p r
  let x := jobOf ⟨p, r, y.head⟩ w
  let st := s.descStatus x w
  let ref : Option Nat := st.2.map (fun _ => s.err.nextId)
  let s := match st.2 with
    | some a => (s.fabReject a false).report 2 0x04 (blkJI p) 0 (jobWord x.id) a 0 0
    | none => s
  let x := if st.1 = 0 then x else x.end_ s.now s.ctrl st.1 ref
  { s.setRing p r { y with head := (y.head + 1) % 2 ^ 32 } with jobs := s.jobs ++ [x] }
/-- Firmware takes no new job that uses a quarter being released (R42). -/
def State.releasing (s : State) (p : Nat) (w : List Nat) : Bool :=
  let g := w.getD 0 0
  bits g 8 8 == 0 && (s.port p).relMask.toNat &&& bits g 16 4 != 0
/-- The entries of a block from the head on, up to the tail and the end of the block. A block already asked for when R40 stops
fetch is taken whole, a DESIGN CHOICE (log entry 64). -/
def State.takeBlock (s : State) (p r : Nat) (f : Fetch) (words : List Nat) : Nat → State
  | 0 => s
  | fuel + 1 =>
    let x := s.ring p r
    let w := (words.drop (x.head % 8 * 8)).take 8
    if x.head = x.tail ∨ s.releasing p w then s
    else if bits (w.getD 0 0) 0 8 ≠ x.head % 256 then
      if f.reread ∧ f.first = x.head then s.ringError p r 3
      else s.setRing p r { x with mismatch := some s.clk.arith }
    else (s.takeDesc p r w).takeBlock p r f words fuel
/-- SUBMISSION_BLOCK_RETURN: the 64 words of the block, or data with EP set. -/
def execSubmissionBlockReturn (p : Fin 2) (r : Fin 64) (words : List Word) (ep : Bool) (s : State) :
    Host.Outcome State Fault Refusal :=
  let p := p.val
  let r := r.val
  let x := s.ring p r
  .next (match x.fetch with
    | none => s
    | some f =>
      if !(s.port p).link then s else
      let s := { s with hostReads := s.hostReads.filter (fun h => !(h.port == p && h.for_ == HostReadFor.fetch r)) }
      let s := s.setRing p r { x with fetch := none }
      if ep then (s.ringError p r 4).logAer p .hostReadFailed
      else s.takeBlock p r f (words.map BitVec.toNat) (8 - x.head % 8))

/-! ### Cancelling (R45) -/

/-- CANCEL: only an aligned 8-byte write acts; a FENCE is not cancelled. -/
def State.cancelWrite (s : State) (p size v : Nat) : State :=
  if size ≠ 8 then s.regError (blkJI p) F.JI.CANCEL.RING.reg true 0
  else
    let j : JobId := ⟨p, bits v 0 6, bits v 32 32⟩
    match s.job? j with
    | some x => if x.kind = 3 ∨ x.noRecord then s else s.endJob j 0x22 none
    | none => s
def execCancel (p : Fin 2) (size : Nat) (v : Word) (s : State) : Host.Outcome State Fault Refusal :=
  .next (s.cancelWrite p.val size v.toNat)

/-! ### Partitions (R42, R43) -/

def State.ownedMask (s : State) (p : Nat) : Nat := s.fget (blkJI p) F.JI.PARTITION.OWNED
/-- A port's quarters change; a change is an event on that port. -/
def State.setOwned (s : State) (p m : Nat) : State :=
  if s.ownedMask p = m then s else (s.fset (blkJI p) F.JI.PARTITION.OWNED m).devEvent p 3
def State.partResult (s : State) (p v : Nat) : State := s.fset (blkJI p) F.JI.STATUS.PART_RESULT v
/-- A quarter begins to leave standby (R403). -/
def State.endStandby (s : State) (q : Nat) : State :=
  if s.qState q = 2 ∨ s.qState q = 3 then
    (s.fset (blkQCTL q) F.QCTL.Q_STATUS.STATE 4).fset (blkQCTL q) F.QCTL.Q_CTL.STANDBY 0
  else s
def State.release (s : State) (p m : Nat) : State :=
  if m = 0 then s
  else
    let x := s.port p
    let rel := x.relMask ||| BitVec.ofNat 4 (m &&& s.ownedMask p)
    -- nothing that the port owns is named, and nothing else pends: done at once
    (s.setPort p { x with relMask := rel }).partResult p (if rel = 0 ∧ x.wakeMask = 0 ∧ x.acqMask = 0 then 2 else 1)
def State.acquire (s : State) (p m : Nat) : State :=
  if m = 0 then s
  else if m &&& (s.ownedMask (1 - p) ||| (s.port (1 - p)).acqMask.toNat) ≠ 0 then s.partResult p 3
  else
    -- an acquire of quarters in standby completes once they are READY (R403)
    let wake := (List.range 4).foldl (fun w q => if bit m q && (s.qState q == 2 || s.qState q == 3 || s.qState q == 4) then w + 2 ^ q else w) 0
    let s := (List.range 4).foldl (fun s q => if bit m q then s.endStandby q else s) s
    let s := s.setOwned p (s.ownedMask p ||| m)
    let x := s.port p
    let s := s.setPort p { x with wakeMask := x.wakeMask ||| BitVec.ofNat 4 wake }
    s.partResult p (if x.relMask = 0 ∧ (s.port p).wakeMask = 0 then 2 else 1)
def State.takeover (s : State) (p m : Nat) : State :=
  if (s.port (1 - p)).lost then (s.setPort p { s.port p with acqMask := BitVec.ofNat 4 m }).partResult p 1
  else s.partResult p 3
/-- A write of PART_REQ. -/
def State.partReq (s : State) (p rel acq : Nat) (tk : Bool) : State :=
  let s := s.release p rel
  if tk then s.takeover p acq else s.acquire p acq
def execRelease (p : Fin 2) (mask : BitVec 4) (s : State) : Host.Outcome State Fault Refusal :=
  .next (s.partReq p.val mask.toNat 0 false)
def execAcquire (p : Fin 2) (mask : BitVec 4) (s : State) : Host.Outcome State Fault Refusal :=
  .next (s.partReq p.val 0 mask.toNat false)
def execTakeover (p : Fin 2) (mask : BitVec 4) (s : State) : Host.Outcome State Fault Refusal :=
  .next (s.partReq p.val 0 mask.toNat true)
/-- PART_DONE: the jobs on released quarters have completed, or a lost peer's quarters have drained. -/
def execPartDone (p : Fin 2) (s : State) : Host.Outcome State Fault Refusal :=
  let p := p.val
  let x := s.port p
  let rel := x.relMask.toNat
  .next (if rel ≠ 0 then
      if s.jobs.any (fun j => j.id.port == p && j.kind == 0 && j.qmask &&& rel != 0) then s
      else ((s.setPort p { x with relMask := 0 }).setOwned p (s.ownedMask p - (s.ownedMask p &&& rel))).partResult p
        (if x.wakeMask = 0 then 2 else 1)
    else if x.acqMask ≠ 0 then
      if s.jobs.any (fun j => j.id.port == 1 - p) then s
      else
        -- the lost port loses them all: recovered, it comes up owning no quarters
        let s' := if (s.port (1 - p)).lost then s.setOwned (1 - p) 0 else s
        ((s'.setPort p { s'.port p with acqMask := 0 }).setOwned p (s.ownedMask p ||| x.acqMask.toNat)).partResult p 2
    else s)
/-- HEARTBEAT. -/
def State.beat (s : State) (p : Nat) : State := s.setPort p { s.port p with hbAt := s.clk.arith }
def execHeartbeat (p : Fin 2) (s : State) : Host.Outcome State Fault Refusal := .next (s.beat p.val)
def State.stopRings (s : State) (p : Nat) : State :=
  (List.range 64).foldl (fun s r => match (s.ring p r).state with
    | .running => s.stopRing p r
    | .error => s.stopRing p r
    | _ => s) s
/-- A port is lost (R43). -/
def State.losePort (s : State) (p : Nat) : State :=
  let s := s.stopRings p
  (s.setPort p { s.port p with lost := true }).devEvent (1 - p) 4
/-- HEARTBEAT_TIMEOUT: counted from the last BEAT or reset of the port, whenever HB_LIMIT was written, a DESIGN CHOICE (log
entry 65). -/
def execHeartbeatTimeout (p : Fin 2) (s : State) : Host.Outcome State Fault Refusal :=
  let x := s.port p.val
  let l := s.fget (blkJI p.val) F.JI.HB_LIMIT.LIMIT
  .next (if l ≠ 0 ∧ !x.lost ∧ x.hbAt + l * 1048576 ≤ s.clk.arith then s.losePort p.val else s)
/-- LINK_LOSS_TIMEOUT: 10 ms are 14,000,000 ARITH cycles. -/
def execLinkLossTimeout (p : Fin 2) (s : State) : Host.Outcome State Fault Refusal :=
  let x := s.port p.val
  .next (if !x.link ∧ !x.perst ∧ !x.lost ∧ x.downAt + 14000000 < s.clk.arith then s.losePort p.val else s)

/-! ### PORT reset (R44) -/

/-- PORT_RESET: by FLR, or by PERST#_N, which also takes the link and the configuration space to their reset state. A port
recovered while a takeover of its quarters pends owns none (R43). -/
def State.portReset (s : State) (p : Nat) (flr : Bool) : State :=
  let s := s.stopRings p
  let own := if (s.port (1 - p)).acqMask = 0 then s.ownedMask p else 0
  let s := (s.resetBlock (blkJI p)).fset (blkJI p) F.JI.PARTITION.OWNED own
  let s := { s with rings := s.rings.filter (fun e => e.1 / 64 != p) }
  let x := s.port p
  let y : Port := { Port.init with link := flr && x.link, rate := if flr then x.rate else 0, width := if flr then x.width else 0,
                                   noLink := flr && x.noLink, downAt := s.clk.arith, perst := x.perst || !flr, raised := x.raised,
                                   hbAt := s.clk.arith, relMask := x.relMask, acqMask := x.acqMask, wakeMask := x.wakeMask }
  (s.setPort p y).fset blkHCTL (if p = 0 then F.HCTL.LOST.PORT0 else F.HCTL.LOST.PORT1) 1
/-- PORT_RESET. Before start-up has ended there is nothing to cancel: only the input and the link change. -/
def execPortReset (p : Fin 2) (by_ : PortRst) (s : State) : Host.Outcome State Fault Refusal :=
  let x := s.port p.val
  .next (match by_ with
    | .flr => if s.pow.boot = .running then s.portReset p.val true else s
    | .perst => if s.pow.boot = .running then s.portReset p.val false
        else s.setPort p.val { x with link := false, rate := 0, width := 0, noLink := false, downAt := s.clk.arith, perst := true }
    | .perstEnd => if x.perst then s.setPort p.val { x with perst := false, downAt := s.clk.arith } else s)

end Sys2Proof.Machine
end

