-- ==== Sys2Proof/Machine/Jobs.lean ====
section
/-! DEFINITION. Jobs: starting in ring order (R37), loading a RUN image (R162), launch times (R331), copies (R35, R426,
R427), completion (R38). -/

namespace Sys2Proof.Machine

/-! ### Order (R37, R331) -/

/-- The jobs of the ring of job `j` that were taken before it. -/
def State.earlier (s : State) (j : JobId) : List Job :=
  (s.jobs.takeWhile (fun x => x.id != j)).filter (fun x => x.onRing j.port j.ring)
/-- A job waits for its LAUNCH_AT. -/
def Job.launchHeld (x : Job) : Bool :=
  x.launch != 0 && (x.phase == .begun || x.phase == .rootsWait || x.phase == .rootsHeld)
/-- Every earlier job of the ring has started; with ORDERED, has completed. -/
def State.startable (s : State) (x : Job) : Bool :=
  s.alive && (s.earlier x.id).all (fun y => y.kind == 3 || (y.phase != .taken && !y.launchHeld)) &&
    (!x.ordered || (s.earlier x.id).isEmpty)
/-- A job ends with `status`, for an error that it meets at `addr` itself (Table 16.1: always with a record). -/
def State.jobFault (s : State) (j : JobId) (status code addr : Nat) : State :=
  let id := s.err.nextId
  (s.report 2 code (blkJI j.port) 0 (jobWord j) addr 0 0).endJob j status (some id)
/-- A job starts: one whose LAUNCH_AT has passed is counted as late. -/
def State.startJob (s : State) (x : Job) (phase : JobPhase) : State :=
  let late := x.launch ≠ 0 ∧ x.launch ≤ s.now
  let s := if late then s.bump blkGTC F.GTC.LAUNCH_LATE.COUNT else s
  s.updJob x.id (fun y => { y with phase := phase, launch := if late then 0 else y.launch })

/-! ### Images (R162) -/

/-- The header of Table 7.3 from its 64 bytes, and the checks on it. -/
def hdrNroot (h : Nat) : Nat := bits h 32 32
def hdrOff (h : Nat) : Nat := bits h 64 40
def hdrOut (h : Nat) : Nat := bits h 128 49
def hdrOk (h len : Nat) : Bool :=
  bits h 0 8 == 1 && bits h 8 24 == 0 && hdrNroot h != 0 && bits h 104 24 == 0 && bits h 177 15 == 0 && bits h 192 320 == 0 &&
    hdrNroot h ≤ 65536 && hdrOff h + 64 * hdrNroot h ≤ len && hdrOff h % 64 == 0 && hdrOut h % 4 == 0 &&
    (hdrOut h == 0 || decide (hdrOut h + 4 * hdrNroot h ≤ 0x024000000000))
/-- The root records of an image, each with its address; CLASS and LEVEL are the job's. -/
def State.rootsOf (s : State) (x : Job) (h : Nat) : List (Nat × Nat) :=
  (List.range (hdrNroot h)).map (fun i =>
    let a := x.addrA + hdrOff h + 64 * i
    (a, s.viewNat a 64))
def rootRec (x : Job) (v : Nat) : TaskRec := { taskRec v with cls := x.cls, level := x.level }
def rootsFor (l : List (Nat × TaskRec)) (q : Nat) : Nat := (l.filter (fun e => e.2.q == q)).length
/-- The header and the roots are read and checked; the job then waits for entries, or ends with BAD_FIELD. Poison in
them is consumed. A read that the stacks' quarter refuses ends the job with ADDRESS_FAULT, DEDUCED (log entry 62). -/
def State.loadImage (s : State) (x : Job) : State :=
  let who : Who := .port x.id.port
  if s.spanAdm who x.addrA 64 false = .refuse then (s.spanRefuseR who x.addrA 64).jobFault x.id 0x13 0x04 x.addrA
  else
    let s := s.spanTouch who x.addrA 64
    let h := s.viewNat x.addrA 64
    if s.readPoison x.addrA 64 then s.jobFault x.id 0x11 0x07 x.addrA
    else if !hdrOk h x.len then s.endJob x.id 0x11 none
    else
      let a := x.addrA + hdrOff h
      let n := hdrNroot h
      if s.spanAdm who a (64 * n) false = .refuse then
        (s.spanRefuseR who a (64 * n)).jobFault x.id 0x13 0x04 (s.firstRefused who a (64 * n) false)
      else
        let s := s.spanTouch who a (64 * n)
        let vs := s.rootsOf x h
        let l := vs.map (fun e => (e.1, rootRec x e.2))
        match vs.find? (fun e => s.readPoison e.1 64) with
        | some e => s.jobFault x.id 0x11 0x07 e.1
        | none =>
          if vs.any (fun e => !recOk e.2 x.qmask true) ∨ (List.range 4).any (fun q => 16384 < rootsFor l q) then
            s.endJob x.id 0x11 none
          else
            (s.startJob x .rootsWait).updJob x.id (fun y => { y with roots := l, handleOut := hdrOut h })
/-- A quarter of QMASK whose dispatch is stopped, or that is withdrawn. -/
def State.maskQ (x : Job) (f : Nat → Bool) : Option Nat := (List.range 4).find? (fun q => bit x.qmask q && f q)
/-- RUN. -/
def execRun (j : JobId) (s : State) : Host.Outcome State Fault Refusal :=
  .next (match s.job? j with
    | none => s
    | some x =>
      if x.kind ≠ 0 ∨ x.phase ≠ .taken ∨ !s.startable x then s
      else match State.maskQ x (fun q => s.qState q == 5) with
        | some _ => s.endJob j 0x30 none
        | none => match State.maskQ x (fun q => s.fbit (blkTSCHED q) F.TSCHED.SCHED_STATUS.STOPPED) with
          | some q => s.endJob j 0x21 (s.wd q).errRef
          | none => s.loadImage x)
/-- Every target quarter has entries for the roots and no spawn waits there (R158, R162). -/
def State.roomFor (s : State) (x : Job) : Bool :=
  (List.range 4).all (fun q =>
    let n := rootsFor x.roots q
    n == 0 || (s.qUp q && !s.pow.qreset.getLsbD q && s.usedEntries q + n ≤ 16384 && (s.waitingSpawn q).isNone))
/-- The roots take entries; their handles in record order. -/
def State.takeRoots (s : State) (j : JobId) : List (Nat × TaskRec) → State × List Nat
  | [] => (s, [])
  | (a, r) :: l =>
    let q := r.q
    let e := (s.freeEntry? q).getD 0
    let h := handleOf q (s.entry (entryKey q e)).gen e
    let t := (s.takeEntry q e r a j false).takeRoots j l
    (t.1, h :: t.2)
/-- The handles of a job's roots are written, in record order (R162); a write that its home refuses ends the job. -/
def State.writeHandles (s : State) (x : Job) (l : List Nat) : State :=
  let who : Who := .port x.id.port
  let bs := l.flatMap (leBytes 4)
  if x.handleOut = 0 then s
  else if s.spanAdm who x.handleOut bs.length true = .refuse then
    (s.spanRefuseW who 0 x.handleOut bs).jobFault x.id 0x13 0x04 (s.firstRefused who x.handleOut bs.length true)
  else s.spanWrite who 0 x.handleOut bs
/-- ROOT_LOAD. -/
def execRootLoad (j : JobId) (s : State) : Host.Outcome State Fault Refusal :=
  .next (match s.job? j with
    | none => s
    | some x =>
      if x.phase ≠ .rootsWait ∨ !s.alive ∨ !s.roomFor x ∨ (s.earlier j).any (fun y => y.phase == .rootsWait) then s
      else
        let t := s.takeRoots j x.roots
        (t.1.updJob j (fun y => { y with phase := .rootsHeld })).writeHandles x t.2)
/-- All roots of a job become eligible together. -/
def State.makeEligible (s : State) (j : JobId) : State :=
  let s := { s with tasks := s.tasks.map (fun (e : Nat × Entry) =>
    if e.2.used ∧ e.2.job = j then (e.1, { e.2 with eligible := true }) else e) }
  s.updJob j (fun y => { y with phase := .running, launch := 0 })
/-- ROOTS_ELIGIBLE. -/
def execRootsEligible (j : JobId) (s : State) : Host.Outcome State Fault Refusal :=
  .next (match s.job? j with
    | some x => if x.phase = .rootsHeld ∧ x.launch = 0 ∧ s.alive then s.makeEligible j else s
    | none => s)
/-- LAUNCH_RELEASE (R331): the GTC has reached or passed LAUNCH_AT. -/
def execLaunchRelease (j : JobId) (s : State) : Host.Outcome State Fault Refusal :=
  .next (match s.job? j with
    | some x =>
      if x.launch = 0 ∨ s.now < x.launch ∨ !s.alive then s
      else if x.phase = .rootsHeld then s.makeEligible j
      else if x.phase = .begun then s.updJob j (fun y => { y with launch := 0 })
      else s
    | none => s)
/-- LAUNCH_HELD: the jobs held now. -/
def State.launchHeldCount (s : State) : Nat := (s.jobs.filter Job.launchHeld).length

/-! ### Copies (R35, R426, R427) -/

/-- The next block of a copy, once it has started; a job still to start begins. -/
def State.copyStep (s : State) (j : JobId) (kind : Nat) (move : State → Job → State) : State :=
  match s.job? j with
  | none => s
  | some x =>
    if x.kind ≠ kind ∨ !s.alive then s
    else if x.phase = .taken then (if s.startable x then s.startJob x .begun else s)
    else if x.phase = .begun ∧ x.launch = 0 ∧ x.issued < x.len / 64 then move s x
    else s
/-- One block of a copy is done; the last ends the job, one that has met poison with TASK_ABORT (Table 16.3). -/
def State.copyDone (s : State) (j : JobId) : State :=
  s.updJob j (fun x =>
    let x := { x with done := x.done + 1 }
    if x.done ≠ x.len / 64 then x
    else match x.spoilt with
      | none => x.end_ s.now s.ctrl 0 none
      | some id => x.end_ s.now s.ctrl 0x20 (some id))
def State.issued (s : State) (j : JobId) : State := s.updJob j (fun x => { x with issued := x.issued + 1 })
/-- COPY_IN: a block is read from the host. -/
def execCopyIn (j : JobId) (s : State) : Host.Outcome State Fault Refusal :=
  .next (s.copyStep j 1 (fun s x =>
    let (id, s) := (s.issued j).takeSeq
    { s with hostReads := s.hostReads ++
      [HostRead.mk id j.port (.copyIn j (x.addrB + 64 * x.issued)) (x.addrA + 64 * x.issued) 64] }))
/-- COPY_OUT: a block goes to the host; poison goes with EP set, and the job will complete with TASK_ABORT. The blocks go in
rising order, which R427 leaves undefined: a DESIGN CHOICE (log entry 63). -/
def execCopyOut (j : JobId) (s : State) : Host.Outcome State Fault Refusal :=
  .next (s.copyStep j 2 (fun s x =>
    let who : Who := .port j.port
    let a := x.addrA + 64 * x.issued
    match s.spanAdm who a 64 false with
    | .wait => s
    | .refuse => (s.spanRefuseR who a 64).jobFault j 0x13 0x04 (s.firstRefused who a 64 false)
    | _ =>
      if (s.port j.port).d3hot then s
      else if !(s.port j.port).link then s.jobFault j 0x13 0x04 (x.addrB + 64 * x.issued)
      else
        let s := (s.issued j).spanTouch who a 64
        let bad := (blocksOf a 64).any (fun b => s.readPoison b.1 b.2)
        let s := if bad then
            let id := s.err.nextId
            let s := s.report 2 0x07 (blkJI j.port) 0 (jobWord j) a 0 0
            s.updJob j (fun y => if y.spoilt.isNone then { y with spoilt := some id } else y)
          else s
        let s := { s with host := s.host.writeP (x.addrB + 64 * x.issued) (s.viewBytes a 64) bad }
        s.copyDone j))
/-- HOST_READ_COMPLETION: data for a thread's load or for a block of a COPY_IN; with EP set it enters as poison. -/
def State.hostData (s : State) (h : HostRead) (data : Nat) (ep : Bool) : State :=
  let done : State := { s with hostReads := s.hostReads.filter (fun x => x.id != h.id) }
  let done := if ep then done.report 1 0xA1 (blkPCIE h.port) 0 0 h.addr 0 1 else done
  match h.for_ with
  | .request id =>
    (match done.req? id with
      | some r => done.answerReq r (.data (data % 2 ^ (8 * r.size)) (if ep then r.cwMask else 0))
      | none => done)
  | .copyIn j dst =>
    let who : Who := .port j.port
    (match s.job? j with
      | none => done
      | some x =>
        if x.phase ≠ .begun then done
        else match s.spanAdm who dst 64 true with
          | .wait => s
          | .refuse => (done.spanRefuseW who 0 dst (leBytes 64 data)).jobFault j 0x13 0x04 (s.firstRefused who dst 64 true)
          | _ =>
            let bs := leBytes 64 data
            let s := (blocksOf dst 64).foldl (fun s b =>
              s.homeWrite who 0 b.1 ((bs.drop (b.1 - dst)).take b.2) ep) done
            s.copyDone j)
  | .fetch _ => s
def execHostReadCompletion (id : Nat) (data : Nat) (ep : Bool) (s : State) : Host.Outcome State Fault Refusal :=
  .next (match s.hostReads.find? (fun h => h.id == id) with
    | some h => if (s.port h.port).link then s.hostData h data ep else s
    | none => s)
/-- HOST_READ_FAILURE: UR, CA, a timeout, or the link down. -/
def execHostReadFailure (id : Nat) (s : State) : Host.Outcome State Fault Refusal :=
  .next (match s.hostReads.find? (fun h => h.id == id) with
    | none => s
    | some h =>
      let s := { s with hostReads := s.hostReads.filter (fun x => x.id != id) }
      let s := s.logAer h.port .hostReadFailed
      match h.for_ with
      | .request i =>
        (match s.req? i with
          | some r => s.answerReq r (.refused 0x04)
          | none => s)
      | .copyIn j _ => if (s.job? j).any (fun x => x.phase == .begun) then s.jobFault j 0x13 0x04 h.addr else s
      | .fetch r => s.ringError h.port r 4)

/-! ### Completion (R37, R38) -/

/-- FENCE: every earlier job of its ring has completed. -/
def execFence (j : JobId) (s : State) : Host.Outcome State Fault Refusal :=
  .next (match s.job? j with
    | some x => if x.kind = 3 ∧ x.phase = .taken ∧ (s.earlier j).isEmpty then s.endJob j 1 none else s
    | none => s)
/-- A job's work is done and its error, if any, is in the log. -/
def State.completable (s : State) (x : Job) : Bool :=
  (x.phase == .ended || x.phase == .running) && !s.workLeft x.id && !s.reportWaits x.errRef
/-- The jobs whose work has just gone: they end now (R38). -/
def State.tickJobs (s : State) : State :=
  { s with jobs := s.jobs.map (fun x =>
      if x.phase = .running ∧ x.gtcEnd = 0 ∧ !s.workLeft x.id then
        { x with gtcEnd := s.now, endAt := if x.endAt = 0 then s.ctrl + 1 else x.endAt }
      else x) }
/-- JOB_COMPLETE: the job's ordered adds are applied, its record is written, unless it has none. -/
def execJobComplete (j : JobId) (s : State) : Host.Outcome State Fault Refusal :=
  .next (match s.job? j with
    | none => s
    | some x =>
      if !s.completable x then s
      else
        let s := (s.applyAddsOf j).dropJob j
        let s := { s with hostReads := s.hostReads.filter (fun h => match h.for_ with
          | .copyIn k _ => k != j
          | _ => true) }
        if x.noRecord then s
        else
          let detail := if x.status ≤ 1 then 0 else s.seqOf x.errRef
          s.finishRec j.port j.ring ⟨x.tag, 0, x.status, 0, j.ring, detail, x.user,
            if x.gtcEnd = 0 then s.now else x.gtcEnd, x.irq⟩)

end Sys2Proof.Machine
end

