-- ==== Sys2Proof/Machine/Engine.lean ====
section
/-! DEFINITION. What all units that take commands share: submission (R208, R209, R261, R332, R362), the beginning of a
command, its faults (R236, R270, R341, R364), its completion (R211, R268, R340, R364). -/

namespace Sys2Proof.Machine

/-! ### Submission -/

def EUnit.cap : EUnit → Nat
  | .grind _ => 256
  | .perc _ => 16
  | .coll _ => 64
  | .flash _ => 256
/-- The requester that a unit's accesses are made as. -/
def EUnit.who : EUnit → Who
  | .grind g => .grind g
  | .perc h => .perc h
  | .coll h => .coll h
  | .flash h => .flash h
def EUnit.isPerc : EUnit → Bool
  | .perc _ => true
  | _ => false
def EUnit.isColl : EUnit → Bool
  | .coll _ => true
  | _ => false
def EUnit.isFlash : EUnit → Bool
  | .flash _ => true
  | _ => false
def EUnit.isGrind : EUnit → Bool
  | .grind _ => true
  | _ => false
/-- The unit's codes for a bad command, a refused read, a refused write. -/
def EUnit.badCode : EUnit → Nat
  | .grind _ => 0x50
  | .perc _ => 0x70
  | .coll _ => 0x80
  | .flash _ => 0x90
def EUnit.srcCode (u : EUnit) : Nat := if u.isGrind then 0x52 else u.badCode + 1
def EUnit.destCode (u : EUnit) : Nat := if u.isGrind then 0x53 else u.badCode + 2

/-- The commands of a unit that have not begun. -/
def State.queuedOf (s : State) (u : EUnit) : List Cmd := s.cmds.filter (fun c => c.unit == u && c.phase == .queued)
def State.activeOf (s : State) (u : EUnit) : List Cmd := s.cmds.filter (fun c => c.unit == u && c.phase != .queued)
/-- A job whose end is due takes no further command. -/
def State.jobOver (s : State) (j : JobId) : Bool :=
  match s.job? j with
  | some x => x.status != 0
  | none => true
/-- What an operation that reaches a collectives queue while a re-shard drains is marked with: the epoch that drains, plus
one (R343). -/
def State.lateEpoch (s : State) (u : EUnit) : Nat :=
  match u with
  | .coll h => if s.fbit (blkCOLL h) F.COLL.LAYOUT.DRAINING then s.fget (blkCOLL h) F.COLL.LAYOUT.CUR + 1 else 0
  | _ => 0
/-- Request `r` is accepted: its store is acknowledged and its command queued. -/
def State.enqueue (s : State) (u : EUnit) (r : Req) : State :=
  let s := s.answerReq r .ack
  if s.jobOver r.job then s
  else match r.who with
    | .thread k =>
      let t := s.thread k
      let (id, s) := s.takeSeq
      { s with cmds := s.cmds ++ [Cmd.mk id u r.data k t.started r.job t.mode t.modeSens .queued [] 0 none Slot.init 0 0 0 (s.lateEpoch u) 0 []] }
    | _ => s
/-- The store to a SUBMIT that request `id` makes, at its home. -/
def State.submitReq (s : State) (u : EUnit) (id : Nat) : Option Req :=
  match s.req? id with
  | some r =>
    if r.op == .st && r.size == 8 && s.landed id && r.answer.isNone && submitUnit r.addr == some u then some r else none
  | none => none
/-- A store reaches SUBMIT: queued, or held while the queue is full. A Grinder of a quarter that is not up takes none:
ignored and counted (R402), and at a withdrawn quarter the task aborts (R380). -/
def State.submitAt (s : State) (u : EUnit) (id : Nat) : State :=
  match s.submitReq u id, u with
  | none, _ => s
  | some r, u =>
    if !s.alive || s.heldSubs.any (fun h => h.2 == id) then s
    else
      let q := match u with
        | .grind g => some (g / 4)
        | _ => none
      match q with
      | some q =>
        if s.qState q = 1 then
          if (s.queuedOf u).length < u.cap ∧ !s.heldSubs.any (fun h => h.1 == u) then s.enqueue u r
          else { s with heldSubs := s.heldSubs ++ [(u, id)] }
        else
          let s := s.regError u.blk F.GRIND.SUBMIT.CMD.reg true 1
          s.answerReq r (if s.qState q = 5 then .refused 0x04 else .ack)
      | none =>
        if (s.queuedOf u).length < u.cap ∧ !s.heldSubs.any (fun h => h.1 == u) then s.enqueue u r
        else { s with heldSubs := s.heldSubs ++ [(u, id)] }
def reqUnit (s : State) (id : Nat) : Option EUnit := (s.req? id).bind (fun r => submitUnit r.addr)
/-- The submission of a request whose unit is of the kind `p`. -/
def State.submitIf (s : State) (p : EUnit → Bool) (id : Nat) : State :=
  match reqUnit s id with
  | some u => if p u then s.submitAt u id else s
  | none => s
/-- GRIND_SUBMIT, SUBMIT, COLL_SUBMIT, FLASH_SUBMIT: `id` names the store's request. -/
def execGrindSubmit (id : Nat) (s : State) : Host.Outcome State Fault Refusal := .next (s.submitIf EUnit.isGrind id)
def execSubmit (id : Nat) (s : State) : Host.Outcome State Fault Refusal := .next (s.submitIf EUnit.isPerc id)
def execCollSubmit (id : Nat) (s : State) : Host.Outcome State Fault Refusal := .next (s.submitIf EUnit.isColl id)
def execFlashSubmit (id : Nat) (s : State) : Host.Outcome State Fault Refusal := .next (s.submitIf EUnit.isFlash id)
/-- GRIND_QUEUE_ROOM (R209, R261): the oldest store held at the unit is accepted once its queue has room. -/
def State.queueRoom (s : State) (id : Nat) : State :=
  match s.heldSubs.find? (fun h => h.2 == id) with
  | none => s
  | some (u, _) =>
    if !s.alive || u.cap ≤ (s.queuedOf u).length || (s.heldSubs.find? (fun h => h.1 == u)).map (·.2) != some id then s
    else match s.req? id with
      | some r => ({ s with heldSubs := s.heldSubs.filter (fun h => h.2 != id) }).enqueue u r
      | none => s
def execGrindQueueRoom (id : Nat) (s : State) : Host.Outcome State Fault Refusal := .next (s.queueRoom id)

/-! ### Faults -/

/-- The submitting task still runs. -/
def State.cmdTaskRuns (s : State) (c : Cmd) : Bool :=
  let t := s.thread c.thread
  t.st != .free && t.st != .stopped && t.started == c.started && t.job == c.job
/-- A command ends on a fault: its task aborts with its contexts, its job ends. Work aimed at a withdrawn quarter ends
it with DEVICE_FAULT (R380). -/
def State.failCmd (s : State) (id code : Nat) (addr : Nat := 0) : State :=
  match s.cmd? id with
  | none => s
  | some c =>
    let s := s.endCmd c code addr
    let err := (s.cmd? id).bind (·.errRef)
    let runs := s.cmdTaskRuns c
    let s := if runs then s.cancelCtxsOf c.thread err else s
    let s := if runs then s.stopThread c.thread else s
    let lost := match region addr with
      | .cellar q _ => s.qState q == 5
      | .scratch k => s.qState (coreQ k) == 5
      | _ => false
    s.endJob c.job (if lost then 0x30 else 0x20) err

/-! ### Beginning -/

def Cmd.op (c : Cmd) : Nat := bits (c.word 0) 0 4
def Cmd.tag (c : Cmd) : Nat := bits (c.word 0) 48 16
def Cmd.cpl (c : Cmd) : Nat := bits (c.word 7) 0 49
/-- Word 0's reserved bits above the operation's own and word 7's, and the alignment of CPL_ADDR. -/
def Cmd.frameOk (c : Cmd) : Bool := bits (c.word 0) 34 14 == 0 && bits (c.word 7) 49 15 == 0 && c.cpl % 32 == 0
/-- Where a unit reads commands from: stacks and scratch, a Grinder and the collectives' and flash units' rules aside,
also Cellar windows for a Grinder (R208, R261). -/
def EUnit.readsFrom (u : EUnit) (a : Nat) : Bool :=
  match region a with
  | .stack _ => true
  | .scratch _ => true
  | .cellar _ _ => u.isGrind
  | _ => false
def qwords (n v : Nat) : List Nat := (List.range n).map (fun i => bits v (64 * i) 64)
/-- The command at the head of unit `u`'s queue begins, when its OP is one of `mine` (a reserved OP: when `first`): it is
read, and `body` takes it with its words. A bad address, a place that the unit cannot read, poison and a reserved OP end
it. -/
def State.beginCmd (s : State) (u : EUnit) (mine : Nat → Bool) (reserved : Nat → Bool) (body : State → Cmd → State) : State :=
  match s.queuedOf u with
  | [] => s
  | c :: _ =>
    let a := c.addr
    if !s.alive then s
    else if a % 64 ≠ 0 ∨ 2 ^ 49 ≤ a then s.failCmd c.id u.badCode 0
    else if !u.readsFrom a then (s.unitReject a false).failCmd c.id u.srcCode a
    else match s.spanAdm u.who a 64 false with
      | .wait => s
      | .refuse => (s.spanRefuseR u.who a 64).failCmd c.id u.srcCode (s.firstRefused u.who a 64 false)
      | _ =>
        let t := s.spanTouch u.who a 64
        if t.readPoison a 64 then t.failCmd c.id 0x07 a
        else
          let w := qwords 8 (t.viewNat a 64)
          let op := bits (w.getD 0 0) 0 4
          if reserved op then (t.updCmd c.id (fun c => { c with words := w })).failCmd c.id u.badCode a
          else if mine op then
            body (t.updCmd c.id (fun c => { c with words := w, phase := .active })) { c with words := w, phase := .active }
          else s

/-- An engine's read of `n` bytes for a command: it waits, ends the command, or goes on with the bytes as a number. -/
def State.engRead (s : State) (c : Cmd) (a n : Nat) (k : State → Nat → State) : State :=
  match s.spanAdm c.unit.who a n false with
  | .wait => s
  | .refuse => (s.spanRefuseR c.unit.who a n).failCmd c.id c.unit.srcCode (s.firstRefused c.unit.who a n false)
  | _ =>
    let s := s.spanTouch c.unit.who a n
    if s.readPoison a n then s.failCmd c.id 0x07 a else k s (s.viewNat a n)
/-- An engine's write for a command: it waits, ends the command, or is performed. -/
def State.engWrite (s : State) (c : Cmd) (a : Nat) (bs : List Byte) (k : State → State) : State :=
  match s.spanAdm c.unit.who a bs.length true with
  | .wait => s
  | .refuse => (s.spanRefuseW c.unit.who c.mode a bs).failCmd c.id c.unit.destCode (s.firstRefused c.unit.who a bs.length true)
  | _ => k (s.spanWrite c.unit.who c.mode a bs)
/-- The 16 B codewords of `[a, a + n)` as reads return them. -/
def State.viewCodes (s : State) (a n : Nat) : List Code := (List.range (n / 16)).map (fun i => s.viewCode (a + 16 * i))
/-- Codewords written block by block. -/
def State.codesWrite (s : State) (who : Who) (mode a : Nat) : List Code → Nat → State
  | _, 0 => s
  | l, n + 1 =>
    if l.isEmpty then s
    else (s.homeWriteCodes who mode a (l.take ((64 - a % 64) / 16))).codesWrite who mode (a + (64 - a % 64))
      (l.drop ((64 - a % 64) / 16)) n

/-! ### Completion -/

/-- The OWNER field of a record. -/
def Cmd.owner (c : Cmd) : Nat := c.thread / 64 + c.thread % 64 * 0x1000
/-- The record of Table 9.3. -/
def Cmd.grindRecord (c : Cmd) (gtc detail : Nat) : List Byte :=
  leBytes 1 c.status ++ leBytes 1 1 ++ leBytes 2 c.tag ++ leBytes 4 c.dropped ++ leBytes 4 c.cold ++ leBytes 4 c.cnt ++
    leBytes 8 gtc ++ leBytes 4 c.owner ++ leBytes 4 detail
/-- The record of Table 11.3. -/
def Cmd.percRecord (c : Cmd) (gtc detail : Nat) : List Byte :=
  leBytes 1 c.status ++ leBytes 1 1 ++ leBytes 2 c.tag ++ leBytes 4 c.cnt ++ leBytes 8 (c.bytes % 2 ^ 40) ++
    leBytes 8 gtc ++ leBytes 4 c.owner ++ leBytes 4 detail
/-- The statuses that are outcomes, not faults (R275, R340, R364): with no error record behind them. -/
def Cmd.good (c : Cmd) : Bool := c.errRef.isNone
def Cmd.doneEn (c : Cmd) : Bool := bit (c.word 0) 4
def Cmd.doneObj (c : Cmd) : Nat := bits (c.word 0) 16 18
/-- The answer to a command's DONE signal. -/
def State.cmdSig (s : State) (id : Nat) (w : Wake) : Bool := w.sig && w.who == .cmd id && s.landed w.id
/-- A command that has ended writes its record and signals DONE_OBJ; once the signal is answered it is gone. An object of
the wrong type, or FAULTED, ends it with SYNC_OBJ_FAULT after its record. A refused record write is a fault, with no
record and no signal. -/
def State.finishCmd (s : State) (id : Nat) : State :=
  match s.cmd? id with
  | none => s
  | some c =>
    match c.phase with
    | .ending =>
      if !s.alive || s.reportWaits c.errRef || s.moves.any (fun m => m.cmd == id) then s
      else
        let rec_ := if c.unit.isGrind then c.grindRecord s.now (s.seqOf c.errRef) else c.percRecord s.now (s.seqOf c.errRef)
        let bad := c.cpl % 32 ≠ 0 ∨ !inDevMem c.cpl
        let adm := s.spanAdm c.unit.who c.cpl 32 true
        if c.cpl ≠ 0 ∧ !bad ∧ adm = .wait then s
        else if c.cpl ≠ 0 ∧ (bad ∨ adm = .refuse) then
          let t := if bad then s.unitReject c.cpl true else s.engineReject c.cpl true
          if c.good then t.failCmd id c.unit.destCode c.cpl else t.dropCmd id
        else
          let s := if c.cpl = 0 then s else s.homeWrite c.unit.who c.mode c.cpl rec_ false
          if c.good && c.doneEn then
            (s.updCmd id (fun c => { c with phase := .signalled })).sendSync (.cmd id) c.doneObj (.sig 1 false)
          else s.dropCmd id
    | .signalled =>
      match s.wakes.find? (s.cmdSig id) with
      | none => s
      | some w =>
        let s := { s with wakes := s.wakes.filter (fun w => !s.cmdSig id w) }
        if w.status = 0 then s.dropCmd id else (s.failCmd id 0x46 0).dropCmd id
    | _ => s

end Sys2Proof.Machine
end

