-- ==== Sys2Proof/Machine/Flash.lean ====
section
/-! DEFINITION. The flash managers (R350-R368): page reads with their decoding, commits, trims, collection, wear levelling,
scrub, failures, formatting; the spill commands. -/

namespace Sys2Proof.Machine

def State.flash (s : State) (h : Nat) : Flash := Sparse.get Flash.init s.flashes h
def State.setFlash (s : State) (h : Nat) (x : Flash) : State := { s with flashes := Sparse.put Flash.init s.flashes h x }
def State.fmState (s : State) (h : Nat) : Nat := s.fget (blkFM h) F.FM.FM_STATUS.STATE
def State.lpages (s : State) (h : Nat) : Nat := s.fget (blkFM h) F.FM.CAPACITY.LPAGES
/-- The manager serves reads. -/
def State.fmUp (s : State) (h : Nat) : Bool := s.fmState h == 2 || s.fmState h == 3

/-! ### Targets and superblocks (R355, R356, R358) -/

/-- Target `x` = 8t + c of a manager: its channel's block, its number there. -/
def tgtBlk (h x : Nat) : Nat := blkF (8 * h + x % 8)
def State.present (s : State) (h x : Nat) : Bool := bit (s.fget (tgtBlk h x) F.F.CH_STATUS.PRESENT) (x / 8)
def State.tgtFailed (s : State) (h x : Nat) : Bool := bit (s.fget (tgtBlk h x) F.F.CH_STATUS.FAILED) (x / 8)
def State.tgtOk (s : State) (h x : Nat) : Bool := s.present h x && !s.tgtFailed h x
def blkKey (x b : Nat) : Nat := 65536 * x + b
def Flash.blk (f : Flash) (x b : Nat) : FBlk := Sparse.get FBlk.init f.blks (blkKey x b)
def Flash.setBlk (f : Flash) (x b : Nat) (v : FBlk) : Flash := { f with blks := Sparse.put FBlk.init f.blks (blkKey x b) v }
def Flash.freeBlks (f : Flash) (x : Nat) : Nat := ((List.range f.blocks).filter (fun b => (f.blk x b).st == .free)).length
def Flash.goodBlks (f : Flash) (x : Nat) : Nat := ((List.range f.blocks).filter (fun b => (f.blk x b).st != .bad)).length
/-- The pages of a superblock that the map points to. -/
def Flash.valid (f : Flash) (x b : Nat) : List Nat :=
  (f.map.filter (fun e => match e.2 with
    | some p => p.tgt == x && p.blk == b
    | none => false)).map (·.1)
/-- The first of a list by a measure, ties to the earlier. -/
def leastBy (m : Nat → Nat) : List Nat → Option Nat
  | [] => none
  | a :: l => match leastBy m l with
    | some b => if m b < m a then some b else some a
    | none => some a
/-- The superblock that takes the next page of a target: the open one, else the free one with the fewest erases. -/
def Flash.openBlk (f : Flash) (x : Nat) : Option Nat :=
  match (List.range f.blocks).find? (fun b => (f.blk x b).st == .opened) with
  | some b => some b
  | none => leastBy (fun b => (f.blk x b).erases) ((List.range f.blocks).filter (fun b => (f.blk x b).st == .free))
/-- The target whose turn it is: turns pass over failed ones. -/
def State.turnTgt (s : State) (h : Nat) : Option Nat :=
  ((List.range 32).map (fun i => ((s.flash h).turn + i) % 32)).find? (fun x => s.tgtOk h x)
/-- Powered hours of a manager: 5.04 × 10^12 ARITH cycles each. -/
def State.hours (s : State) (h : Nat) : Nat := (s.flash h).hours0 + s.clk.arith / 5040000000000
/-- The manager writes a page's entry in the map region; its layout is open. -/
def State.mapImage (s : State) (h lpn : Nat) : State × Nat :=
  let r := s.fresh
  let a := s.fget (blkFM h) F.FM.MAP_BASE.BASE * 4096 + 8 * lpn
  (if s.spanAdm (.flash h) a 8 true = .go then r.2.homeWrite (.flash h) 0 a (leBytes 8 r.1.toNat) false else r.2, r.1.toNat)
def State.busBytes (s : State) (h x n : Nat) : State :=
  let r := s.fresh
  r.2.bump (tgtBlk h x) F.F.BYTES.COUNT 0 (n + r.1.toNat % 0x10000)
/-- A page goes to the next location of target `x` and the map follows it. -/
def State.placePage (s : State) (h x b lpn : Nat) : State :=
  let f := s.flash h
  let k := f.blk x b
  let k' : FBlk := { k with st := if k.next + 1 = f.pages then .full else .opened, next := k.next + 1 }
  let i := s.mapImage h lpn
  let s := i.1
  let f := (s.flash h).setBlk x b k'
  let s := s.setFlash h { f with turn := (x + 1) % 32, wseq := (f.wseq + 1) % 2 ^ 64,
                                 map := Sparse.put none f.map lpn (some ⟨x, b, k.next, s.hours h, i.2, f.wseq⟩) }
  (s.busBytes h x 73728).bump (blkFM h) F.FM.PAGES_PROGRAMMED.COUNT
/-- One page is written again elsewhere; it stays where it is when no target has room. -/
def State.movePage (s : State) (h lpn : Nat) : State :=
  match s.turnTgt h with
  | none => s
  | some x => match (s.flash h).openBlk x with
    | some b => s.placePage h x b lpn
    | none => s
/-- Loss of spare space (R361). -/
def State.spareCheck (s : State) (h : Nat) : State :=
  let f := s.flash h
  let ok := (List.range 32).filter (fun x => s.tgtOk h x)
  let all := (List.range 32).filter (fun x => s.present h x)
  let good := (ok.map f.goodBlks).foldl (· + ·) 0
  let need := (s.lpages h + f.pages - 1) / f.pages + 2 * all.length
  if s.fmState h = 2 ∧ f.pages ≠ 0 ∧ good < need then
    ((s.fset (blkFM h) F.FM.FM_STATUS.STATE 3).fset (blkFM h) F.FM.FM_STATUS.DEGRADED 1).report 3 0xAB (blkFM h) 0 0 0 0 2
  else s
/-- A superblock is retired as grown bad: its valid pages are written elsewhere first. -/
def State.retire (s : State) (h x b : Nat) : State :=
  let f := (s.flash h).setBlk x b { (s.flash h).blk x b with st := .bad }
  let s := s.setFlash h { f with bad := f.bad + 1 }
  let s := ((s.flash h).valid x b).foldl (fun s p => s.movePage h p) s
  s.spareCheck h

/-! ### Reading (R352, R354, R359) -/

/-- A handle is valid for manager `h` (R354). -/
def State.handleOk (s : State) (h n : Nat) : Bool := n < 2 ^ 31 && n / 2 ^ 30 == h && decide (n % 2 ^ 30 < s.lpages h)
def poisonCodes (n : Nat) : List Code := List.replicate n ⟨0, true⟩
def cwIsBad : FlashCw → Bool
  | .bad => true
  | _ => false
def cwIsRetry : FlashCw → Bool
  | .retry _ _ => true
  | _ => false
def cwIsSoft : FlashCw → Bool
  | .soft _ => true
  | _ => false
def cwCorrected : FlashCw → Nat
  | .hard b => b
  | .retry _ b => b
  | .soft b => b
  | .bad => 0
/-- What the decoding of a read does to the manager: counters, error records, the block's retry level. -/
def State.decoded (s : State) (h lpn : Nat) (p : FPage) (res : List FlashCw) (lo hi : Nat) : State :=
  let used := (res.drop lo).take (hi - lo)
  let s := (List.range (hi - lo)).foldl (fun s i => match used.getD i (.hard 0) with
    | .bad => (s.bump (blkFM h) F.FM.UNCORRECTABLE.COUNT).report 1 0xA4 (blkFM h) 0 0 0 0
        (lpn + h * 2 ^ 30 + (lo + i) * 2 ^ 48)
    | .retry l _ =>
      let f := s.flash h
      s.setFlash h (f.setBlk p.tgt p.blk { f.blk p.tgt p.blk with level := l })
    | _ => s) s
  let s := if used.any cwIsRetry then s.bump (blkFM h) F.FM.RETRY_READS.COUNT else s
  let s := if used.any cwIsSoft then s.bump (blkFM h) F.FM.SOFT_READS.COUNT else s
  s.busBytes h p.tgt (4608 * (hi - lo))
/-- Free codewords. -/
def State.freeCodes (s : State) : Nat → State × List Code
  | 0 => (s, [])
  | n + 1 =>
    let a := s.fresh
    let b := a.2.fresh
    let r := b.2.freeCodes n
    (r.1, ⟨a.1.toNat + b.1.toNat * 2 ^ 64, false⟩ :: r.2)
/-- `n` bytes at offset `off` of a page, decoded as `res` says: the codewords that enter the device, whether the page was
unmapped. Where software has overwritten the page's entry in the map region, the data is that of a page the spec does not
name. -/
def State.flashRead (s : State) (h handle off n : Nat) (res : List FlashCw) : State × List Code × Bool :=
  let lpn := handle % 2 ^ 30
  match if s.handleOk h handle then Sparse.get none (s.flash h).map lpn else none with
  | none => (s.bump (blkFM h) F.FM.UNMAPPED_READS.COUNT, poisonCodes (n / 16), true)
  | some p =>
    let lo := off / 4096
    let hi := (off + n - 1) / 4096 + 1
    if !s.tgtOk h p.tgt then (s, poisonCodes (n / 16), false)
    else
      let a := s.fget (blkFM h) F.FM.MAP_BASE.BASE * 4096 + 8 * lpn
      let s' := s.decoded h lpn p res lo hi
      if s.spanAdm (.flash h) a 8 false = .go ∧ s.viewNat a 8 ≠ p.img then
        let r := s'.freeCodes (n / 16)
        (r.1, r.2, false)
      else
        let f := s.flash h
        (s', (List.range (n / 16)).map (fun i =>
          let o := off + 16 * i
          if cwIsBad (res.getD (o / 4096) (.hard 0)) then ⟨0, true⟩
          else ⟨leNat ((List.range 16).map (fun j => Sparse.get 0 f.data (65536 * lpn + o + j))), false⟩), false)

/-! ### Spill commands (R362-R366) -/

def Cmd.fHandle (c : Cmd) : Nat := bits (c.word 1) 0 48
def Cmd.fAddr (c : Cmd) : Nat := bits (c.word 2) 0 49
def Cmd.fOff (c : Cmd) : Nat := bits (c.word 3) 0 10
def Cmd.fLen (c : Cmd) : Nat := if bits (c.word 3) 16 10 = 0 then 1024 else bits (c.word 3) 16 10
def Cmd.fPages (c : Cmd) : Nat := bits (c.word 4) 0 13
/-- Bytes moved for each page. -/
def Cmd.fBytes (c : Cmd) : Nat := if c.op = 1 then 64 * c.fLen else 65536
/-- The checks of R363. -/
def State.spillOk (s : State) (h : Nat) (c : Cmd) : Bool :=
  let n := c.fPages
  let endA := c.fAddr + n * c.fBytes - 1
  c.frameOk && bits (c.word 0) 5 11 == 0 && bits (c.word 1) 48 16 == 0 && bits (c.word 2) 49 15 == 0 &&
    bits (c.word 3) 10 6 == 0 && bits (c.word 3) 26 38 == 0 && bits (c.word 4) 13 51 == 0 && c.word 5 == 0 && c.word 6 == 0 &&
    decide (1 ≤ n) && decide (n ≤ 4096) && s.handleOk h c.fHandle && s.handleOk h (c.fHandle + n - 1) &&
    (if c.op = 1 then decide (c.fOff + c.fLen ≤ 1024) else c.word 3 == 0) &&
    (if c.op = 3 then c.word 2 == 0
     else c.fAddr % 64 == 0 && inDevMem c.fAddr && inDevMem endA)
/-- A spill command of kind `op` begins: not before the manager is READY, at most 64 at once. -/
def State.spillBegin (s : State) (h op : Nat) (body : State → Cmd → State) : State :=
  let st := s.fmState h
  if st = 0 ∨ st = 1 ∨ 64 ≤ (s.activeOf (.flash h)).length then s
  else if st = 4 ∨ st = 5 then
    match s.queuedOf (.flash h) with
    | [] => s
    | c :: _ => if s.alive then s.failCmd c.id 0x94 0 else s
  else
    s.beginCmd (.flash h) (· == op) (fun o => o == 0 || 3 < o) (fun s c =>
      if !s.spillOk h c then s.failCmd c.id 0x90 0
      else if st = 3 ∧ op ≠ 1 then s.failCmd c.id 0x93 0
      else body s c)
def execRead (h : Fin 2) (s : State) : Host.Outcome State Fault Refusal :=
  .next (s.spillBegin h.val 1 (fun s c => s.updCmd c.id (fun x => { x with open_ := List.range c.fPages })))
def execWrite (h : Fin 2) (s : State) : Host.Outcome State Fault Refusal :=
  .next (s.spillBegin h.val 2 (fun s c => s.updCmd c.id (fun x => { x with open_ := List.range c.fPages })))
/-- A page is unmapped. -/
def State.trimPage (s : State) (h lpn : Nat) : State :=
  let s := (s.mapImage h lpn).1
  let f := s.flash h
  s.setFlash h { f with map := Sparse.put none f.map lpn none }
def execTrim (h : Fin 2) (s : State) : Host.Outcome State Fault Refusal :=
  .next (s.spillBegin h.val 3 (fun s c =>
    ((List.range c.fPages).foldl (fun s i => s.trimPage h.val (c.fHandle % 2 ^ 30 + i)) s).updCmd c.id
      (fun x => { x with cnt := c.fPages, phase := .ending })))
/-- Page `k` of a command is done; the last ends the command, with poison before an unmapped page (Table 15.4). -/
def Cmd.pageDone (c : Cmd) (k n fl : Nat) : Cmd :=
  let c := { c with open_ := c.open_.filter (· != k), cnt := c.cnt + 1, bytes := c.bytes + n, dropped := c.dropped ||| fl }
  if c.open_.isEmpty then
    { c with phase := .ending, status := if bit c.dropped 0 then 8 else if bit c.dropped 1 then 9 else 0 }
  else c
/-- FLASH_PAGE_READ_DONE: page `k` of a READ returns and lands; `res`: the decoding of its sixteen codewords. -/
def State.pageRead (s : State) (h id k : Nat) (res : List FlashCw) : State :=
  match s.cmd? id with
  | none => s
  | some c =>
    if c.unit ≠ .flash h ∨ c.phase ≠ .active ∨ c.op ≠ 1 ∨ !c.open_.contains k ∨ !s.alive then s
    else
      let dst := c.fAddr + k * c.fBytes
      match s.spanAdm (.flash h) dst c.fBytes true with
      | .wait => s
      | .refuse =>
        let b := s.firstRefused (.flash h) dst c.fBytes true
        let r := s.flashRead h (c.fHandle + k) (64 * c.fOff) c.fBytes res
        ((r.1.codesWrite (.flash h) c.mode dst (r.2.1.take ((b - dst) / 16)) (c.fBytes / 64 + 1)).engineReject b true).failCmd id 0x92 b
      | _ =>
        let r := s.flashRead h (c.fHandle + k) (64 * c.fOff) c.fBytes res
        let fl := if r.2.2 then 2 else if r.2.1.any (·.poison) then 1 else 0
        (r.1.codesWrite (.flash h) c.mode dst r.2.1 (c.fBytes / 64 + 1)).updCmd id (·.pageDone k c.fBytes fl)
def execFlashPageReadDone (h : Fin 2) (id k : Nat) (res : List FlashCw) (s : State) : Host.Outcome State Fault Refusal :=
  .next (s.pageRead h.val id k res)
/-- FLASH_PAGE_COMMIT: page `k` of a WRITE has been programmed, or, with `fail`, its program has failed: the superblock
is retired and the page is programmed again at the next location. -/
def State.pageCommit (s : State) (h id k : Nat) (fail : Bool) : State :=
  match s.cmd? id, s.turnTgt h with
  | some c, some x =>
    let f := s.flash h
    if c.unit ≠ .flash h ∨ c.phase ≠ .active ∨ c.op ≠ 2 ∨ !c.open_.contains k ∨ !s.alive ∨ f.freeBlks x ≤ 2 then s
    else match f.openBlk x with
      | none => s
      | some b =>
        let src := c.fAddr + k * 65536
        match s.spanAdm (.flash h) src 65536 false with
        | .wait => s
        | .refuse => (s.spanRefuseR (.flash h) src 65536).failCmd id 0x91 (s.firstRefused (.flash h) src 65536 false)
        | _ =>
          let lpn := c.fHandle % 2 ^ 30 + k
          let s := s.spanTouch (.flash h) src 65536
          let bad := s.readPoison src 65536
          let data := s.viewBytes src 65536
          if bad then s.failCmd id 0x07 src
          else if fail then
            let s := s.bump (tgtBlk h x) F.F.PROG_FAILS.COUNT
            let f := s.flash h
            (s.setFlash h { f with turn := (x + 1) % 32 }).retire h x b
          else
            let s := (s.placePage h x b lpn).bump (blkFM h) F.FM.PAGES_WRITTEN.COUNT
            let f := s.flash h
            let s := s.setFlash h { f with data := (List.range 65536).foldl (fun d i =>
              Sparse.put 0 d (65536 * lpn + i) (data.getD i 0)) f.data }
            s.updCmd id (·.pageDone k 65536 0)
  | _, _ => s
def execFlashPageCommit (h : Fin 2) (id k : Nat) (fail : Bool) (s : State) : Host.Outcome State Fault Refusal :=
  .next (s.pageCommit h.val id k fail)
/-- FLASH_CMD_COMPLETE (R364). -/
def execFlashCmdComplete (id : Nat) (s : State) : Host.Outcome State Fault Refusal :=
  .next (match s.cmd? id with
    | some c => if c.unit.isFlash then s.finishCmd id else s
    | none => s)

/-! ### Background work (R356-R361) -/

/-- A command's page waits for channel `c`. -/
def State.chanWanted (s : State) (h ch : Nat) : Bool :=
  s.cmds.any (fun c => c.unit == .flash h && c.phase == .active && c.op == 1 && c.open_.any (fun k =>
    match Sparse.get none (s.flash h).map (c.fHandle % 2 ^ 30 + k) with
    | some p => p.tgt % 8 == ch
    | none => false))
def State.background (s : State) (h x : Nat) : Bool :=
  s.alive && s.fmUp h && s.tgtOk h x && !(s.flash h).first && !s.chanWanted h (x % 8)
/-- The valid pages of a superblock move; it is then erased. -/
def State.collect (s : State) (h x b : Nat) : State :=
  let s := ((s.flash h).valid x b).foldl (fun s p => s.movePage h p) s
  let f := s.flash h
  if (f.valid x b).isEmpty then s.setFlash h (f.setBlk x b { f.blk x b with st := .erasing }) else s
/-- GC_COLLECT. -/
def execGcCollect (h : Fin 2) (x : Fin 32) (s : State) : Host.Outcome State Fault Refusal :=
  let f := s.flash h.val
  .next (if s.background h.val x.val && decide (f.freeBlks x.val < s.fget (blkFM h.val) F.FM.WEAR_CTL.GC_LOW) then
    let full := (List.range f.blocks).filter (fun b => (f.blk x.val b).st == .full)
    match leastBy (fun b => (f.valid x.val b).length * 2 ^ 40 + (f.blk x.val b).erases) full with
    | some b => s.collect h.val x.val b
    | none => s
  else s)
/-- STATIC_WEAR_LEVEL. -/
def execStaticWearLevel (h : Fin 2) (x : Fin 32) (s : State) : Host.Outcome State Fault Refusal :=
  let f := s.flash h.val
  let good := (List.range f.blocks).filter (fun b => (f.blk x.val b).st != .bad)
  let most := (good.map (fun b => (f.blk x.val b).erases)).foldl max 0
  .next (match leastBy (fun b => (f.blk x.val b).erases) good with
    | some b =>
      if s.background h.val x.val && (f.blk x.val b).st == .full &&
          decide ((f.blk x.val b).erases + s.fget (blkFM h.val) F.FM.WEAR_CTL.WEAR_SPREAD < most) then
        s.collect h.val x.val b
      else s
    | none => s)
/-- FLASH_ERASE_DONE (R358): the superblock is free, or a failed block retires it. -/
def execFlashEraseDone (h : Fin 2) (x : Fin 32) (b : Nat) (fail : Bool) (s : State) : Host.Outcome State Fault Refusal :=
  let f := s.flash h.val
  let k := f.blk x.val b
  .next (if k.st ≠ .erasing ∨ !s.alive then s
    else if fail then (s.bump (tgtBlk h.val x.val) F.F.ERASE_FAILS.COUNT).retire h.val x.val b
    else s.setFlash h.val (f.setBlk x.val b { k with st := .free, next := 0, erases := k.erases + 1 }))
/-- RETENTION_SCRUB: the pass takes its next valid page, or ends. -/
def State.scrubStep (s : State) (h : Nat) (res : List FlashCw) : State :=
  let f := s.flash h
  let from_ := f.scrub.getD 0
  let b := blkFM h
  if !s.alive || !s.fmUp h || (f.scrub.isNone && !f.first && s.hours h < f.passAt) then s
  else match f.map.find? (fun e => decide (from_ ≤ e.1)) with
    | some (lpn, some p) =>
      if s.chanWanted h (p.tgt % 8) then s
      else
        let s := s.setFlash h { f with scrub := some (lpn + 1),
                                       passAt := if f.scrub.isNone then s.hours h + s.fget b F.FM.SCRUB_CTL.PASS_HOURS else f.passAt }
        if !s.tgtOk h p.tgt then s
        else
          let s := s.decoded h lpn p res 0 16
          let worn := (res.take 16).any (fun r => cwIsRetry r || cwIsSoft r ||
            decide (s.fget b F.FM.SCRUB_CTL.REFRESH_BITS < cwCorrected r))
          let old := decide (p.hours + s.fget b F.FM.SCRUB_CTL.RET_HOURS < s.hours h)
          if (res.take 16).any cwIsBad then s else if worn || old then s.movePage h lpn else s
    | _ => (s.setFlash h { f with scrub := none, first := false,
                                  passAt := if f.scrub.isNone then s.hours h + s.fget b F.FM.SCRUB_CTL.PASS_HOURS else f.passAt }).bump
        b F.FM.SCRUB_PASSES.COUNT
def execRetentionScrub (h : Fin 2) (res : List FlashCw) (s : State) : Host.Outcome State Fault Refusal :=
  .next (s.scrubStep h.val res)
/-- A target fails (R361). -/
def State.failTgt (s : State) (h x : Nat) : State :=
  let b := tgtBlk h x
  let m := s.fget (blkFM h) F.FM.FM_STATUS.FAILED_TARGETS
  let s := s.fset b F.F.CH_STATUS.FAILED (s.fget b F.F.CH_STATUS.FAILED ||| 2 ^ (x / 8))
  let s := s.fset (blkFM h) F.FM.FM_STATUS.FAILED_TARGETS (m ||| 2 ^ (4 * (x % 8) + x / 8))
  ((s.fset (blkFM h) F.FM.FM_STATUS.DEGRADED 1).report 3 0xAB (blkFM h) 0 0 0 0 1).spareCheck h
/-- TARGET_FAILED: a target stops answering. -/
def execTargetFailed (h : Fin 2) (x : Fin 32) (s : State) : Host.Outcome State Fault Refusal :=
  .next (if s.tgtOk h.val x.val then (s.bump (tgtBlk h.val x.val) F.F.TIMEOUTS.COUNT).failTgt h.val x.val else s)
/-- FORMAT (R358, R367): `marked` lists the blocks with a factory mark, 4 · (65,536 · target + block) + plane; only the
first format finds them. -/
def State.format (s : State) (h : Nat) (marked : List Nat) : State :=
  let f := s.flash h
  let firstTime := s.fmState h = 4
  let bads := if firstTime then marked.map (· / 4) else []
  let ks := ((List.range 32).filter (fun x => s.tgtOk h x)).flatMap (fun x => (List.range f.blocks).map (blkKey x))
  let blks := ks.foldl (fun m k =>
    let v := Sparse.get FBlk.init m k
    if v.st = .bad then m
    else if bads.contains k then Sparse.put FBlk.init m k { v with st := .bad }
    else Sparse.put FBlk.init m k { v with st := .free, next := 0, erases := v.erases + 1 }) f.blks
  let good := (ks.filter (fun k => (Sparse.get FBlk.init blks k).st != .bad)).length * f.pages
  let s := s.setFlash h { f with blks := blks, map := [], data := [], bad := f.bad + (if firstTime then marked.length else 0) }
  let s := s.fset (blkFM h) F.FM.CAPACITY.LPAGES (min (7 * good / 8) (2 ^ 30 - 1))
  let s := (List.range (s.lpages h)).foldl (fun s p => (s.mapImage h p).1) s
  s.fset (blkFM h) F.FM.FM_STATUS.STATE 2
def execFormat (h : Fin 2) (rq : Requester) (marked : List Nat) (s : State) : Host.Outcome State Fault Refusal :=
  .next (s.regGuard rq (blkFM h.val) F.FM.FM_CTL.FORMAT.reg (fun s =>
    if s.alive ∧ 2 ≤ s.fmState h.val ∧ s.fmState h.val ≠ 5 then s.format h.val marked else s))
/-- FLASH_MAP_REBUILT (R350, R355): the targets that answered their parameter page and those that pass its checks, with
the geometry of the flash profile; the manager is READY, or UNFORMATTED before its first format, or FAILED with no
target. -/
def State.mapRebuilt (s : State) (h : Nat) (present ok : BitVec 32) (blocks pages : Nat) : State :=
  let f := s.flash h
  let s := s.setFlash h { f with blocks := blocks, pages := pages, scrub := none, first := true }
  let s := (List.range 8).foldl (fun s c =>
    let m := (List.range 4).foldl (fun m t => if present.getLsbD (8 * t + c) then m + 2 ^ t else m) 0
    s.fset (blkF (8 * h + c)) F.F.CH_STATUS.PRESENT m) s
  let s := s.fset (blkFM h) F.FM.FM_STATUS.STATE
    (if ok = 0 then 5 else if s.lpages h = 0 then 4 else 2)
  let s := (List.range 32).foldl (fun s x => if present.getLsbD x && !ok.getLsbD x && !s.tgtFailed h x then s.failTgt h x else s) s
  let s := (List.range (s.lpages h)).foldl (fun s p =>
    let r := s.mapImage h p
    let f := r.1.flash h
    match Sparse.get none f.map p with
    | some v => r.1.setFlash h { f with map := Sparse.put none f.map p (some { v with img := r.2 }) }
    | none => r.1) s
  s.spareCheck h
def execFlashMapRebuilt (h : Fin 2) (present ok : BitVec 32) (blocks pages : Nat) (s : State) : Host.Outcome State Fault Refusal :=
  .next (if s.alive ∧ s.fmState h.val = 1 then s.mapRebuilt h.val present ok blocks pages else s)

end Sys2Proof.Machine
end

