-- ==== Sys2Proof/Machine/Grinder.lean ====
section
/-! DEFINITION. The Grinders (R203-R238): table slots, directory entries and rows, lookups, updates, migrations and
replacements, statistics. -/

namespace Sys2Proof.Machine

/-! ### Slots (R203) and sketch units (R234) -/

def State.slot (s : State) (g t : Nat) : Slot := Sparse.get Slot.init s.slots (32 * g + t)
/-- The staged values of a slot. -/
def State.staged (s : State) (g t : Nat) : Slot :=
  let b := blkGRIND g
  let ix := 32 * t
  ⟨4096 * s.fget b F.GRIND.TAB_DIR.DIR_BASE ix, s.fget b F.GRIND.TAB_ROWS.ROWS ix, s.fget b F.GRIND.TAB_CFG.DIM ix,
   s.fget b F.GRIND.TAB_CFG.OPT ix, s.fbit b F.GRIND.TAB_CFG.HOME ix, s.fbit b F.GRIND.TAB_CFG.VALID ix,
   s.fget b F.GRIND.TAB_CFG.SHARD_LOG2 ix⟩
def State.applySlot (s : State) (g t : Nat) : State :=
  { s with slots := Sparse.put Slot.init s.slots (32 * g + t) (s.staged g t) }
def State.grindUp (s : State) (g : Nat) : Bool := s.alive && s.qUp (g / 4)
def State.applyDo (s : State) (g : Fin 16) (t : Fin 32) : State :=
  (if s.grindUp g.val then s.applySlot g.val t.val else s)
def State.applyAllDo (s : State) (g : Fin 16) : State :=
  (if s.grindUp g.val then (List.range 32).foldl (fun s t => s.applySlot g.val t) s else s)
/-- TAB_PENDING. -/
def State.tabPending (s : State) (g : Nat) : Nat :=
  (List.range 32).foldl (fun m t => if s.staged g t = s.slot g t then m else m + 2 ^ t) 0
/-- The key of counter `c` of sketch unit `u`, and of the unit's own count. -/
def sketchKey (g u c : Nat) : Nat := (16 * g + u) * 16384 + c
def State.clearUnit (s : State) (g u : Nat) : State :=
  { s with sketch := Sparse.clearRange s.sketch (sketchKey g u 0) (sketchKey g u 16384)
           sketchN := Sparse.put 0 s.sketchN (16 * g + u) 0 }
def State.skCtl (s : State) (g u : Nat) : Nat :=
  let b := blkGRIND g
  s.fget b F.GRIND.SK_CTL.ENABLE (8 * u) + 2 * s.fget b F.GRIND.SK_CTL.TABLE (8 * u) +
    2 ^ 32 * s.fget b F.GRIND.SK_CTL.SHARD (8 * u)
/-- SK_CTL_WRITE: a change clears the unit; `half` names the 4-byte half written, high when true. -/
def State.skCtlWriteDo (s : State) (g u : Fin 16) (half : Option Bool) (v : Word) : State :=
  let b := blkGRIND g.val
  let ix := 8 * u.val
  let w := initWord (s.skCtl g.val u.val) half v.toNat
  (if !s.grindUp g.val then s
    else
      let t := ((s.fset b F.GRIND.SK_CTL.ENABLE (bits w 0 1) ix).fset b F.GRIND.SK_CTL.TABLE (bits w 1 5) ix).fset b
        F.GRIND.SK_CTL.SHARD (bits w 32 32) ix
      if t.skCtl g.val u.val = s.skCtl g.val u.val then t else t.clearUnit g.val u.val)

/-! ### Entries and rows (R204-R207, R217) -/

def eTier (e : Nat) : Nat := bits e 126 2
def eMoving (e : Nat) : Bool := bit e 125
def eFmt (e : Nat) : Nat := bits e 122 3
def eVersion (e : Nat) : Nat := bits e 110 12
def eScale (e : Nat) : Nat := bits e 64 32
def eLoc (e : Nat) : Nat := bits e 0 64
/-- FLASH: page handle and byte offset. -/
def eHandle (e : Nat) : Nat := bits e 16 48
def eOff (e : Nat) : Nat := 64 * bits e 6 10
def up64 (n : Nat) : Nat := (n + 63) / 64 * 64
def valueBytes (dim fmt : Nat) : Nat :=
  if fmt = 0 then 4 * dim else if fmt = 1 ∨ fmt = 2 then 2 * dim else if fmt = 6 then dim / 2 else dim
def valueSpan (dim fmt : Nat) : Nat := up64 (valueBytes dim fmt)
def stateBytes (dim opt : Nat) : Nat := if opt = 2 then 64 else if opt = 3 then 2 * up64 (4 * dim) else 0
def rowSpan (t : Slot) (fmt : Nat) : Nat := valueSpan t.dim fmt + stateBytes t.dim t.opt
/-- A bad entry (R205). -/
def State.badEntry (s : State) (t : Slot) (e : Nat) : Bool :=
  let n := rowSpan t (eFmt e)
  let a := eLoc e
  eTier e != 3 && (bits e 96 14 != 0 || eFmt e == 7 || bits e 0 6 != 0 ||
    (if eTier e = 0 then
      match region a with
      | .cellar q b => s.bankOwn q b F.CELLAR.BANK_OWN.MODE != 2 || region (a + n - 1) != .cellar q b
      | _ => true
    else if eTier e = 1 then decide (0x024000000000 < a + n)
    else decide (65536 < eOff e + n)))
def entryAddr (t : Slot) (r : Nat) : Nat := t.dir + 16 * r
/-- Who performs a Grinder's access to a row: for a Cave row the owning Grinder; none where the access is rejected. -/
def State.rowWho (s : State) (g a : Nat) : Option Who :=
  match region a with
  | .cellar q b =>
    if s.bankOwn q b F.CELLAR.BANK_OWN.MODE = 2 ∧ s.bankOwn q b F.CELLAR.BANK_OWN.OWNER_KIND = 4 then
      some (.grind (4 * q + s.bankOwn q b F.CELLAR.BANK_OWN.OWNER_ID))
    else none
  | .stack _ => some (.grind g)
  | _ => none
def Cmd.g (c : Cmd) : Nat :=
  match c.unit with
  | .grind g => g
  | _ => 0
/-- A row access of a command: it waits, ends the command, or goes on with the requester. -/
def State.rowAccess (s : State) (c : Cmd) (a n : Nat) (write : Bool) (k : Who → State) : State :=
  match s.rowWho c.g a with
  | none => (s.unitReject a write).failCmd c.id 0x52 a
  | some w => match s.spanAdm w a n write with
    | .wait => s
    | .refuse =>
      let code := match region a with
        | .cellar _ _ => 0x52
        | _ => if write then 0x53 else 0x52
      (if write then s.engineReject (s.firstRefused w a n true) true else s.spanRefuseR w a n).failCmd c.id code (s.firstRefused w a n write)
    | _ => k w
/-- A directory entry is read: outside the stack region the command ends. -/
def State.readEntry (s : State) (c : Cmd) (t : Slot) (r : Nat) (k : State → Nat → State) : State :=
  match region (entryAddr t r) with
  | .stack _ => s.engRead c (entryAddr t r) 16 k
  | _ => (s.unitReject (entryAddr t r) false).failCmd c.id 0x52 (entryAddr t r)
/-- An element as an FP32 encoding: exact for float formats; an integer q for FMT 5 and 6. -/
def elemFP32 (fmt v : Nat) : Nat :=
  let ofInt (i : Int) : Nat := toFP32 .rne (if i = 0 then .zero false else .fin (decide (i < 0)) i.natAbs 0)
  if fmt = 0 then toFP32 .rne (ofFP32 v)
  else if fmt = 1 then toFP32 .rne (ofBF16 v)
  else if fmt = 2 then toFP32 .rne (ofFP16 v)
  else if fmt = 3 then toFP32 .rne (ofE4M3 v)
  else if fmt = 4 then toFP32 .rne (ofE5M2 v)
  else ofInt (sextInt (if fmt = 5 then 8 else 4) v)
/-- Bits of one element. -/
def elemBits (fmt : Nat) : Nat := if fmt = 0 then 32 else if fmt = 1 ∨ fmt = 2 then 16 else if fmt = 6 then 4 else 8
/-- The elements of the codewords of a value part, in order. -/
def rowElems (fmt : Nat) (l : List Code) : List Nat :=
  l.flatMap (fun c => (List.range (128 / elemBits fmt)).map (fun i => elemFP32 fmt (bits c.v (elemBits fmt * i) (elemBits fmt))))
/-- The codewords of a list of elements of `w` bits; the last is filled with zeros. -/
def packCodes (w : Nat) (l : List Nat) (n : Nat) : List Code :=
  (List.range n).map (fun i =>
    ⟨(List.range (128 / w)).foldl (fun v j => v + (l.getD (128 / w * i + j) 0 % 2 ^ w) * 2 ^ (w * j)) 0, false⟩)
def isIntFmt (fmt : Nat) : Bool := 5 ≤ fmt
/-- A row's elements decoded to FP32 (R222): an INT element is round(SCALE × q). -/
def decodeRow (r : Rnd) (fmt scale : Nat) (l : List Code) : List Nat :=
  if isIntFmt fmt then (rowElems fmt l).map (mul32 r scale) else rowElems fmt l

/-! ### Quotients and roots -/

/-- a / b rounded once. -/
def div32 (r : Rnd) (a b : Nat) : Nat :=
  let x := ofFP32 a
  let y := ofFP32 b
  let sg := x.neg? != y.neg?
  match x, y with
  | .nan, _ => nan32
  | _, .nan => nan32
  | .inf _, .inf _ => nan32
  | .inf _, _ => signed 32 sg 0x7F800000
  | _, .inf _ => signed 32 sg 0
  | .zero _, .zero _ => nan32
  | .zero _, _ => signed 32 sg 0
  | _, .zero _ => signed 32 sg 0x7F800000
  | .fin _ m e, .fin _ m' e' =>
    let sh := bitLen m' + 70
    let n := m * 2 ^ sh
    toFP32 r (.fin sg (2 * (n / m') + (if n % m' = 0 then 0 else 1)) (e - e' - sh - 1))
/-- The square root, correctly rounded. -/
def sqrt32 (r : Rnd) (a : Nat) : Nat :=
  match ofFP32 a with
  | .nan => nan32
  | .inf false => 0x7F800000
  | .zero n => signed 32 n 0
  | .fin false m e =>
    let m2 := if e % 2 = 0 then m else 2 * m
    let e2 := if e % 2 = 0 then e else e - 1
    let n := m2 * 2 ^ 80
    let q := Nat.sqrt n
    toFP32 r (.fin false (2 * q + (if q * q = n then 0 else 1)) (e2 / 2 - 41))
  | _ => nan32
/-- The FP32 encoding of a count. -/
def natFP32 (r : Rnd) (n : Nat) : Nat := toFP32 r (if n = 0 then .zero false else .fin false n 0)
/-- The exact quotient x / d of two finite FP32 values, to nearest even, held within ±lim. -/
def quotInt (x d : Nat) (lim : Nat) : Int :=
  match ofFP32 x, ofFP32 d with
  | .fin sx m e, .fin sd m' e' =>
    let n := m * 2 ^ (e - e').toNat
    let k := m' * 2 ^ (e' - e).toNat
    let q := n / k
    let up := compare (2 * (n % k)) k
    let q := if up == .gt || (up == .eq && q % 2 == 1) then q + 1 else q
    let q := min q lim
    if sx != sd then -(q : Int) else (q : Int)
  | _, _ => 0
/-- The magnitude of an FP32 encoding, for comparison. -/
def magBits (v : Nat) : Nat := v % 2 ^ 31
def notFinite (v : Nat) : Bool := 0x7F800000 ≤ magBits v
/-- Requantising (R223): SCALE and the elements; none where SCALE rounds to zero, whose quotients the spec does not
state. -/
def requant (r : Rnd) (lim : Nat) (l : List Nat) : Nat × Option (List Int) :=
  if l.any notFinite then (nan32, some (l.map (fun _ => 0)))
  else
    let a := (l.map magBits).foldl max 0
    if a = 0 then (0, some (l.map (fun _ => 0)))
    else
      let scale := div32 r a (natFP32 r lim)
      (scale, if scale = 0 then none else some (l.map (fun x => quotInt x scale lim)))
/-- A row encoded by Grinder `g` in a format: its codewords and SCALE (R223); saturated values are counted (R90). -/
def State.encodeRow (s : State) (g : Nat) (r : Rnd) (fmt scale : Nat) (l : List Nat) : State × Nat × List Code :=
  let n := valueSpan l.length fmt / 16
  if isIntFmt fmt then
    let w := if fmt = 5 then 8 else 4
    match requant r (if fmt = 5 then 127 else 7) l with
    | (sc, some q) => (s, sc, packCodes w (q.map (fun i => (i % 2 ^ w).toNat)) n)
    | (sc, none) =>
      let f := s.freeCodes n
      (f.1, sc, f.2)
  else
    let xs := l.map (narrow fmt r)
    (s.countConv (g / 4) (xs.filter (·.2)).length, scale, packCodes (elemBits fmt) (xs.map (·.1)) n)

/-! ### Lookups (R212-R216) -/

def Cmd.pool (c : Cmd) : Nat := bits (c.word 0) 11 2
def Cmd.skipCold (c : Cmd) : Bool := bit (c.word 0) 10
def Cmd.ofmt (c : Cmd) : Nat := bits (c.word 0) 13 2
def Cmd.indexAddr (c : Cmd) : Nat := bits (c.word 1) 0 49
def Cmd.idxBytes (c : Cmd) : Nat := if bit (c.word 1) 49 then 8 else 4
def Cmd.count (c : Cmd) : Nat := bits (c.word 5) 0 21
def Cmd.pitch (c : Cmd) : Nat := bits (c.word 5) 32 32
def Cmd.rnd (c : Cmd) : Rnd := modeRound c.mode
def bagRowBytes (ofmt dim : Nat) : Nat := if ofmt = 0 then 4 * dim else 2 * dim
def lookupOk (c : Cmd) (t : Slot) : Bool :=
  c.frameOk && !bit (c.word 0) 15 && c.pool != 3 && c.ofmt != 3 && bits (c.word 1) 50 14 == 0 && bits (c.word 5) 21 11 == 0 &&
    decide (1 ≤ c.count) && decide (c.count ≤ 1048576) && c.pitch % 16 == 0 && decide (bagRowBytes c.ofmt t.dim ≤ c.pitch) &&
    c.word 4 % 16 == 0 && c.word 6 % 2 == 0
/-- A command of kind `op` begins at Grinder `g`; it latches its slot, which must be valid. -/
def State.grindBegin (s : State) (g op : Nat) (body : State → Cmd → Slot → State) : State :=
  if !s.qUp (g / 4) then s
  else s.beginCmd (.grind g) (· == op) (fun o => o == 0 || 5 < o) (fun s c =>
    let t := s.slot g c.slotNo
    if !t.valid then s.failCmd c.id 0x50 0
    else body (s.updCmd c.id (fun x => { x with slot := t })) { c with slot := t } t)
def execLookup (g : Fin 16) (s : State) : Host.Outcome State Fault Refusal :=
  .next (s.grindBegin g.val 1 (fun s c t => if lookupOk c t then s else s.failCmd c.id 0x50 0))
def State.bagsOf (s : State) (g : Nat) : List Bag :=
  s.bags.filter (fun b => (s.cmd? b.cmd).any (fun c => c.unit == .grind g))
def State.bag? (s : State) (id b : Nat) : Option Bag := s.bags.find? (fun x => x.cmd == id && x.b == b)
def State.setBag (s : State) (x : Bag) : State :=
  { s with bags := s.bags.map (fun y => if y.cmd = x.cmd ∧ y.b = x.b then x else y) }
def IdxRead.isCold : IdxRead → Bool
  | .cold _ _ _ => true
  | _ => false
/-- A deferred index of the bag has been read and its row has not arrived; it has arrived. -/
def Bag.coldOpen (b : Bag) : Bool := b.reads.any (fun r => match r.2 with
  | .cold _ _ none => true
  | _ => false)
/-- The entry read for position `p`. -/
def Bag.at_ (b : Bag) (p : Nat) : Option IdxRead := (b.reads.find? (fun r => r.1 == p)).map (fun (r : Nat × IdxRead) => r.2)
def Bag.coldHere (b : Bag) : Bool := b.reads.any (fun r => match r.2 with
  | .cold _ _ (some _) => true
  | _ => false)
def State.parkedN (s : State) (g : Nat) : Nat := ((s.bagsOf g).filter (·.parked)).length
def State.activeBags (s : State) (g : Nat) : Nat := ((s.bagsOf g).filter (fun b => !b.parked)).length
/-- Outstanding requests, and bytes of rows asked for or returned and not yet pooled (R216). -/
def State.outReads (s : State) (g : Nat) : Nat := ((s.bagsOf g).map (fun b => b.flits.length)).foldl (· + ·) 0
def State.rowBuffer (s : State) (g : Nat) : Nat :=
  64 * ((s.bagsOf g).flatMap (fun b => b.reads.map (fun r => match r.2 with
    | .row _ _ asked _ => asked
    | _ => 0))).foldl (· + ·) 0
/-- The requests of 64 B of a row's value span. -/
def Slot.rowReqs (t : Slot) (entry : Nat) : Nat := valueSpan t.dim (eFmt entry) / 64
/-- A row's codewords from its parts. -/
def partCodes (n : Nat) (parts : List (Nat × List Code)) : List Code :=
  (List.range n).flatMap (fun i => ((parts.find? (fun e => e.1 == i)).map (·.2)).getD [])
/-- A pooled index is counted (R233, R234). -/
def sketchMul : List Nat := [0xA24BAED4963EE407, 0x9FB21C651E98DF25, 0xD3A2646CAB3ED96B, 0xE7037ED1A0B428DB]
def State.countIndex (s : State) (g : Nat) (t : Slot) (slot r : Nat) : State :=
  if !s.fbit (blkGRIND g) F.GRIND.GR_CTL.STATS_ENABLE then s
  else
    let sh := min (r >>> t.shard) 1023
    let k := 1024 * (32 * g + slot) + sh
    let s := { s with shards := Sparse.upd 0 s.shards k (fun n => (n + 1) % 2 ^ 64) }
    (List.range 16).foldl (fun s u =>
      let b := blkGRIND g
      if s.fbit b F.GRIND.SK_CTL.ENABLE (8 * u) && s.fget b F.GRIND.SK_CTL.TABLE (8 * u) == slot &&
          s.fget b F.GRIND.SK_CTL.SHARD (8 * u) == sh then
        { s with
          sketch := (List.range 4).foldl (fun m d =>
            Sparse.upd 0 m (sketchKey g u (4096 * d + r * sketchMul.getD d 0 % 2 ^ 64 / 2 ^ 52)) (fun n => min (n + 1) 0xFFFFFFFF))
            s.sketch
          sketchN := Sparse.upd 0 s.sketchN (16 * g + u) (· + 1) }
      else s) s
/-- The output row of a bag or of one index, narrowed to OFMT. -/
def outRow (c : Cmd) (l : List Nat) : List Byte :=
  if c.ofmt = 0 then l.flatMap (leBytes 4) else l.flatMap (fun x => leBytes 2 (narrow c.ofmt c.rnd x).1)
def versionWord (entry : Nat) (dropped : Bool) : Nat := eVersion entry + 4096 * eTier entry + (if dropped then 32768 else 0)
/-- A weight: FP32 at its place, or 1.0. -/
def State.withWeight (s : State) (c : Cmd) (p : Nat) (k : State → Nat → State) : State :=
  if c.word 3 = 0 then k s 0x3F800000 else s.engRead c (c.word 3 + 4 * p) 4 k
/-- The version list takes a position's word. -/
def State.putVersion (s : State) (c : Cmd) (p v : Nat) (k : State → State) : State :=
  if c.word 6 = 0 then k s else s.engWrite c (c.word 6 + 2 * p) (leBytes 2 v) k
/-- Position `p` of a bag is done: the next is taken. -/
def Bag.step (b : Bag) : Bag := { b with pos := b.pos + 1, reads := b.reads.filter (fun r => r.1 != b.pos) }
/-- Pools one row into a bag's accumulation, or writes it where the command does not pool (R214). -/
def State.poolRow (s : State) (c : Cmd) (b : Bag) (r entry : Nat) (l : List Code) : State :=
  let fmt := eFmt entry
  if (l.take ((valueBytes b.slot.dim fmt + 15) / 16)).any (·.poison) then s.failCmd c.id 0x07 (eLoc entry)
  else
    s.withWeight c b.pos (fun s w =>
      let m := c.rnd
      let w' := if isIntFmt fmt then mul32 m w (eScale entry) else w
      let x := (rowElems fmt l).take b.slot.dim
      let done (s : State) (b : Bag) : State :=
        s.putVersion c b.pos (versionWord entry false) (fun s => (s.countIndex c.g b.slot c.slotNo r).setBag b.step)
      if c.pool = 2 then
        s.engWrite c (c.word 4 + b.pos * c.pitch) (outRow c (x.map (mul32 m w'))) (fun s => done s { b with n := b.n + 1 })
      else done s { b with n := b.n + 1, acc := (List.range b.slot.dim).map (fun e => fma32 m w' (x.getD e 0) (b.acc.getD e 0)) })
/-- The next index of a bag, if its entry and row are there: dropped, pooled, or, deferred, a reason to park. -/
def State.bagStep (s : State) (c : Cmd) (b : Bag) : State :=
  match b.at_ b.pos with
  | some (.dropped e) =>
    let next (s : State) : State := s.putVersion c b.pos (versionWord e true) (fun s => s.setBag b.step)
    if c.pool = 2 then s.engWrite c (c.word 4 + b.pos * c.pitch) (outRow c (List.replicate b.slot.dim 0)) next
    else next s
  | some (.row r e _ parts) => if parts.length < b.slot.rowReqs e then s else s.poolRow c b r e (partCodes (b.slot.rowReqs e) parts)
  | some (.cold r e (some l)) => if b.parked then s else s.poolRow c b r e l
  | some (.cold _ _ none) =>
    -- the entries after it are read afresh (R215)
    if b.parked ∨ 256 ≤ s.parkedN c.g then s
    else s.setBag { b with parked := true, ent := b.pos + 1, reads := b.reads.filter (fun r => r.1 == b.pos), flits := [] }
  | _ => s
/-- A bag whose indices are all taken writes its output and ends; the last one ends the command. -/
def State.bagEnd (s : State) (c : Cmd) (b : Bag) : State :=
  let fin (s : State) : State :=
    let s := { s with bags := s.bags.filter (fun x => !(x.cmd == b.cmd && x.b == b.b)) }
    s.updCmd c.id (fun x => { x with cnt := x.cnt + 1, phase := if x.cnt + 1 = x.count then .ending else x.phase })
  if c.pool = 2 then fin s
  else
    let m := c.rnd
    let out := if b.n = 0 then List.replicate b.slot.dim 0
      else if c.pool = 1 then b.acc.map (fun a => div32 m a (natFP32 m b.n)) else b.acc
    s.engWrite c (c.word 4 + b.b * c.pitch) (outRow c out) fin
/-- A bag goes as far as its entries and rows allow; at most one index, or its end, for each unit of `n`. -/
def State.bagRun (s : State) (id b : Nat) : Nat → State
  | 0 => s
  | n + 1 => match s.cmd? id, s.bag? id b with
    | some c, some x =>
      if c.phase ≠ .active ∨ x.parked then s
      else if x.pos = x.hi then s.bagEnd c x
      else
        let s' := s.bagStep c x
        if s' = s then s else s'.bagRun id b n
    | _, _ => s
/-- BAG_BEGIN: the next bag of command `id` begins. -/
def State.bagBegin (s : State) (id : Nat) : State :=
  match s.cmd? id with
  | none => s
  | some c =>
    let g := c.g
    let stands := 256 ≤ s.parkedN g && (s.bagsOf g).any (fun b => !b.parked && b.coldOpen)
    let waits := (s.bagsOf g).any (fun b => b.parked && b.coldHere)
    if !c.unit.isGrind ∨ c.phase ≠ .active ∨ c.op ≠ 1 ∨ c.count ≤ c.next ∨ !s.grindUp g ∨ 64 ≤ s.activeBags g ∨ stands ∨ waits then s
    else
      s.engRead c (c.word 2 + 4 * c.next) 8 (fun s o =>
        let lo := bits o 0 32
        let hi := bits o 32 32
        let t := s.slot g c.slotNo
        if (c.next = 0 ∧ lo ≠ 0) ∨ hi < lo ∨ (c.next + 1 = c.count ∧ 2 ^ 24 < hi) ∨ !t.valid then s.failCmd id 0x50 0
        else
          let b : Bag := ⟨id, c.next, lo, hi, t, s.now, lo, lo, 0, List.replicate t.dim 0, [], [], false⟩
          (({ s with bags := s.bags ++ [b] }).updCmd id (fun x => { x with next := x.next + 1 })).bagRun id c.next 2)
def execBagBegin (id : Nat) (s : State) : Host.Outcome State Fault Refusal := .next (s.bagBegin id)
/-- A request of `n` bytes for position `p` of a bag leaves: to the row's home, for a Cave row to the owning Grinder (R217). -/
def State.grindSend (s : State) (c : Cmd) (x : Bag) (p a n : Nat) : State :=
  let (id, s) := s.takeSeq
  let dst := match s.rowWho c.g a with
    | some (.grind o) => if o = c.g then homeNode a else (grindIface o).node
    | _ => homeNode a
  (s.setBag { x with flits := x.flits ++ [⟨id, p, a, n, 0, none⟩] }).send id .lat (grindIface c.g) dst
/-- The next request of a bag, where R216 lets one go: a row whose requests have not all gone, else the next entry. -/
def State.bagIssue (s : State) (id b : Nat) : State :=
  match s.cmd? id, s.bag? id b with
  | some c, some x =>
    let g := c.g
    if c.phase ≠ .active ∨ !s.grindUp g ∨ x.parked then s
    else
      let room := decide (s.outReads g < s.fget (blkGRIND g) F.GRIND.GR_CTL.OUT_LIMIT)
      match x.reads.find? (fun r => match r.2 with
        | .row _ e asked _ => decide (asked < x.slot.rowReqs e)
        | _ => false) with
      | some (p, .row r e asked parts) =>
        if !room ∨ 2 ^ 20 < s.rowBuffer g + 64 then s
        else s.grindSend c { x with reads := x.reads.map (fun y => if y.1 = p then (p, .row r e (asked + 1) parts) else y) } p
          (eLoc e + 64 * asked) 64
      | _ =>
        if !room ∨ x.hi ≤ x.ent ∨ x.pos + 256 ≤ x.ent ∨ x.coldOpen ∨ x.coldHere then s
        else
          let p := x.ent
          s.engRead c (c.indexAddr + c.idxBytes * p) c.idxBytes (fun s r =>
            let y := { x with ent := p + 1, reads := x.reads ++ [(p, .entry r)] }
            let a := entryAddr x.slot r
            if x.slot.rows ≤ r then s.setBag y
            else match region a with
              | .stack _ => s.grindSend c y p a 16
              | _ => (s.unitReject a false).failCmd id 0x52 a)
  | _, _ => s
/-- Every bag asks for one thing more. -/
def State.tickGrind (s : State) : State := s.bags.foldl (fun s x => s.bagIssue x.cmd x.b) s
/-- A Grinder's request that stands before its home, with the Grinder. Requests of one Grinder at one home keep their order (R17). -/
def State.grindAtHome (s : State) (id : Nat) : Option (Nat × GrRead) :=
  match s.grRead? id with
  | none => none
  | some (x, r) =>
    let g := ((s.cmd? x.cmd).map Cmd.g).getD 0
    let older := (s.bagsOf g).any (fun y => y.flits.any (fun o => decide (o.flit < id) && o.data.isNone &&
      homeIface o.addr == homeIface r.addr && !s.inPc o.flit))
    if r.data.isSome || !s.landed id || !s.alive || older then none else some (g, r)
/-- The home answers a Grinder's request; no codewords: refused. -/
def State.grindAnswer (s : State) (g : Nat) (r : GrRead) (l : List Code) : State :=
  let s := { s with bags := s.bags.map (fun (y : Bag) => { y with flits := y.flits.map (fun (o : GrRead) => if o.flit = r.flit then { o with data := some l } else o) }) }
  s.send r.flit .lat (homeIface r.addr) (grindIface g).node
/-- A request of the bag has come back. -/
def State.grindBack (s : State) (o : GrRead) : Bool := o.data.isSome && s.landed o.flit
/-- ENTRY_READ_RETURN (Table 9.4): the first entry of the bag that is still to be taken, in index-list order. -/
def State.entryReturn (s : State) (id b : Nat) : State :=
  match s.cmd? id, s.bag? id b with
  | some c, some x =>
    if c.phase ≠ .active ∨ !s.grindUp c.g ∨ x.parked ∨ x.coldOpen ∨ x.coldHere then s
    else match x.reads.find? (fun r => match r.2 with
      | .entry _ => true
      | _ => false) with
    | some (p, .entry r) =>
      let gb := blkGRIND c.g
      let a := entryAddr x.slot r
      let flit := x.flits.find? (fun o => o.idx == p && o.n == 16)
      let take (s : State) (i : IdxRead) : State :=
        (s.setBag { x with reads := x.reads.map (fun y => if y.1 = p then (p, i) else y), flits := x.flits.filter (fun o => some o != flit) }).bagRun
          id b 258
      let drop (s : State) (e cold : Nat) : State :=
        take ((s.bump gb F.GRIND.GRIND_DROP.COUNT).updCmd id
          (fun c => { c with dropped := c.dropped + 1, cold := c.cold + cold })) (.dropped e)
      match flit with
      | none => if x.slot.rows ≤ r then drop s 0 0 else s
      | some o =>
        if !s.grindBack o then s
        else match spoil o.addr o.bad (o.data.getD []) with
          | [] => s.failCmd id 0x52 a
          | w :: _ =>
            let e := w.v
            if w.poison then s.failCmd id 0x07 a
            else if eTier e = 3 then drop s e 0
            else if s.badEntry x.slot e then s.failCmd id 0x51 a
            else if eTier e = 2 then
              if c.skipCold then drop (s.bump gb F.GRIND.COLD_SKIPS.COUNT) e 1
              else take ((s.bump gb F.GRIND.COLD_DEFERS.COUNT).updCmd id (fun c => { c with cold := c.cold + 1 })) (.cold r e none)
            else take s (.row r e 0 [])
    | _ => s
  | _, _ => s
def execEntryReadReturn (id b : Nat) (s : State) : Host.Outcome State Fault Refusal := .next (s.entryReturn id b)
/-- ROW_READ_RETURN: a request of the row of position `p` that has come back is taken in; the bag pools what stands in order. -/
def State.rowReturn (s : State) (id b p : Nat) : State :=
  match s.cmd? id, s.bag? id b with
  | some c, some x =>
    if c.phase ≠ .active ∨ !s.grindUp c.g then s
    else match x.at_ p, x.flits.find? (fun o => o.idx == p && o.n == 64 && s.grindBack o) with
      | some (.row r e asked parts), some o =>
        match spoil o.addr o.bad (o.data.getD []) with
        | [] => s.failCmd id 0x52 o.addr
        | l =>
          let parts := ((o.addr - eLoc e) / 64, l) :: parts
          let s := if parts.length = x.slot.rowReqs e then s.bump (blkGRIND c.g) F.GRIND.ROWS_READ.COUNT else s
          (s.setBag { x with reads := x.reads.map (fun y => if y.1 = p then (p, .row r e asked parts) else y),
                             flits := x.flits.filter (· != o) }).bagRun id b 258
      | _, _ => s.bagRun id b 258
  | _, _ => s
def execRowReadReturn (id b p : Nat) (s : State) : Host.Outcome State Fault Refusal := .next (s.rowReturn id b p)
/-- The manager that a handle names. -/
def handleMgr (e : Nat) : Nat := eHandle e / 2 ^ 30 % 2
/-- DEFERRED_ROW_ARRIVAL: the flash manager answers a parked bag; `res`: the decoding of the page's codewords. -/
def State.coldArrival (s : State) (id b : Nat) (res : List FlashCw) : State :=
  match s.cmd? id, s.bag? id b with
  | some c, some x =>
    match x.at_ x.pos with
    | some (.cold r e none) =>
      if c.phase ≠ .active ∨ !x.parked ∨ !s.grindUp c.g ∨ s.fmState (handleMgr e) ≤ 1 then s
      else
        let f := s.flashRead (handleMgr e) (eHandle e) (eOff e) (valueSpan x.slot.dim (eFmt e)) res
        (f.1.bump (blkGRIND c.g) F.GRIND.ROWS_READ.COUNT).setBag
          { x with reads := x.reads.map (fun y => if y.1 = x.pos then (x.pos, .cold r e (some f.2.1)) else y) }
    | _ => s
  | _, _ => s
def execDeferredRowArrival (id b : Nat) (res : List FlashCw) (s : State) : Host.Outcome State Fault Refusal :=
  .next (s.coldArrival id b res)
/-- BAG_RESUME. -/
def execBagResume (id b : Nat) (s : State) : Host.Outcome State Fault Refusal :=
  .next (match s.cmd? id, s.bag? id b with
    | some c, some x =>
      if x.parked && x.coldHere && decide (s.activeBags c.g < 64) && s.grindUp c.g then
        (s.setBag { x with parked := false }).bagRun id b 258
      else s
    | _, _ => s)

/-! ### Updates (R219-R225) -/

/-- The parameter block of Table 9.6 as a number. -/
def Cmd.gform (c : Cmd) : Bool := bit (c.word 0) 10
def Cmd.gbf16 (c : Cmd) : Bool := bit (c.word 0) 11
def Cmd.gmean (c : Cmd) : Bool := bit (c.word 0) 12
def updateOk (c : Cmd) : Bool :=
  c.frameOk && bits (c.word 0) 13 3 == 0 && bits (c.word 1) 50 14 == 0 && bits (c.word 5) 21 11 == 0 &&
    (c.gform || (c.word 2 == 0 && c.word 3 == 0 && decide (c.count ≤ 1048576))) && c.word 4 % 16 == 0 && c.pitch % 16 == 0 &&
    c.word 6 % 64 == 0
/-- The row number of index `i` of a command, and whether its row is dropped; none where a read ends the command. -/
structure IdxInfo where
  bag  : Nat
  row  : Nat
  drop : Bool
  deriving DecidableEq, Repr
/-- Reads index `i` and, below ROWS, its entry. -/
def State.withIndex (s : State) (c : Cmd) (i : Nat) (k : State → Nat → Bool → State) : State :=
  s.engRead c (c.indexAddr + c.idxBytes * i) c.idxBytes (fun s r =>
    if c.slot.rows ≤ r then k s r true
    else s.readEntry c c.slot r (fun s e =>
      if eTier e = 3 then k s r true
      else if s.badEntry c.slot e then s.failCmd c.id 0x51 (entryAddr c.slot r) else k s r false))
/-- Reads `n` indices from `i` on. -/
def State.withIndices (s : State) (c : Cmd) (i : Nat) : Nat → (State → List (Nat × Bool) → State) → State
  | 0, k => k s []
  | n + 1, k => s.withIndex c i (fun s r d => s.withIndices c (i + 1) n (fun s l => k s ((r, d) :: l)))
/-- Row `i` of the gradient list as FP32. -/
def State.withGrad (s : State) (c : Cmd) (i : Nat) (k : State → List Nat → State) : State :=
  let w := if c.gbf16 then 2 else 4
  s.engRead c (c.word 4 + i * c.pitch) (w * c.slot.dim) (fun s v =>
    k s ((List.range c.slot.dim).map (fun e => elemFP32 (if c.gbf16 then 1 else 0) (bits v (8 * w * e) (8 * w)))))
/-- An index's gradient is merged into its row's (R221). -/
def mergeGrad (m : Rnd) (l : List UpdRow) (r : Nat) (g : List Nat) : List UpdRow :=
  if l.any (fun u => u.row == r) then
    l.map (fun u => if u.row = r then { u with grad := (List.range g.length).map (fun e => add32 m (u.grad.getD e 0) (g.getD e 0)) } else u)
  else l ++ [⟨r, g⟩]
/-- PER_INDEX: the gradients of the indices, merged. -/
def State.gradsByIndex (s : State) (c : Cmd) : List (Nat × Bool) → Nat → List UpdRow → (State → List UpdRow → State) → State
  | [], _, acc, k => k s acc
  | (r, d) :: l, i, acc, k =>
    if d then s.gradsByIndex c l (i + 1) acc k
    else s.withGrad c i (fun s g => s.gradsByIndex c l (i + 1) (mergeGrad c.rnd acc r g) k)
/-- PER_BAG: the indices of one bag, whose gradient row is `g` and whose live indices number `n`. -/
def State.gradsInBag (s : State) (c : Cmd) (g : List Nat) (n : Nat) :
    List (Nat × Bool) → Nat → List UpdRow → (State → List UpdRow → State) → State
  | [], _, acc, k => k s acc
  | (r, d) :: l, i, acc, k =>
    if d then s.gradsInBag c g n l (i + 1) acc k
    else s.withWeight c i (fun s w =>
      let sc := if c.gmean then div32 c.rnd w (natFP32 c.rnd n) else w
      s.gradsInBag c g n l (i + 1) (mergeGrad c.rnd acc r (g.map (mul32 c.rnd sc))) k)
/-- PER_BAG: bags `b` on, `n` of them, over the indices still left. -/
def State.gradsByBag (s : State) (c : Cmd) (idx : List (Nat × Bool)) (b : Nat) :
    Nat → List UpdRow → (State → List UpdRow → State) → State
  | 0, acc, k => k s acc
  | n + 1, acc, k =>
    s.engRead c (c.word 2 + 4 * b) 8 (fun s o =>
      let lo := bits o 0 32
      let hi := bits o 32 32
      if (b = 0 ∧ lo ≠ 0) ∨ hi < lo then s.failCmd c.id 0x50 0
      else
        let mine := idx.take (hi - lo)
        let live := (mine.filter (fun e => !e.2)).length
        s.withGrad c b (fun s g =>
          s.gradsInBag c g live mine lo acc (fun s acc => s.gradsByBag c (idx.drop (hi - lo)) (b + 1) n acc k)))
/-- The merge work area holds what the Grinder makes of it. -/
def State.scribble (s : State) (c : Cmd) (a n : Nat) (k : State → State) : State :=
  match s.spanAdm c.unit.who a n true with
  | .wait => s
  | .refuse => (s.engineReject (s.firstRefused c.unit.who a n true) true).failCmd c.id 0x53 (s.firstRefused c.unit.who a n true)
  | _ =>
    let f := s.freeCodes (n / 16)
    k (f.1.codesWrite c.unit.who c.mode a f.2 (n / 64 + 1))
/-- The rows to update are known: the command waits for its rows' turns, or is done. -/
def State.updStart (s : State) (c : Cmd) (l : List UpdRow) (dropped : Nat) : State :=
  let s := s.bump (blkGRIND c.g) F.GRIND.GRIND_DROP.COUNT 0 dropped
  let s := { s with upds := s.upds ++ [Upd.mk c.id l] }
  s.updCmd c.id (fun x => { x with dropped := dropped, phase := if l.isEmpty then .ending else .active })
def isScratch (a : Nat) : Bool :=
  match region a with
  | .scratch _ => true
  | _ => false
/-- UPDATE (R220): the checks, then the merge of the gradients. -/
def State.updBegin (s : State) (c : Cmd) (t : Slot) : State :=
  if !updateOk c then s.failCmd c.id 0x50 0
  else if !t.home then s.failCmd c.id 0x55 0
  else if t.opt = 0 then s.failCmd c.id 0x50 0
  else s.engRead c (c.word 6) 64 (fun s pb =>
    let work := bits pb 192 64
    let go (s : State) (nidx : Nat) : State :=
      let need := nidx * (16 + up64 (4 * t.dim))
      if 1048576 < nidx ∨ work % 64 ≠ 0 ∨ isScratch work ∨ bits pb 320 64 % 8 ≠ 0 ∨ bits pb 384 128 ≠ 0 then s.failCmd c.id 0x50 0
      else if bits pb 256 64 < need then s.failCmd c.id 0x54 0
      else s.withIndices c 0 nidx (fun s idx =>
        let dropped := (idx.filter (·.2)).length
        s.scribble c work (need / 64 * 64) (fun s =>
          if c.gform then s.gradsByBag c idx 0 c.count [] (fun s l => s.updStart c l dropped)
          else s.gradsByIndex c idx 0 [] (fun s l => s.updStart c l dropped)))
    if c.gform then s.engRead c (c.word 2 + 4 * c.count) 4 go else go s c.count)
def execUpdate (g : Fin 16) (s : State) : Host.Outcome State Fault Refusal := .next (
  let t := s.grindBegin g.val 2 State.updBegin
  -- an access that has to wait holds the command at the head of the queue
  if t.cmds.any (fun c => c.unit == .grind g.val && c.phase == .active && c.op == 2 && !t.upds.any (fun u => u.cmd == c.id)) then s
  else t)
/-- The optimisers of R222 on a row: its new elements and state. -/
def sgd (m : Rnd) (lr : Nat) (x g : List Nat) : List Nat :=
  (List.range x.length).map (fun e => fma32 m (lr ^^^ 2 ^ 31) (g.getD e 0) (x.getD e 0))
def adagrad (m : Rnd) (lr eps acc : Nat) (x g : List Nat) : List Nat × Nat :=
  let t := g.foldl (fun t v => fma32 m v v t) 0
  let t := div32 m t (natFP32 m x.length)
  let a := add32 m acc t
  let d := div32 m lr (add32 m (sqrt32 m a) eps)
  (sgd m d x g, a)
/-- ADAM on one element: x, m, v. -/
def adam1 (r : Rnd) (lr eps b1 b2 c1 c2 x m v g : Nat) : Nat × Nat × Nat :=
  let k1 := sub32 r 0x3F800000 b1
  let k2 := sub32 r 0x3F800000 b2
  let m := fma32 r k1 g (mul32 r b1 m)
  let v := fma32 r k2 (mul32 r g g) (mul32 r b2 v)
  let u := div32 r (mul32 r m c1) (add32 r (sqrt32 r (mul32 r v c2)) eps)
  (fma32 r (lr ^^^ 2 ^ 31) u x, m, v)
/-- A row's elements and state codewords after one update; `pb` is the parameter block. -/
def optimise (t : Slot) (m : Rnd) (pb : Nat) (x g : List Nat) (st : List Code) : List Nat × List Code :=
  let lr := bits pb 0 32
  let eps := bits pb 32 32
  if t.opt = 1 then (sgd m lr x g, st)
  else if t.opt = 2 then
    let a := adagrad m lr eps (bits ((st.getD 0 ⟨0, false⟩).v) 0 32) x g
    (a.1, ⟨a.2, false⟩ :: List.replicate 3 ⟨0, false⟩)
  else
    let n := up64 (4 * t.dim) / 16
    let ms := rowElems 0 (st.take n)
    let vs := rowElems 0 (st.drop n)
    let l := (List.range t.dim).map (fun e => adam1 m lr eps (bits pb 64 32) (bits pb 96 32) (bits pb 128 32) (bits pb 160 32)
      (x.getD e 0) (ms.getD e 0) (vs.getD e 0) (g.getD e 0))
    (l.map (·.1), packCodes 32 (l.map (·.2.1)) n ++ packCodes 32 (l.map (·.2.2)) n)
/-- An entry with another SCALE. -/
def withScale (e sc : Nat) : Nat := setBits e 64 32 sc
/-- The read-modify-write of one row at entry `e` (R222, R223): the row, then for an INT row its entry. -/
def State.updateRow (s : State) (c : Cmd) (u : UpdRow) (e : Nat) (k : State → State) : State :=
  let t := c.slot
  let fmt := eFmt e
  let a := eLoc e
  let vn := valueSpan t.dim fmt
  let n := rowSpan t fmt
  s.engRead c (c.word 6) 64 (fun s pb =>
    s.rowAccess c a n false (fun w => s.rowAccess c a n true (fun _ =>
      let s := s.spanTouch w a n
      let l := s.viewCodes a n
      if (l.take ((valueBytes t.dim fmt + 15) / 16)).any (·.poison) || (l.drop (vn / 16)).any (·.poison) then s.failCmd c.id 0x07 a
      else
        let x := (decodeRow c.rnd fmt (eScale e) (l.take (vn / 16))).take t.dim
        let o := optimise t c.rnd pb x u.grad (l.drop (vn / 16))
        let enc := s.encodeRow c.g c.rnd fmt (eScale e) o.1
        let s := enc.1.codesWrite w c.mode a (enc.2.2 ++ o.2) (n / 64 + 1)
        let fin (s : State) : State :=
          k ((s.bump (blkGRIND c.g) F.GRIND.ROWS_UPDATED.COUNT).updCmd c.id (fun x => { x with cnt := x.cnt + 1 }))
        if isIntFmt fmt then s.engWrite c (entryAddr t u.row) (leBytes 16 (withScale e enc.2.1)) fin else fin s)))
/-- An UPDATE with no row left ends. -/
def State.updDone (s : State) (id : Nat) : State :=
  if s.upds.any (fun u => u.cmd == id && !u.rows.isEmpty) || s.defers.any (fun d => d.cmd == id) then s
  else
    let s : State := { s with upds := s.upds.filter (fun u => u.cmd != id) }
    s.updCmd id (fun x => if x.phase = CmdPhase.active then { x with phase := .ending } else x)
/-- One row of an update is applied under the entry as it now stands: a FLASH row is not updated (R224), a row without a
tier is dropped, a stale MOVING is counted (R232). -/
def State.applyUpdate (s : State) (c : Cmd) (u : UpdRow) (k : State → State) : State :=
  let gb := blkGRIND c.g
  s.readEntry c c.slot u.row (fun s e =>
    if eTier e = 3 then k ((s.bump gb F.GRIND.GRIND_DROP.COUNT).updCmd c.id (fun x => { x with dropped := x.dropped + 1 }))
    else if s.badEntry c.slot e then s.failCmd c.id 0x51 (entryAddr c.slot u.row)
    else if eTier e = 2 then
      let n := ((s.cmd? c.id).map (·.cold)).getD 0
      let fin (s : State) : State := k ((s.bump gb F.GRIND.UPD_COLD.COUNT).updCmd c.id (fun x => { x with cold := x.cold + 1 }))
      s.engRead c (c.word 6) 64 (fun s pb =>
        let list := bits pb 320 64
        if list = 0 then fin s else s.engWrite c (list + 8 * n) (leBytes 8 u.row) fin)
    else
      let moving := s.moves.any (fun m => m.g == c.g && m.row == u.row && m.slot.dir == c.slot.dir && !m.replace && m.swapped.isNone)
      s.updateRow c u e (fun s => k (if eMoving e && !moving then s.bump gb F.GRIND.STALE_MOVING.COUNT else s)))
/-- UPDATE_ROW: the next row of command `id`, after the same row of earlier commands; a row that migrates is deferred. -/
def State.updStep (s : State) (id : Nat) : State :=
  match s.cmd? id, s.upds.find? (fun u => u.cmd == id) with
  | some c, some up =>
    match up.rows with
    | [] => s
    | u :: rest =>
      let g := c.g
      let same (d : Cmd) : Bool := d.g == g && d.slot.dir == c.slot.dir
      let before := (s.cmds.takeWhile (fun d => d.id != id)).filter (fun d => d.unit == .grind g)
      let held := before.any (fun d => same d && s.upds.any (fun v => v.cmd == d.id && v.rows.any (fun y => y.row == u.row)))
      let mig := s.moves.any (fun m => m.g == g && m.row == u.row && m.slot.dir == c.slot.dir && !m.replace && m.swapped.isNone)
      let late := !mig && s.defers.any (fun d => d.g == g && d.u.row == u.row && d.slot.dir == c.slot.dir)
      if c.phase ≠ .active ∨ !s.grindUp g ∨ held ∨ late ∨ 4096 ≤ (s.defers.filter (fun d => d.g == g)).length then s
      else
        let pop (s : State) : State := { s with upds := s.upds.map (fun v => if v.cmd = id then { v with rows := rest } else v) }
        if mig then (pop { s with defers := s.defers ++ [Defer.mk g id c.slot u] }).updDone id
        else s.applyUpdate c u (fun s => (pop s).updDone id)
  | _, _ => s
def execUpdateRow (id : Nat) (s : State) : Host.Outcome State Fault Refusal := .next (s.updStep id)

/-! ### Moving rows (R226-R232) -/

def Cmd.moveCount (c : Cmd) : Nat := bits (c.word 5) 0 17
def moveOk (c : Cmd) : Bool :=
  c.frameOk && bits (c.word 0) 10 6 == 0 && c.word 1 % 32 == 0 && bits (c.word 1) 49 15 == 0 && c.word 2 == 0 && c.word 3 == 0 &&
    c.word 4 == 0 && bits (c.word 5) 17 47 == 0 && c.word 6 == 0 && decide (1 ≤ c.moveCount) && decide (c.moveCount ≤ 65536)
def State.moveBegin (s : State) (c : Cmd) (t : Slot) : State :=
  if !moveOk c then s.failCmd c.id 0x50 0 else if !t.home then s.failCmd c.id 0x55 0 else s
def execMigrate (g : Fin 16) (s : State) : Host.Outcome State Fault Refusal := .next (s.grindBegin g.val 3 State.moveBegin)
def execReplace (g : Fin 16) (s : State) : Host.Outcome State Fault Refusal := .next (s.grindBegin g.val 4 State.moveBegin)
/-- A record is bad (R226). -/
def State.badRecord (s : State) (c : Cmd) (rec_ : Nat) : Bool :=
  let new := bits rec_ 64 128
  decide (c.slot.rows ≤ bits rec_ 0 64) || eMoving new || (c.op == 3 && (2 ≤ eTier new || bits rec_ 192 64 != 0)) ||
    s.badEntry c.slot new
/-- The old row's value part in the new format: codewords whose places come from poison, its padding included, are poison, the
others are converted (R207, R227). -/
def State.convertRow (s : State) (g : Nat) (m : Rnd) (dim of_ oscale nf nscale : Nat) (l : List Code) : State × Nat × List Code :=
  let xs := (decodeRow m of_ oscale (l.map (fun c => if c.poison then ⟨0, false⟩ else c))).take dim
  let enc := s.encodeRow g m nf nscale xs
  let bad (i : Nat) : Bool := (l.getD (i * elemBits of_ / 128) ⟨0, false⟩).poison
  let per := 128 / elemBits nf
  (enc.1, enc.2.1, (List.range enc.2.2.length).map (fun i =>
    if (List.range per).any (fun j => bad (per * i + j)) then ⟨0, true⟩ else enc.2.2.getD i ⟨0, false⟩))
/-- The new copy of a migration is written and its entry computed. -/
def State.copyRow (s : State) (c : Cmd) (old new r : Nat) (l : List Code) : State :=
  let t := c.slot
  let vo := valueSpan t.dim (eFmt old) / 16
  let x := s.convertRow c.g c.rnd t.dim (eFmt old) (eScale old) (eFmt new) (eScale new) (l.take vo)
  let n := rowSpan t (eFmt new)
  let e := setBits (withScale (setBits new 125 1 0) x.2.1) 110 12 (eVersion old)
  x.1.rowAccess c (eLoc new) n true (fun w =>
    let s := x.1.codesWrite w c.mode (eLoc new) (x.2.2 ++ l.drop vo) (n / 64 + 1)
    let s := { s with moves := s.moves ++ [Move.mk c.g c.id r t e false none] }
    s.updCmd c.id (fun x => { x with next := x.next + 1 }))
/-- A record of MIGRATE begins: MOVING is set, the old span is read and copied. A row with no tier has no contents to
copy: what the new copy holds is open. -/
def State.migrateRow (s : State) (c : Cmd) (r new : Nat) (res : List FlashCw) : State :=
  let t := c.slot
  s.readEntry c t r (fun s old =>
    if s.badEntry t old then s.failCmd c.id 0x51 (entryAddr t r)
    else if eTier old = 2 ∧ s.fmState (handleMgr old) ≤ 1 then s
    else
      let n := rowSpan t (eFmt old)
      let mark (s : State) (k : State → State) : State := s.engWrite c (entryAddr t r) (leBytes 16 (setBits old 125 1 1)) k
      match s.rowWho c.g (eLoc new) with
      | none => s.rowAccess c (eLoc new) 64 true (fun _ => s)
      | some w =>
        if s.spanAdm w (eLoc new) (rowSpan t (eFmt new)) true ≠ .go then
          s.rowAccess c (eLoc new) (rowSpan t (eFmt new)) true (fun _ => s)
        else if eTier old = 3 then
          mark s (fun s =>
            let f := s.freeCodes (n / 16)
            f.1.copyRow c old new r f.2)
        else if eTier old = 2 then
          mark s (fun s =>
            let f := s.flashRead (handleMgr old) (eHandle old) (eOff old) n res
            f.1.copyRow c old new r f.2.1)
        else
          s.rowAccess c (eLoc old) n false (fun w =>
            let s := s.spanTouch w (eLoc old) n
            let l := s.viewCodes (eLoc old) n
            mark s (fun s => s.copyRow c old new r l)))
/-- A record of REPLACE begins: with a source, the new row is copied unchanged. -/
def State.replaceRow (s : State) (c : Cmd) (r new src : Nat) : State :=
  let t := c.slot
  let start (s : State) : State :=
    ({ s with moves := s.moves ++ [Move.mk c.g c.id r t new true none] }).updCmd c.id (fun x => { x with next := x.next + 1 })
  if src = 0 ∨ eTier new = 3 then start s
  else if eTier new = 2 then s.failCmd c.id 0x53 0
  else
    let n := rowSpan t (eFmt new)
    -- a Cave row is read by its owner (R217)
    let who := (s.rowWho c.g src).getD c.unit.who
    match s.spanAdm who src n false with
    | .wait => s
    | .refuse => (s.spanRefuseR who src n).failCmd c.id 0x52 (s.firstRefused who src n false)
    | _ => s.rowAccess c (eLoc new) n true (fun w =>
      let s := s.spanTouch who src n
      start (s.codesWrite w c.mode (eLoc new) (s.viewCodes src n) (n / 64 + 1)))
/-- MOVE_RECORD_BEGIN: the next record of command `id`. -/
def State.moveRecord (s : State) (id : Nat) (res : List FlashCw) : State :=
  match s.cmd? id with
  | none => s
  | some c =>
    let g := c.g
    let open_ := s.moves.filter (fun m => m.g == g && m.swapped.isNone)
    if !c.unit.isGrind ∨ c.phase ≠ .active ∨ (c.op ≠ 3 ∧ c.op ≠ 4) ∨ c.moveCount ≤ c.next ∨ !s.grindUp g ∨ 64 ≤ open_.length then s
    else s.engRead c (c.word 1 + 32 * c.next) 32 (fun s v =>
      let r := bits v 0 64
      if s.badRecord c v then
        if open_.any (fun m => m.cmd == id) then s else s.failCmd id 0x50 0
      else if open_.any (fun m => m.row == r && m.slot.dir == c.slot.dir) then s
      else if c.op = 3 then s.migrateRow c r (bits v 64 128) res
      else s.replaceRow c r (bits v 64 128) (bits v 192 64))
def execMoveRecordBegin (id : Nat) (res : List FlashCw) (s : State) : Host.Outcome State Fault Refusal :=
  .next (s.moveRecord id res)
/-- The first deferred update of row `r` at Grinder `g`. -/
def State.firstDefer (s : State) (g r dir : Nat) : Option Defer := s.defers.find? (fun d => d.g == g && d.u.row == r && d.slot.dir == dir)
/-- The deferred updates of a row are applied in their order of arrival (R228), as far as none of them has to wait; while a
migration of the row is in flight none is. -/
def State.applyDefers (s : State) (g r dir : Nat) : Nat → State
  | 0 => s
  | n + 1 =>
    if s.moves.any (fun m => m.g == g && m.row == r && m.slot.dir == dir && !m.replace && m.swapped.isNone) then s
    else match s.firstDefer g r dir with
      | none => s
      | some d =>
        match s.cmd? d.cmd with
        | none => ({ s with defers := s.defers.erase d }).applyDefers g r dir n
        | some c =>
          let s' := s.applyUpdate c d.u (fun s => ({ s with defers := s.defers.erase d }).updDone d.cmd)
          if s'.defers.length < s.defers.length then s'.applyDefers g r dir n else s'
/-- ROW_SWAP: the new copy is acknowledged; the entry changes in one access. Deferred updates that had to wait go on. -/
def State.rowSwap (s : State) (id r : Nat) : State :=
  match s.moves.find? (fun m => m.cmd == id && m.row == r && m.swapped.isNone), s.cmd? id with
  | some m, some c =>
    if !s.grindUp m.g then s
    else
      let a := entryAddr m.slot r
      let put (s : State) : State :=
        let s := { s with moves := s.moves.map (fun x => if x = m then { x with swapped := some s.now } else x) }
        s.applyDefers m.g r m.slot.dir s.defers.length
      match s.spanAdm (.grind m.g) a 16 true with
      | .wait => s
      | .refuse => ({ s with moves := s.moves.filter (· != m) }).failCmd id 0x53 a
      | _ => put (s.spanWrite (.grind m.g) c.mode a (leBytes 16 m.new))
  | none, some c => if s.grindUp c.g then s.applyDefers c.g r c.slot.dir s.defers.length else s
  | _, none => s
def execRowSwap (id r : Nat) (s : State) : Host.Outcome State Fault Refusal := .next (s.rowSwap id r)
/-- The HORIZON a Grinder publishes (R229). -/
def State.horizonOf (s : State) (g : Nat) : Nat :=
  if s.qUp (g / 4) then ((s.bagsOf g).map (·.began)).foldl min s.now else s.now
/-- The old location of a move is released: its record is complete; the last ends its command. -/
def State.releaseMove (s : State) (m : Move) : State :=
  let s := { s with moves := s.moves.filter (· != m) }
  let s := if m.replace then s else s.bump (blkGRIND m.g) F.GRIND.MIGRATIONS.COUNT
  s.updCmd m.cmd (fun x =>
    let x := { x with cnt := x.cnt + 1 }
    if x.phase = .active ∧ x.cnt = x.moveCount then { x with phase := .ending } else x)
/-- HORIZON_PUBLISH: at every GTC count that is a multiple of 256. -/
def execHorizonPublish (s : State) : Host.Outcome State Fault Refusal :=
  .next (if s.alive ∧ s.now % 256 = 0 then
    let s := (List.range 16).foldl (fun s g => s.fset (blkGRIND g) F.GRIND.HORIZON.GTC (s.horizonOf g)) s
    let h := (List.range 16).map (fun g => s.horizonOf g)
    (s.moves.filter (fun m => s.qUp (m.g / 4) && match m.swapped with
      | some t => h.all (fun x => decide (t < x))
      | none => false)).foldl State.releaseMove s
  else s)

/-! ### Statistics (R235) and completion (R211) -/

/-- The snapshot's bytes, and the units that are in it. -/
def State.snapshot (s : State) (g slot : Nat) : List Byte × List Nat :=
  let b := blkGRIND g
  let units := (List.range 16).filter (fun u => s.fbit b F.GRIND.SK_CTL.ENABLE (8 * u) && s.fget b F.GRIND.SK_CTL.TABLE (8 * u) == slot)
  ((List.range 1024).flatMap (fun i => leBytes 8 (Sparse.get 0 s.shards (1024 * (32 * g + slot) + i))) ++
    units.flatMap (fun u => leBytes 8 u ++ leBytes 8 (s.fget b F.GRIND.SK_CTL.SHARD (8 * u)) ++
      leBytes 8 (Sparse.get 0 s.sketchN (16 * g + u)) ++ List.replicate 40 0 ++
      (List.range 16384).flatMap (fun i => leBytes 4 (Sparse.get 0 s.sketch (sketchKey g u i)))), units)
def snapshotOk (c : Cmd) : Bool :=
  c.frameOk && bits (c.word 0) 11 5 == 0 && c.word 1 % 64 == 0 && bits (c.word 1) 49 15 == 0 && c.word 2 == 0 && c.word 3 == 0 &&
    c.word 4 == 0 && c.word 5 == 0 && c.word 6 == 0
def State.snapBegin (s : State) (c : Cmd) (_ : Slot) : State :=
  if !snapshotOk c then s.failCmd c.id 0x50 0
  else
    let x := s.snapshot c.g c.slotNo
    match s.spanAdm c.unit.who (c.word 1) x.1.length true with
    | .wait => s.updCmd c.id (fun y => { y with phase := .queued })
    | .refuse => (s.spanRefuseW c.unit.who c.mode (c.word 1) x.1).failCmd c.id 0x53 (s.firstRefused c.unit.who (c.word 1) x.1.length true)
    | _ =>
      let s := s.spanWrite c.unit.who c.mode (c.word 1) x.1
      let k := 1024 * (32 * c.g + c.slotNo)
      let s := if bit (c.word 0) 10 then
          x.2.foldl (fun s u => s.clearUnit c.g u) { s with shards := Sparse.clearRange s.shards k (k + 1024) }
        else s
      s.updCmd c.id (fun y => { y with cnt := x.1.length, phase := .ending })
def execSnapshot (g : Fin 16) (s : State) : Host.Outcome State Fault Refusal := .next (s.grindBegin g.val 5 State.snapBegin)
/-- GRIND_COMPLETE. -/
def execGrindComplete (id : Nat) (s : State) : Host.Outcome State Fault Refusal :=
  .next (match s.cmd? id with
    | some c => if c.unit.isGrind then s.finishCmd id else s
    | none => s)

end Sys2Proof.Machine
end

