-- ==== Sys2Proof/Machine/Talien.lean ====
section
/-! DEFINITION. Talien (R316-R331, R345-R348): frames, retry and credits, bring-up and lane repair, messages and routes,
the global time counter, aliases. -/

namespace Sys2Proof.Machine

def State.tport (s : State) (t : Nat) : TPort := Sparse.get TPort.init s.tports t
def State.setTport (s : State) (t : Nat) (x : TPort) : State := { s with tports := Sparse.put TPort.init s.tports t x }
/-- PORT_STATUS.STATE: 0 DOWN, 1 TRAINING, 2 UP, 3 RECOVERY, 4 FAILED. -/
def State.tlState (s : State) (t : Nat) : Nat := s.fget (blkTL t) F.TL.PORT_STATUS.STATE
def State.setTl (s : State) (t st : Nat) : State := s.fset (blkTL t) F.TL.PORT_STATUS.STATE st
def tlHub (t : Nat) : Nat := t / 9
def State.devNum (s : State) : Nat := s.fget blkGTC F.GTC.DEV_NUM.NUM

def State.perc (s : State) (h : Nat) : Perc := Sparse.get Perc.init s.percs h
def State.setPerc (s : State) (h : Nat) (x : Perc) : State := { s with percs := Sparse.put Perc.init s.percs h x }
/-- The Percolator's pass or request has made progress (R272). -/
def State.percProg (s : State) (h : Nat) : State := s.setPerc h { s.perc h with progAt := s.clk.arith }

/-! ### Numbers, routes, messages (R319-R322, R346) -/

def State.aliasOk (s : State) (i : Nat) : Bool :=
  s.fbit blkGTC F.GTC.ALIAS.VALID (8 * i) && !s.fbit blkGTC F.GTC.ALIAS.FENCED (8 * i)
/-- The numbers the device answers to, its own first. -/
def State.numbers (s : State) : List Nat :=
  (if s.devNum = 0xFFFF ∨ s.fbit blkGTC F.GTC.FENCE.FENCED then [] else [s.devNum]) ++
    ((List.range 8).filter s.aliasOk).map (fun i => s.fget blkGTC F.GTC.ALIAS.NUM (8 * i))
def State.route (s : State) (dst : Nat) : Route := Sparse.get Route.init s.routes dst
def Route.list (r : Route) : List Nat := (List.range 18).filter (fun t => bit r.ports t)
/-- The port on which a hub's next message to `dst` leaves, and the state with the message counted; none without a valid
route. -/
def State.pickPort (s : State) (hub dst : Nat) : Option (Nat × State) :=
  let r := s.route dst
  let l := r.list
  if !r.valid || l.isEmpty then none
  else
    let k := hub * 65536 + dst
    let n := Sparse.get 0 s.routeN k
    some (l.getD (n % l.length) 0, { s with routeN := Sparse.put 0 s.routeN k (n + 1) })
/-- The port still takes messages. -/
def State.tlTakes (s : State) (t : Nat) : Bool := s.tlState t == 2 || s.tlState t == 3
/-- Blocks of a message queue for port `t`. -/
def State.txBlocks (s : State) (t vc : Nat) (l : List WireBlk) : State :=
  let x := s.tport t
  s.setTport t { x with tx := x.tx ++ l.map (fun b => (vc, b)) }
/-- Message headers (Table 14.4); bytes 8 to 63 have no layout in the spec. -/
def hdrDst (h : Nat) : Nat := bits h 0 16
def hdrSrc (h : Nat) : Nat := bits h 16 16
def hdrKind (h : Nat) : Nat := bits h 32 8
def hdrHops (h : Nat) : Nat := bits h 40 8
def hdrNblk (h : Nat) : Nat := bits h 48 16
def State.header (s : State) (dst src kind n : Nat) : State × Nat :=
  let r := s.freeCodes 4
  (r.1, dst + src * 2 ^ 16 + kind * 2 ^ 32 + n * 2 ^ 48 +
    ((List.range 4).foldl (fun v i => v + (r.2.getD i ⟨0, false⟩).v * 2 ^ (128 * i)) 0) / 2 ^ 64 * 2 ^ 64)
/-- The payload blocks of a list of codewords; an uncorrectable codeword goes with its POISON bit (R318). -/
def blksOf (l : List Code) : List WireBlk :=
  (List.range ((l.length + 3) / 4)).map (fun i =>
    let c (w : Nat) : Code := l.getD (4 * i + w) ⟨0, false⟩
    ⟨false, (List.range 4).foldl (fun v w => v + (c w).v * 2 ^ (128 * w)) 0,
     (List.range 4).foldl (fun v w => if (c w).poison then v + 2 ^ w else v) 0, .none⟩)
/-- The codewords of payload blocks as they enter the device. -/
def codesOf (l : List WireBlk) : List Code :=
  l.flatMap (fun b => (List.range 4).map (fun w => ⟨if bit b.poison w then 0 else bits b.data (128 * w) 128, bit b.poison w⟩))
/-- A message on a given port. -/
def State.sendOn (s : State) (t vc dst src kind : Nat) (i : MsgInfo) (l : List WireBlk) : State :=
  let h := s.header dst src kind l.length
  h.1.txBlocks t vc (⟨true, h.2, 0, i⟩ :: l)
/-- One discarded message. -/
def State.routeDrop (s : State) (dst : Nat) : State :=
  (s.bump blkGTC F.GTC.ROUTE_DROPS.COUNT).fset blkGTC F.GTC.ROUTE_DROPS.LAST_DST dst
/-- A unit's message to a device; none where no valid route leads there. -/
def State.wireMsg (s : State) (hub vc dst src kind : Nat) (i : MsgInfo) (l : List WireBlk) : Option State :=
  (s.pickPort hub dst).map (fun p =>
    if p.2.tlTakes p.1 then p.2.sendOn p.1 vc dst src kind i l else p.2.routeDrop dst)
/-- A message for another device goes on (R321). -/
def State.forward (s : State) (hub vc h : Nat) (i : MsgInfo) (l : List WireBlk) : State :=
  let dst := hdrDst h
  let hops := hdrHops h + 1
  if 32 ≤ hops then s.routeDrop dst
  else match s.pickPort hub dst with
    | none => s.routeDrop dst
    | some (t, s) =>
      if s.tlTakes t then s.txBlocks t vc (⟨true, setBits h 40 8 hops, 0, i⟩ :: l) else s.routeDrop dst
/-- The message at the head of a VC of port `t`, once it is whole. -/
def TPort.head (x : TPort) (vc : Nat) : Option (Nat × MsgInfo × List WireBlk) :=
  let l := (x.rx.filter (fun b => b.1 == vc)).map (fun (b : Nat × WireBlk) => b.2)
  match l with
  | [] => none
  | h :: l =>
    let n := hdrNblk h.data
    if h.som && decide (n ≤ l.length) then some (h.data, h.info, l.take n) else none
/-- The first `n` blocks of VC `vc`, and the rest. -/
def splitVc (vc : Nat) : Nat → List (Nat × WireBlk) → List (Nat × WireBlk) × List (Nat × WireBlk)
  | _, [] => ([], [])
  | n, b :: l =>
    if n ≠ 0 ∧ b.1 = vc then
      let r := splitVc vc (n - 1) l
      (b :: r.1, r.2)
    else
      let r := splitVc vc n l
      (r.1, b :: r.2)
def addAt (v : Vector Nat 3) (i n : Nat) : Vector Nat 3 := Vector.ofFn (fun j => if j.val = i then v[j] + n else v[j])
/-- `n` blocks leave the receive buffer; their credits are owed. -/
def State.takeRx (s : State) (t vc n : Nat) : State :=
  let x := s.tport t
  s.setTport t { x with rx := (splitVc vc n x.rx).2, freed := addAt x.freed vc n }
/-- The form of what a header carries. -/
def msgForm (i : MsgInfo) : Nat :=
  match i with
  | .none => 0
  | .seg .. => 1
  | .coll .. => 2
  | .coAbort .. => 3
  | .kvReq .. => 4
  | .kvData .. => 5
  | .kvAck .. => 6
/-- A header that a command with the fields of `m` stands for: one with these fields, or one without such fields, which its
command discards. -/
def msgFor (m i : MsgInfo) : Bool := i == m || msgForm i != msgForm m
/-- An acknowledgement's tag. -/
def ackTag (i : MsgInfo) : Nat :=
  match i with
  | .kvAck _ tag => tag
  | _ => 0
/-- The same of a COLL_READY, by its channel, number, COUNT and layout. -/
def readyFor (chan seq count layout : Nat) (i : MsgInfo) : Bool :=
  match i with
  | .coll hd => hd.gid == chan && hd.seq == seq && hd.count == count && hd.layout == layout
  | _ => true
/-- The message of kind `kind` at the head of VC `vc` of port `t`, if the command names it (`named`): for another device it
goes on, for this one `body` takes it, or leaves it where it is. A message of a reserved kind is discarded. -/
def State.message (s : State) (t vc kind : Nat) (named : MsgInfo → Bool) (body : State → Nat → MsgInfo → List WireBlk → Option State) : State :=
  if !s.alive || !s.tlTakes t then s
  else match (s.tport t).head vc with
    | none => s
    | some (h, i, l) =>
      let out := s.takeRx t vc (l.length + 1)
      let mine := hdrDst h == 0xFFFF || s.numbers.contains (hdrDst h)
      if hdrKind h = 0 ∨ 7 < hdrKind h then (if mine then out else out.forward (tlHub t) vc h i l)
      else if hdrKind h ≠ kind ∨ !named i then s
      else if mine then (body out h i l).getD s
      else out.forward (tlHub t) vc h i l

/-! ### Controls -/

def State.sendCtl (s : State) (t kind data : Nat) : State :=
  let x := s.tport t
  s.setTport t { x with ctlOut := x.ctlOut ++ [(kind, data)] }
/-- The first control of a kind that port `t` has received, and the state without it. -/
def State.takeCtl (s : State) (t kind : Nat) : Option (Ctrl × State) :=
  let x := s.tport t
  (x.ctrls.find? (fun c => c.kind == kind)).map (fun c => (c, s.setTport t { x with ctrls := x.ctrls.erase c }))
/-- A control takes effect. -/
def State.control (s : State) (t kind : Nat) (body : State → Ctrl → State) : State :=
  if !s.alive then s
  else match s.takeCtl t kind with
    | some (c, s) => body s c
    | none => s

/-! ### Rings (R258, R271) -/

/-- RING_STATUS.STATE: 0 DOWN, 1 HANDSHAKE, 2 READY, 3 FAULTED. -/
def State.ringSt (s : State) (h : Nat) : Nat := s.fget (blkPERC h) F.PERC.RING_STATUS.STATE
def State.setRingSt (s : State) (h st cause : Nat) : State :=
  (s.fset (blkPERC h) F.PERC.RING_STATUS.STATE st).fset (blkPERC h) F.PERC.RING_STATUS.CAUSE cause
def State.ringN (s : State) (h : Nat) : Nat := s.fget (blkPERC h) F.PERC.RING_CTL.N
def State.ringPos (s : State) (h : Nat) : Nat := s.fget (blkPERC h) F.PERC.RING_CTL.POS
def State.passSeq (s : State) (h : Nat) : Nat := s.fget (blkPERC h) F.PERC.RING_STATUS.PASS_SEQ
/-- The ports of a mask, of the hub's nine, as device ports. -/
def maskPorts (h m : Nat) : List Nat := ((List.range 9).filter (fun i => bit m i)).map (9 * h + ·)
def State.sendPorts (s : State) (h : Nat) : List Nat := maskPorts h (s.fget (blkPERC h) F.PERC.RING_PORTS.SEND)
def State.recvPorts (s : State) (h : Nat) : List Nat := maskPorts h (s.fget (blkPERC h) F.PERC.RING_PORTS.RECV)

/-! ### The end of a pass before its time (R271) -/

/-- The ring pass in progress. -/
def State.ringPass (s : State) (h : Nat) : Option Cmd :=
  s.cmds.find? (fun c => c.unit == .perc h && c.phase == .active && (c.op == 1 || c.op == 2))
/-- Segments of a pass that have not begun to leave are taken back. -/
def dropSegs : Bool → List (Nat × WireBlk) → List (Nat × WireBlk)
  | _, [] => []
  | d, b :: l =>
    if b.1 ≠ 0 then b :: dropSegs d l
    else
      let d := if b.2.som then hdrKind b.2.data == 1 else d
      if d then dropSegs d l else b :: dropSegs d l
/-- Pass `seq` has ended early: its segments and staging go, abort frames leave, the ring is FAULTED. -/
def State.tearRing (s : State) (h seq code : Nat) (abort : Bool) : State :=
  let s := (s.sendPorts h).foldl (fun s t =>
    let x := s.tport t
    let s := s.setTport t { x with tx := dropSegs false x.tx }
    if abort && s.tlTakes t then s.sendCtl t 8 (seq * 256) else s) s
  let x := s.perc h
  let s := s.setPerc h { x with staged := x.staged.filter (fun g => g.seq != seq), k := 0, segs := [], asked := false, granted := false, sigs := 0 }
  if s.ringSt h = 0 then s
  else s.setRingSt h 3 (if code = 0x77 then 3 else if code = 0x75 then 4 else if code = 0x78 then 2 else 5)
/-- A ring pass ends with a fault: the command's, and at once the ring's. -/
def State.endPass (s : State) (h : Nat) (c : Cmd) (code : Nat) (addr : Nat := 0) : State :=
  ((s.failCmd c.id code addr).updCmd c.id (fun c => { c with next := 1 })).tearRing h c.dropped code true

/-! ### Ports that fail or go down (R325, R326) -/

/-- An operation uses a port: a route to one of its members names it. -/
def State.opUses (s : State) (o : CoOp) (t : Nat) : Bool := o.mem.any (fun d => d != o.self && bit (s.route d).ports t)
/-- A port has gone down: the pass and the operations that use it end; a ring still in its handshake is FAULTED. -/
def State.portLost (s : State) (t : Nat) : State :=
  let h := tlHub t
  let inRing := (s.sendPorts h ++ s.recvPorts h).contains t
  let s := if inRing && s.ringSt h == 1 then s.setRingSt h 3 3 else s
  let s := match s.ringPass h with
    | some c => if inRing then s.endPass h c 0x77 else s
    | none => s
  let ops := (Sparse.get Coll.init s.colls h).ops.filter (fun o => s.opUses o t)
  (ops.filter (fun o => (s.cmd? o.cmd).any (fun c => c.phase == .active))).foldl (fun s o => s.failCmd o.cmd 0x87) s
/-- The port becomes FAILED. -/
def State.failPort (s : State) (t cause : Nat) : State :=
  let b := blkTL t
  let s := ((s.setTl t 4).fset b F.TL.PORT_STATUS.CAUSE cause).setTport t TPort.init
  (s.report 2 0xA5 b 0 0 0 0 cause).portLost t
/-- The port returns to DOWN. -/
def State.downPort (s : State) (t : Nat) : State :=
  let b := blkTL t
  let s := (((s.setTl t 0).fset b F.TL.PORT_STATUS.CAUSE 0).fset b F.TL.PORT_STATUS.SPARE_USED 0).setTport t TPort.init
  s.portLost t
/-- TALIEN_ENABLE (R326). -/
def State.talienEnableDo (s : State) (t : Fin 18) : State :=
  let b := blkTL t.val
  (if s.fbit b F.TL.PORT_CTL.ENABLE then s
    else if s.devNum = 0xFFFF then s.fset b F.TL.PORT_STATUS.CFG_REJECT 1
    else ((s.fset b F.TL.PORT_CTL.ENABLE 1).setTl t.val 1).setTport t.val TPort.init)
def execTalienEnable (t : Fin 18) (s : State) : Host.Outcome State Fault Refusal := 
  .next (if s.regsOn then s.talienEnableDo t else s)
/-- TALIEN_DISABLE. -/
def State.talienDisableDo (s : State) (t : Fin 18) : State :=
  let b := blkTL t.val
  (if s.fbit b F.TL.PORT_CTL.ENABLE then (s.fset b F.TL.PORT_CTL.ENABLE 0).downPort t.val else s)
def execTalienDisable (t : Fin 18) (s : State) : Host.Outcome State Fault Refusal := 
  .next (if s.regsOn then s.talienDisableDo t else s)
/-- The HELLO that a port sends: its number, its port; the form of its lane map is open. -/
def State.helloData (s : State) (t : Nat) : State × Nat :=
  let r := s.fresh
  (r.2, s.devNum + t * 2 ^ 16 + (r.1.toNat % 256) * 2 ^ 24)
/-- TALIEN_TRAINING_DONE: `pass` names the lanes that passed PRBS31; a port without a partner stays in training. -/
def execTalienTrainingDone (t : Fin 18) (partner : Bool) (pass : BitVec 9) (s : State) : Host.Outcome State Fault Refusal :=
  let b := blkTL t.val
  let bad := (List.range 9).filter (fun i => !pass.getLsbD i)
  .next (if !s.alive || s.tlState t.val != 1 || (s.tport t.val).hello || !partner then s
    else if 2 ≤ bad.length then s.failPort t.val 1
    else
      let s := s.setTport t.val { s.tport t.val with shift := !bad.isEmpty }
      let s := match bad with
        | l :: _ => (s.fset b F.TL.PORT_STATUS.SPARE_USED 1).fset b F.TL.PORT_STATUS.SPARE_FOR l
        | [] => (s.fset b F.TL.PORT_STATUS.SPARE_USED 0).fset b F.TL.PORT_STATUS.SPARE_FOR 0
      let h := s.helloData t.val
      (h.1.setTport t.val { h.1.tport t.val with hello := true }).sendCtl t.val 1 h.2)
/-- TRAINING_RETRY: without a partner the port trains again. -/
def execTrainingRetry (t : Fin 18) (s : State) : Host.Outcome State Fault Refusal :=
  .next (if s.alive && s.tlState t.val == 1 && !(s.tport t.val).hello then s.setTport t.val TPort.init else s)
/-- HELLO. -/
def execHello (t : Fin 18) (s : State) : Host.Outcome State Fault Refusal :=
  .next (s.control t.val 1 (fun s c =>
    if s.tlState t.val ≠ 1 then s
    else if bits c.data 0 16 = s.devNum then s.failPort t.val 2
    else
      let h := s.helloData t.val
      h.1.sendCtl t.val 2 h.2))
/-- HELLO_ACK: the port enters UP. -/
def execHelloAck (t : Fin 18) (s : State) : Host.Outcome State Fault Refusal :=
  let b := blkTL t.val
  .next (s.control t.val 2 (fun s c =>
    if s.tlState t.val ≠ 1 then s
    else if bits c.data 0 16 = s.devNum then s.failPort t.val 2
    else ((s.setTl t.val 2).fset b F.TL.PEER.DEV (bits c.data 0 16)).fset b F.TL.PEER.PORT (bits c.data 16 5)))

/-! ### Frames (R317, R323, R324) -/

/-- Frames pass on the port: it is UP, or exchanging HELLOs. -/
def State.framing (s : State) (t : Nat) : Bool :=
  s.alive && (s.tlState t == 2 || (s.tlState t == 1 && (s.tport t).hello))
/-- The retry buffer is sent again from its first frame. -/
def State.startReplay (s : State) (t : Nat) (nakAt : Option Nat) : State :=
  let x := s.tport t
  if x.retry.isEmpty then s
  else (s.setTport t { x with replay := x.retry.length, nakAt := nakAt, tries := x.tries + 1, ackAt := s.clk.arith }).bump
    (blkTL t) F.TL.REPLAYS.COUNT
/-- An ACK: every frame up to it leaves the retry buffer. -/
def TPort.acked (x : TPort) (ack now : Nat) : TPort :=
  match x.retry with
  | [] => x
  | f :: _ =>
    let n := (ack + 65537 - f.fseq) % 65536
    if n = 0 ∨ x.retry.length < n then x
    else { x with retry := x.retry.drop n, replay := min x.replay (x.retry.length - n), tries := 0, ackAt := now }
/-- The positions of a frame's errors in codeword `c`: byte j belongs to codeword j mod 8 (R317). -/
def errsIn (f : WireFrame) (c : Nat) : List Nat := f.errs.filter (fun j => j % 8 == c)
/-- FEC corrects a codeword with at most 8 byte errors. -/
def fecFixes (f : WireFrame) (c : Nat) : Bool := decide ((errsIn f c).length ≤ 8)
/-- FEC corrects the frame fully, and its CRC matches (R324). -/
def frameWhole (f : WireFrame) : Bool := f.good && (List.range 8).all (fecFixes f)
/-- The bytes that FEC corrects. -/
def fecFixed (f : WireFrame) : List Nat := ((List.range 8).filter (fecFixes f)).flatMap (errsIn f)
/-- The physical lane of byte `j` of a frame (R317, R326): logical lane (j div 8) mod 8, carried by the lane of its number, but where
the spare has taken a lane's place. -/
def State.laneOf (s : State) (t j : Nat) : Nat :=
  let lg := j / 8 % 8
  let l := s.fget (blkTL t) F.TL.PORT_STATUS.SPARE_FOR
  if !s.fbit (blkTL t) F.TL.PORT_STATUS.SPARE_USED then lg
  else if (s.tport t).shift then (if lg < l then lg else lg + 1)
  else if lg = l then 8 else lg
/-- FRAME_RECEIVED: `eighth`, the eighth of a tick at which it arrived. -/
def State.frameIn (s : State) (t : Nat) (f : WireFrame) (eighth : Nat) : State :=
  if !s.framing t then s
  else
    let b := blkTL t
    let n (l : Nat) : Nat := ((fecFixed f).filter (fun j => s.laneOf t j == l)).length
    let hits := (List.range 9).map n
    let s := s.bump b F.TL.FEC_CORRECTED.COUNT 0 (fecFixed f).length
    let s := (List.range 9).foldl (fun s l =>
      if hits.getD l 0 = 0 then s else s.bump b F.TL.LANE_CE.COUNT (8 * l) (hits.getD l 0)) s
    let x := s.tport t
    let x := { x with lanes := (List.range 9).map (fun l => x.lanes.getD l 0 + hits.getD l 0), frames := x.frames + 1 }
    if !frameWhole f || f.fseq != x.expect then (s.setTport t { x with nak := true }).bump b F.TL.FRAMES_BAD.COUNT
    else
      let x := { x with expect := (x.expect + 1) % 65536, nak := false,
                        rx := x.rx ++ f.blks.filter (fun (e : Nat × WireBlk) => decide (e.1 < 3)),
                        credit := Vector.ofFn (fun i => x.credit[i] + f.credits.getD i.val 0) }
      let x := x.acked f.ack s.clk.arith
      let known := 1 ≤ f.ctrl && f.ctrl ≤ 9
      let x := if known then { x with ctrls := x.ctrls ++ [Ctrl.mk f.ctrl f.cdata s.now eighth] } else x
      let s := (s.setTport t x).bump b F.TL.RX_BYTES.COUNT 0 (64 * (f.blks.filter (fun (e : Nat × WireBlk) => decide (e.1 < 3))).length)
      let s := if f.ctrl = 0 ∨ known then s else s.bump b F.TL.FRAMES_BAD.COUNT
      if f.nak && x.nakAt != some f.ack then s.startReplay t (some f.ack) else s
def execFrameReceived (t : Fin 18) (f : WireFrame) (eighth : Fin 8) (s : State) : Host.Outcome State Fault Refusal :=
  .next (s.frameIn t.val f eighth.val)
/-- The data of a control as it leaves, with its times. -/
def stampCtl (kind data now eighth : Nat) : Nat :=
  if kind = 3 then setBits (setBits data 0 64 now) 72 8 eighth
  else if kind = 4 ∨ kind = 5 then setBits (setBits data 0 64 now) 128 8 eighth
  else data
/-- The blocks of VC `vc` that one frame may carry, of `n`, and the rest: after a header the payload comes in later frames
(R320). -/
def cutVc (vc : Nat) : Nat → List (Nat × WireBlk) → List (Nat × WireBlk) × List (Nat × WireBlk)
  | _, [] => ([], [])
  | n, b :: l =>
    if n ≠ 0 ∧ b.1 = vc then
      let r := cutVc vc (if b.2.som && hdrNblk b.2.data != 0 then 0 else n - 1) l
      (b :: r.1, r.2)
    else
      let r := cutVc vc n l
      (r.1, b :: r.2)
/-- The blocks that the next frame carries: at most 25, of each VC no more than its credits, the VCs in the order given. -/
def fillFrame : List Nat → Nat → Vector Nat 3 → List (Nat × WireBlk) →
    List (Nat × WireBlk) × List (Nat × WireBlk) × Vector Nat 3
  | [], _, cr, tx => ([], tx, cr)
  | v :: l, room, cr, tx =>
    let m := min room (if h : v < 3 then cr[v] else 0)
    let r := cutVc v m tx
    let n := r.1.length
    let q := fillFrame l (room - n) (Vector.ofFn (fun j => if j.val = v then cr[j] - n else cr[j])) r.2
    (r.1 ++ q.1, q.2)
/-- Segments whose headers leave in a frame are sent: counted, and progress of their pass (R272, R277). -/
def State.segsLeft (s : State) (t : Nat) (l : List (Nat × WireBlk)) : State :=
  l.foldl (fun s b => match b.2.info with
    | .seg _ _ _ _ _ => (s.bump (blkPERC (tlHub t)) F.PERC.BYTES_SENT.BYTES 0 (64 * hdrNblk b.2.data)).percProg (tlHub t)
    | _ => s) s
/-- FRAME_TRANSMIT: the next frame of port `t`; which VC comes first is open. -/
def State.frameOut (s : State) (t eighth : Nat) : State :=
  if !s.framing t then s
  else
    let b := blkTL t
    let x := s.tport t
    let ack := (x.expect + 65535) % 65536
    if x.replay ≠ 0 then
      let f := x.retry.getD (x.retry.length - x.replay) ⟨true, [], 0, 0, false, [], 0, 0, []⟩
      s.setTport t { x with replay := x.replay - 1, nakAt := if x.replay = 1 then none else x.nakAt,
                            out := some { f with ack := ack, nak := x.nak } }
    else if 512 ≤ x.retry.length then
      s.setTport t { x with out := some ⟨true, [], (x.seq + 65535) % 65536, ack, x.nak, [], 0, 0, []⟩ }
    else
      let r := s.fresh
      let v := r.1.toNat % 3
      let fill := fillFrame [v, (v + 1) % 3, (v + 2) % 3] 25 x.credit x.tx
      let stalled := fill.2.1.any (fun (e : Nat × WireBlk) => fill.2.2.toList.getD e.1 1 == 0)
      let c := x.ctlOut.head?.getD (0, 0)
      let f : WireFrame := ⟨true, [], x.seq, ack, x.nak, x.freed.toList, c.1, stampCtl c.1 c.2 s.now eighth, fill.1⟩
      let s := r.2.setTport t { x with tx := fill.2.1, credit := fill.2.2, ctlOut := x.ctlOut.drop 1,
                                       freed := Vector.replicate 3 0, seq := (x.seq + 1) % 65536, retry := x.retry ++ [f],
                                       ackAt := if x.retry.isEmpty then s.clk.arith else x.ackAt, out := some f }
      let s := if c.1 = 4 then { s with gtc := { s.gtc with reqAt := some (8 * s.now + eighth) } } else s
      let s := if stalled then s.bump b F.TL.CREDIT_STALLS.COUNT else s
      (s.bump b F.TL.TX_BYTES.COUNT 0 (64 * fill.1.length)).segsLeft t fill.1
def execFrameTransmit (t : Fin 18) (eighth : Fin 8) (s : State) : Host.Outcome State Fault Refusal :=
  .next (s.frameOut t.val eighth.val)
/-- REPLAY_TIMEOUT: ACK has not advanced for 16 µs. -/
def execReplayTimeout (t : Fin 18) (s : State) : Host.Outcome State Fault Refusal :=
  let x := s.tport t.val
  .next (if s.framing t.val ∧ !x.retry.isEmpty ∧ x.ackAt + 22400 ≤ s.clk.arith then s.startReplay t.val x.nakAt else s)

/-! ### Recovery and lanes (R325, R327) -/

/-- The port enters RECOVERY; a fourth within 1 s of the first of the three before it fails the port. -/
def State.enterRecovery (s : State) (t : Nat) : State :=
  let x := s.tport t
  let s := s.bump (blkTL t) F.TL.RECOVERIES.COUNT
  let early := x.recovs.length == 3 && decide (s.clk.arith < x.recovs.getD 0 0 + 1400000000)
  if early then s.failPort t 3
  else (s.setTl t 3).setTport t { x with recovs := (x.recovs ++ [s.clk.arith]).drop (x.recovs.length - 2), lockLost := false, tries := 0 }
/-- RECOVERY_ENTRY: eight replays of one frame, or a lane's lock lost with no spare. -/
def execRecoveryEntry (t : Fin 18) (s : State) : Host.Outcome State Fault Refusal :=
  let x := s.tport t.val
  .next (if s.alive ∧ s.tlState t.val = 2 ∧ (8 ≤ x.tries ∨ x.lockLost) then s.enterRecovery t.val else s)
/-- RECOVERY_DONE: the lanes are retrained, or the recovery fails. -/
def execRecoveryDone (t : Fin 18) (ok : Bool) (s : State) : Host.Outcome State Fault Refusal :=
  .next (if !s.alive || s.tlState t.val != 3 then s
    else if ok then (s.setTl t.val 2).startReplay t.val none else s.failPort t.val 3)
/-- Lane `l` is to be replaced: by the spare, on the partner's agreement, else by a recovery. The FSEQ of the switch is
open. -/
def State.replaceLane (s : State) (t l : Nat) : State :=
  let b := blkTL t
  let s := s.report 0 0xA2 b 0 0 0 0 (l + 256 * t)
  let x := s.tport t
  if s.fbit b F.TL.PORT_STATUS.SPARE_USED then s.setTport t { x with lockLost := true }
  else if x.repair.isSome then s
  else
    let r := s.fresh
    (r.2.setTport t { x with repair := some l }).sendCtl t 6 (l + (r.1.toNat % 65536) * 256)
/-- LANE_LOCK_LOST. -/
def execLaneLockLost (t : Fin 18) (l : Fin 9) (s : State) : Host.Outcome State Fault Refusal :=
  .next (if s.alive ∧ s.tlState t.val = 2 then s.replaceLane t.val l.val else s)
/-- LANE_WINDOW: 2^20 frames have been counted; a lane above the limit is replaced. -/
def execLaneWindow (t : Fin 18) (s : State) : Host.Outcome State Fault Refusal :=
  let x := s.tport t.val
  let b := blkTL t.val
  .next (if s.alive ∧ s.tlState t.val = 2 ∧ 1048576 ≤ x.frames then
    let lim := s.fget b F.TL.PORT_CTL.LANE_LIMIT
    let s := s.setTport t.val { x with lanes := [], frames := 0 }
    match (List.range 9).find? (fun l => decide (lim < x.lanes.getD l 0)) with
    | some l => s.replaceLane t.val l
    | none => s
  else s)
/-- REPAIR_REQ: the partner's receiver asks for the spare. -/
def execRepairReq (t : Fin 18) (s : State) : Host.Outcome State Fault Refusal :=
  .next (s.control t.val 6 (fun s c =>
    (s.setTport t.val { s.tport t.val with txSpare := some (bits c.data 0 8) }).sendCtl t.val 7 c.data))
/-- REPAIR_ACK: the spare carries the lane. -/
def execRepairAck (t : Fin 18) (s : State) : Host.Outcome State Fault Refusal :=
  let b := blkTL t.val
  .next (s.control t.val 7 (fun s _ =>
    let x := s.tport t.val
    match x.repair with
    | some l =>
      let s := s.setTport t.val { x with repair := none }
      (((s.fset b F.TL.PORT_STATUS.SPARE_USED 1).fset b F.TL.PORT_STATUS.SPARE_FOR l).bump b F.TL.REPAIRS.COUNT).report 0 0xA3 b
        0 0 0 0 (l + 256 * t.val)
    | none => s))

/-! ### The global time counter (R328-R330) -/

def State.gtcMode (s : State) : Nat := s.fget blkGTC F.GTC.GTC_CTL.MODE
def State.setGtc (s : State) (g : GtcSt) : State := { s with gtc := g }
/-- A sync goes out at `level` on every UP port of SYNC_OUT. -/
def State.sendSyncs (s : State) (level : Nat) : State :=
  let m := s.fget blkGTC F.GTC.GTC_CTL.SYNC_OUT
  (List.range 18).foldl (fun s t => if bit m t && s.tlState t == 2 then s.sendCtl t 3 (level * 2 ^ 64) else s) s
/-- GTC_SYNC_SEND: every 4,096 ticks, a master and a locked follower below level 16. -/
def execGtcSyncSend (s : State) : Host.Outcome State Fault Refusal :=
  let lv := s.fget blkGTC F.GTC.GTC_STATUS.LEVEL
  .next (if !s.alive || s.gtc.count % 4096 != 0 || s.gtc.sentAt == s.gtc.count + 1 then s
    else if s.gtcMode = 1 then (s.setGtc { s.gtc with sentAt := s.gtc.count + 1 }).sendSyncs 0
    else if s.gtcMode = 2 ∧ s.fbit blkGTC F.GTC.GTC_STATUS.LOCKED ∧ lv < 16 then
      (s.setGtc { s.gtc with sentAt := s.gtc.count + 1 }).sendSyncs (lv + 1)
    else s)
/-- An offset in eighths of a tick to the nearest tick. -/
def toTicks (o : Int) : Int := (o + 4) / 8
/-- The OFFSET field: signed ticks of 32 bits, saturating. -/
def offField (o : Int) : Nat := (max (-(2 ^ 31 : Int)) (min (2 ^ 31 - 1) (toTicks o)) % 2 ^ 32).toNat
def clampOne (i : Int) : Int := max (-1) (min 1 i)
/-- A step of the counter by whole ticks. -/
def State.stepGtc (s : State) (o : Int) : State :=
  (s.setGtc { s.gtc with count := ((s.gtc.count : Int) + toTicks o).toNat, offs := [], owedRate := 0, owedOff := 0,
                         syncAt := ((s.gtc.count : Int) + toTicks o).toNat }).fset blkGTC F.GTC.GTC_STATUS.STEPPED 1
/-- What follows a sync with offset `o` that does not step: rate, increments owed. -/
def State.slewFrom (s : State) (o : Int) (at_ : Nat) : State :=
  let offs := ((o, at_) :: s.gtc.offs).take 17
  let old := offs.getLastD (o, at_)
  let dt : Int := (at_ : Int) - (old.2 : Int)
  let rate : Int := if dt ≤ 0 then 0 else ((o - old.1) * 4096 + 4 * dt) / (8 * dt)
  s.setGtc { s.gtc with offs := offs, owedRate := clampOne rate, owedOff := toTicks o }
/-- GTC_SYNC (R329): taken on SYNC_PORT by a follower, ignored elsewhere. -/
def State.gtcSync (s : State) (t : Nat) (c : Ctrl) : State :=
  if s.gtcMode ≠ 2 ∨ t ≠ s.fget blkGTC F.GTC.GTC_CTL.SYNC_PORT then s
  else
    let g := s.gtc
    let o : Int := 8 * (bits c.data 0 64 : Int) + (bits c.data 72 3 : Int) + g.delay - (8 * (c.at_ : Int) + (c.eighth : Int))
    let s := (s.fset blkGTC F.GTC.GTC_STATUS.LEVEL (bits c.data 64 5)).fset blkGTC F.GTC.GTC_STATUS.OFFSET (offField o)
    let hold := s.fbit blkGTC F.GTC.GTC_STATUS.HOLDOVER
    let s := s.fset blkGTC F.GTC.GTC_STATUS.HOLDOVER 0
    let good := if o.natAbs ≤ 8 then g.good + 1 else 0
    let s := s.setGtc { g with first := false, good := good, syncs := g.syncs + 1, syncAt := g.count }
    let s := if 4 ≤ good then s.fset blkGTC F.GTC.GTC_STATUS.LOCKED 1
      else if 16 < o.natAbs then s.fset blkGTC F.GTC.GTC_STATUS.LOCKED 0 else s
    let s := if (g.syncs + 1) % 16 = 0 then s.sendCtl t 4 0 else s
    if g.first || (hold && decide (8 * 65536 < o.natAbs)) then s.stepGtc o else s.slewFrom o c.at_
def execGtcSync (t : Fin 18) (s : State) : Host.Outcome State Fault Refusal := .next (s.control t.val 3 (fun s c => s.gtcSync t.val c))
/-- DELAY_REQ is answered with its time of arrival. -/
def execDelayReq (t : Fin 18) (s : State) : Host.Outcome State Fault Refusal :=
  .next (s.control t.val 4 (fun s c => s.sendCtl t.val 5 (c.at_ % 2 ^ 64 * 2 ^ 64 + c.eighth * 2 ^ 136)))
/-- DELAY_RESP: half the round trip. -/
def execDelayResp (t : Fin 18) (s : State) : Host.Outcome State Fault Refusal :=
  .next (s.control t.val 5 (fun s c =>
    match s.gtc.reqAt with
    | none => s
    | some t1 =>
      let t2 : Int := 8 * (bits c.data 64 64 : Int) + (bits c.data 136 3 : Int)
      let t3 : Int := 8 * (bits c.data 0 64 : Int) + (bits c.data 128 3 : Int)
      let t4 : Int := 8 * (c.at_ : Int) + (c.eighth : Int)
      if t.val ≠ s.fget blkGTC F.GTC.GTC_CTL.SYNC_PORT then s
      else s.setGtc { s.gtc with delay := ((t4 - (t1 : Int)) - (t3 - t2)) / 2, reqAt := none }))
/-- GTC_SLEW: at most one increment added or withheld in 2,048 ARITH cycles, the rate correction first. -/
def execGtcSlew (s : State) : Host.Outcome State Fault Refusal :=
  let g := s.gtc
  .next (if !s.alive || s.gtcMode != 2 || g.first || g.adj != 0 || s.fbit blkGTC F.GTC.GTC_STATUS.HOLDOVER ||
      decide (s.clk.arith < g.slewAt + 2048) then s
    else if g.owedRate ≠ 0 then
      (s.setGtc { g with adj := clampOne g.owedRate, owedRate := g.owedRate - clampOne g.owedRate, slewAt := s.clk.arith }).bump
        blkGTC F.GTC.GTC_SLEWS.COUNT
    else if g.owedOff ≠ 0 then
      (s.setGtc { g with adj := clampOne g.owedOff, owedOff := g.owedOff - clampOne g.owedOff, slewAt := s.clk.arith }).bump
        blkGTC F.GTC.GTC_SLEWS.COUNT
    else s)
/-- HOLDOVER (R330). -/
def execHoldover (s : State) : Host.Outcome State Fault Refusal :=
  .next (if s.alive ∧ s.gtcMode = 2 ∧ !s.gtc.first ∧ !s.fbit blkGTC F.GTC.GTC_STATUS.HOLDOVER ∧ s.gtc.syncAt + 262144 ≤ s.gtc.count then
    let s := (s.fset blkGTC F.GTC.GTC_STATUS.HOLDOVER 1).fset blkGTC F.GTC.GTC_STATUS.LOCKED 0
    (s.setGtc { s.gtc with good := 0, owedRate := 0, owedOff := 0 }).report 0 0xA6 blkGTC 0 0 0 0 0
  else s)
/-- GTC_CTL_WRITE (R7, R329, R330). -/
def State.gtcCtlWriteDo (s : State) (v : Word) : State :=
  let w := v.toNat
  let port := if bits w 2 5 ≤ 17 then bits w 2 5 else s.fget blkGTC F.GTC.GTC_CTL.SYNC_PORT
  let mask := bits w 8 18
  let s := if bit mask port then s
    else (s.fset blkGTC F.GTC.GTC_CTL.SYNC_PORT port).fset blkGTC F.GTC.GTC_CTL.SYNC_OUT mask
  if bits w 0 2 = 3 ∨ (bits w 0 2 = s.gtcMode ∧ s.gtcMode ≠ 2) then s
  else
    let s := s.fset blkGTC F.GTC.GTC_CTL.MODE (bits w 0 2)
    let s := (s.fset blkGTC F.GTC.GTC_STATUS.LOCKED 0).fset blkGTC F.GTC.GTC_STATUS.HOLDOVER 0
    s.setGtc { GtcSt.init with count := s.gtc.count, adj := s.gtc.adj, slewAt := s.gtc.slewAt, sentAt := s.gtc.sentAt }
def execGtcCtlWrite (v : Word) (s : State) : Host.Outcome State Fault Refusal :=
  .next (if s.regsOn then s.gtcCtlWriteDo v else s)

/-! ### Routes, roles, aliases (R345, R346, R348) -/

/-- A mask that names one to four ports of one hub. -/
def routeMaskOk (m : Nat) : Bool :=
  let a := popCount 9 m
  let b := popCount 9 (m / 512)
  (a == 0 || b == 0) && decide (1 ≤ a + b) && decide (a + b ≤ 4) && decide (m < 2 ^ 18)
/-- ROUTE_DATA_WRITE: entry ROUTE_IDX, in both hubs. -/
def State.routeDataWriteDo (s : State) (rq : Requester) (v : Word) : State :=
  let w := v.toNat
  (s.regGuard rq blkGTC F.GTC.ROUTE_DATA.PORTS.reg (fun s =>
    let i := s.fget blkGTC F.GTC.ROUTE_IDX.INDEX
    let r := s.route i
    let r' : Route := ⟨if routeMaskOk (bits w 0 18) then bits w 0 18 else r.ports, bits w 18 5, bit w 31⟩
    { s with routes := Sparse.put Route.init s.routes i r' }))
def execRouteDataWrite (rq : Requester) (v : Word) (s : State) : Host.Outcome State Fault Refusal := .next (s.routeDataWriteDo rq v)
/-- A Percolator serves the CACHE role. -/
def State.serving (s : State) : Bool :=
  s.fbit (blkPERC 0) F.PERC.KV_CTL.SERVE || s.fbit (blkPERC 1) F.PERC.KV_CTL.SERVE
/-- ROLE_WRITE. -/
def State.roleWriteDo (s : State) (rq : Requester) (v : Word) : State :=
  let r := bits v.toNat 0 3
  (s.regGuard rq blkGTC F.GTC.ROLE.ROLE.reg (fun s =>
    if s.serving || 4 < r then s else s.fset blkGTC F.GTC.ROLE.ROLE r))
def execRoleWrite (rq : Requester) (v : Word) (s : State) : Host.Outcome State Fault Refusal := .next (s.roleWriteDo rq v)
/-- ANNOUNCE: the claim goes once on every UP port. -/
def State.announceDo (s : State) (rq : Requester) (i : Fin 8) : State :=
  (s.regGuard rq blkGTC F.GTC.ANNOUNCE.GO.reg (fun s =>
    let d := s.fget blkGTC F.GTC.ALIAS.NUM (8 * i.val) + s.fget blkGTC F.GTC.ALIAS.GEN (8 * i.val) * 2 ^ 16
    (List.range 18).foldl (fun s t => if s.tlState t = 2 then s.sendCtl t 9 d else s) s))
def execAnnounce (rq : Requester) (i : Fin 8) (s : State) : Host.Outcome State Fault Refusal := .next (s.announceDo rq i)
/-- ALIAS_CLAIM: counted; a claim for the device's own number, or of a newer generation for one of its aliases, fences
it. -/
def execAliasClaim (t : Fin 18) (s : State) : Host.Outcome State Fault Refusal :=
  .next (s.control t.val 9 (fun s c =>
    let n := bits c.data 0 16
    let gen := bits c.data 16 8
    let s := s.bump blkGTC F.GTC.CLAIMS_SEEN.COUNT
    let s := if n = s.devNum then s.fset blkGTC F.GTC.FENCE.FENCED 1 else s
    (List.range 8).foldl (fun s i =>
      if s.fbit blkGTC F.GTC.ALIAS.VALID (8 * i) && s.fget blkGTC F.GTC.ALIAS.NUM (8 * i) == n &&
          decide (s.fget blkGTC F.GTC.ALIAS.GEN (8 * i) < gen) then s.fset blkGTC F.GTC.ALIAS.FENCED 1 (8 * i)
      else s) s))

end Sys2Proof.Machine
end

