-- ==== Sys2Proof/Machine/Percolator.lean ====
section
/-! DEFINITION. The Percolators (R255-R277): the ring's handshake, CIRCULATE and ACCUM passes over staging, aborts and
stalls, key/value requests. -/

namespace Sys2Proof.Machine

/-! ### Staging (R260) -/

/-- The banks named may be staged in: in SCRATCH mode, owned by the hub's collectives engine. -/
def State.stageOk (s : State) (h qsel bank n : Nat) : Bool :=
  let q := 2 * h + qsel
  decide (bank + n ≤ 56) && (List.range n).all (fun i =>
    s.bankOwn q (bank + i) F.CELLAR.BANK_OWN.MODE == 1 && s.bankOwn q (bank + i) F.CELLAR.BANK_OWN.OWNER_KIND == 5)
/-- Slot `i` of staging banks: 64 KiB, 512 to a bank, in rising order (log entry 66). -/
def stageAddr (h qsel bank i : Nat) : Nat := bankAddr (2 * h + qsel) (bank + i / 512) (65536 * (i % 512))
/-- What a staging bank answers: refused once it is another's or has changed mode. -/
def State.stageAdm (s : State) (who : Who) (a n : Nat) (write : Bool) : Adm :=
  match region a with
  | .cellar q b => if s.bankOwn q b F.CELLAR.BANK_OWN.MODE ≠ 1 then .refuse else s.spanAdm who a n write
  | _ => .refuse
/-- The lowest slot below `n` that is not in use. -/
def freeSlot (n : Nat) (used : List Nat) : Option Nat := (List.range n).find? (fun i => !used.contains i)
def State.percStage (s : State) (h : Nat) : Bool :=
  let b := blkPERC h
  s.stageOk h (s.fget b F.PERC.STAGE.QSEL) (s.fget b F.PERC.STAGE.BANK) (s.fget b F.PERC.STAGE.NBANK)
def State.percSlot (s : State) (h i : Nat) : Nat :=
  stageAddr h (s.fget (blkPERC h) F.PERC.STAGE.QSEL) (s.fget (blkPERC h) F.PERC.STAGE.BANK) i
/-- Segments that staging has room for: a bank holds 512. -/
def State.stageCap (s : State) (h : Nat) : Nat := 512 * s.fget (blkPERC h) F.PERC.STAGE.NBANK

/-! ### The handshake (R257-R259) -/

/-- The fields of RING_CTL but ENABLE take a write. -/
def State.ringCtl (s : State) (h w : Nat) : State :=
  let b := blkPERC h
  let n := bits w 1 11
  let s := if 2 ≤ n ∧ n ≤ 1024 then s.fset b F.PERC.RING_CTL.N n else s
  (s.fset b F.PERC.RING_CTL.POS (bits w 12 11)).fset b F.PERC.RING_CTL.RING_ID (bits w 32 16)
/-- The Percolator as a ring begins or ends: what it serves goes on. -/
def Perc.fresh (x : Perc) : Perc := { Perc.init with kvs := x.kvs, sinks := x.sinks, progAt := x.progAt }
/-- PERC_RING_ENABLE: a write of RING_CTL with ENABLE 1; while ENABLE is 1 it is ignored. -/
def State.percRingEnableDo (s : State) (h : Fin 2) (v : Word) : State :=
  let b := blkPERC h.val
  (if s.fbit b F.PERC.RING_CTL.ENABLE then s.fset b F.PERC.RING_STATUS.CFG_REJECT 1
    else
      let s := (s.ringCtl h.val v.toNat).fset b F.PERC.RING_CTL.ENABLE 1
      let snd := s.sendPorts h.val
      let rcv := s.recvPorts h.val
      let s := s.setPerc h.val (s.perc h.val).fresh
      if s.ringN h.val ≤ s.ringPos h.val ∨ snd.length ≠ rcv.length ∨ snd.isEmpty ∨ 4 < snd.length ∨ snd.any (fun t => rcv.contains t) then
        s.setRingSt h.val 3 1
      else if (snd ++ rcv).any (fun t => !s.tlTakes t) then s.setRingSt h.val 3 3
      else if !s.percStage h.val then s.setRingSt h.val 3 2
      else
        let s := s.setRingSt h.val 1 0
        s.setPerc h.val { s.perc h.val with outHello := s.fget b F.PERC.RING_PORTS.SEND })
def execPercRingEnable (h : Fin 2) (v : Word) (s : State) : Host.Outcome State Fault Refusal :=
  .next (if s.regsOn then s.percRingEnableDo h v else s)
/-- READY once every receive port has its hello and every send port its acknowledgement. -/
def State.ringReady (s : State) (h : Nat) : State :=
  let b := blkPERC h
  let x := s.perc h
  if x.hello = s.fget b F.PERC.RING_PORTS.RECV ∧ x.acks = s.fget b F.PERC.RING_PORTS.SEND then
    (s.setRingSt h 2 0).fset b F.PERC.RING_STATUS.PASS_SEQ 0
  else s
/-- RING_HELLO on port `i` of the hub: the predecessor's RING_ID, N, POS and count of ports. -/
def execRingHello (h : Fin 2) (i : Fin 9) (id n pos cnt : Nat) (s : State) : Host.Outcome State Fault Refusal :=
  let b := blkPERC h.val
  let rcv := s.fget b F.PERC.RING_PORTS.RECV
  .next (if !s.alive || s.ringSt h.val != 1 || !bit rcv i.val then s
    else if id = s.fget b F.PERC.RING_CTL.RING_ID ∧ n = s.ringN h.val ∧ pos = (s.ringPos h.val + n - 1) % n ∧
        cnt = (s.recvPorts h.val).length then
      let x := s.perc h.val
      (s.setPerc h.val { x with hello := x.hello ||| 2 ^ i.val, outAck := x.outAck ||| 2 ^ i.val }).ringReady h.val
    else s.setRingSt h.val 3 1)
def execRingHelloAck (h : Fin 2) (i : Fin 9) (s : State) : Host.Outcome State Fault Refusal :=
  .next (if !s.alive || s.ringSt h.val != 1 || !bit (s.fget (blkPERC h.val) F.PERC.RING_PORTS.SEND) i.val then s
    else
      let x := s.perc h.val
      (s.setPerc h.val { x with acks := x.acks ||| 2 ^ i.val }).ringReady h.val)

/-- PERC_RING_DISABLE: the write that clears ENABLE. A pass in progress ends, the ring is DOWN; queued passes end when they
begin. -/
def State.percRingDisableDo (s : State) (h : Fin 2) (v : Word) : State :=
  let b := blkPERC h.val
  (if !s.fbit b F.PERC.RING_CTL.ENABLE then s
    else
      let s := match s.ringPass h.val with
        | some c => s.endPass h.val c 0x73
        | none => s
      let s := s.setPerc h.val (s.perc h.val).fresh
      ((s.ringCtl h.val v.toNat).fset b F.PERC.RING_CTL.ENABLE 0).setRingSt h.val 0 0)
def execPercRingDisable (h : RingCtlWrite) (s : State) : Host.Outcome State Fault Refusal :=
  .next (if s.regsOn then s.percRingDisableDo h.h h.v else s)
/-- A pass that has ended early and has not yet left the ring, numbered `seq`: its abort frames are still to go. -/
def State.passTearing (s : State) (h seq : Nat) : Bool :=
  s.cmds.any (fun c => c.unit == .perc h && c.phase == .ending && (c.op == 1 || c.op == 2) && c.dropped == seq && c.next == 0 && !c.good)
/-- ABORT: a ring abort frame on port `t` ends the pass it names and is forwarded once; one of a queued pass is kept until
that begins. -/
def execAbort (t : Fin 18) (s : State) : Host.Outcome State Fault Refusal :=
  let h := tlHub t.val
  .next (s.control t.val 8 (fun s c =>
    let seq := bits c.data 8 32
    if bits c.data 0 8 ≠ 0 ∨ s.ringSt h ≠ 2 ∨ !(s.recvPorts h).contains t.val ∨ s.passTearing h seq then s
    else match s.ringPass h, decide (seq = s.passSeq h) with
      | some c, true => s.endPass h c 0x76
      | _, _ =>
        if (seq + 2 ^ 32 - s.passSeq h) % 2 ^ 32 < 16 then
          let x := s.perc h
          if x.aborts.contains seq then s
          else (s.sendPorts h).foldl (fun s t => if s.tlTakes t then s.sendCtl t 8 (seq * 256) else s)
            (s.setPerc h { x with aborts := x.aborts ++ [seq] })
        else s))

/-! ### Passes (R262-R268) -/

def Cmd.blkBytes (c : Cmd) : Nat := bits (c.word 3) 0 40
def Cmd.nslot (c : Cmd) : Nat := bits (c.word 3) 40 8
def Cmd.slotPitch (c : Cmd) : Nat := bits (c.word 5) 0 40
def Cmd.segN (c : Cmd) : Nat := c.blkBytes / 65536
def Cmd.consumers (c : Cmd) : Nat := bits (c.word 4) 36 16
/-- Objects `i` on from a reference, in its quarter. -/
def objPlus (ref i : Nat) : Nat := ref / 65536 * 65536 + (ref + i) % 65536
def Cmd.dataObj (c : Cmd) : Nat := bits (c.word 4) 0 18
def Cmd.spaceObj (c : Cmd) : Nat := bits (c.word 4) 18 18
def stackAddr (a : Nat) : Bool := decide (a < 0x024000000000)
def passOk (c : Cmd) : Bool :=
  c.frameOk && bits (c.word 0) 5 11 == 0 && c.word 1 % 64 == 0 && stackAddr (c.word 1) && c.word 2 % 64 == 0 && stackAddr (c.word 2) &&
    bits (c.word 3) 48 16 == 0 && c.blkBytes % 65536 == 0 && decide (2 ≤ c.nslot) &&
    bits (c.word 4) 52 12 == 0 && (if c.op = 1 then c.consumers != 0 else c.consumers == 0) &&
    bits (c.word 5) 40 24 == 0 && c.slotPitch % 65536 == 0 && decide (c.blkBytes ≤ c.slotPitch) && c.word 6 == 0
def State.poisonPassed (s : State) (b : Nat) (f : Fld) (l : List Code) : State :=
  let n := (l.filter (·.poison)).length
  if n = 0 then s else s.bump b f 0 n
/-- The origin of the block that the pass receives as its `k`-th; of the own block, 0. -/
def State.originOf (s : State) (h k : Nat) : Nat := (s.ringPos h + s.ringN h - k % s.ringN h) % s.ringN h
/-- Segment `i` of the block of origin `o` leaves on its port (R263). -/
def State.sendSeg (s : State) (h : Nat) (c : Cmd) (o i : Nat) (l : List Code) : State :=
  let ps := s.sendPorts h
  let t := ps.getD (i % ps.length) 0
  (s.sendOn t 0 0xFFFF s.devNum 1 (.seg (s.passSeq h) c.op c.blkBytes o i) (blksOf l)).poisonPassed (blkPERC h) F.PERC.POISON_PASSED.COUNT l
/-- The block of origin `o` at `a` is read and sent; a refused read ends the pass. -/
def State.sendBlock (s : State) (c : Cmd) (h o a : Nat) (k : State → State) : State :=
  match s.spanAdm (.perc h) a c.blkBytes false with
  | .wait => s
  | .refuse => (s.spanRefuseR (.perc h) a c.blkBytes).endPass h c 0x71 (s.firstRefused (.perc h) a c.blkBytes false)
  | _ =>
    let s := s.spanTouch (.perc h) a c.blkBytes
    k ((List.range c.segN).foldl (fun s i => s.sendSeg h c o i (s.viewCodes (a + 65536 * i) 65536)) s)
/-- A CIRCULATE or ACCUM record begins. -/
def State.passBegin (s : State) (h op : Nat) (body : State → Cmd → State) : State :=
  if !(s.activeOf (.perc h)).isEmpty then s
  else
    let t := s.beginCmd (.perc h) (· == op) (fun o => o == 0 || 4 < o) (fun s c =>
      let s := s.updCmd c.id (fun c => { c with dropped := s.passSeq h })
      let c := { c with dropped := s.passSeq h }
      if !passOk c then s.failCmd c.id 0x70
      else if s.ringSt h ≠ 2 then s.failCmd c.id 0x73
      else if (s.perc h).aborts.contains (s.passSeq h) then
        ((s.failCmd c.id 0x76).updCmd c.id (fun c => { c with next := 1 })).tearRing h c.dropped 0x76 false
      else if (s.perc h).staged.any (fun g => g.seq == s.passSeq h && (g.op != c.op || g.bytes != c.blkBytes)) then
        s.endPass h c 0x74
      else
        let s := (s.setPerc h { s.perc h with k := if op = 1 then 1 else 0, segs := [], asked := false, granted := false, sigs := 0 }).percProg h
        body s c)
    -- an access that has to wait holds the record at the head of the queue
    if t.cmds.any (fun c => c.unit == .perc h && c.phase == .active && c.op == op && op == 1 && c.cold == 0) then s else t
/-- CIRCULATE: the own block is sent. -/
def execCirculate (h : Fin 2) (s : State) : Host.Outcome State Fault Refusal :=
  .next (s.passBegin h.val 1 (fun s c => s.sendBlock c h.val (s.ringPos h.val) (c.word 1) (fun s => s.updCmd c.id (fun c => { c with cold := 1 }))))
/-- ACCUM: the first local slot is asked for. -/
def execAccum (h : Fin 2) (s : State) : Host.Outcome State Fault Refusal :=
  .next (s.passBegin h.val 2 (fun s c =>
    (s.setPerc h.val { s.perc h.val with asked := true }).sendSync (.cmd c.id) c.dataObj (.wait 1)))
/-- The answers that have come for a pass: a credit granted, signals accepted; a bad one ends it. -/
def State.percWakes (s : State) (h : Nat) (c : Cmd) : State :=
  let mine := s.wakes.filter (fun (w : Wake) => w.who == SyncWho.cmd c.id && s.landed w.id)
  if mine.isEmpty then s
  else
    let s := { s with wakes := s.wakes.filter (fun (w : Wake) => !mine.contains w) }
    if mine.any (fun w => w.status != 0) then s.endPass h c 0x46
    else
      let x := s.perc h
      s.setPerc h { x with sigs := x.sigs - (mine.filter (·.sig)).length, granted := x.granted || mine.any (fun w => !w.sig) }
/-- The sum of two codewords of FP32 values; poison in either is poison in the result (R266, R267). -/
def addCode (r : Rnd) (a b : Code) : Code :=
  if a.poison || b.poison then ⟨0, true⟩
  else ⟨(List.range 4).foldl (fun v i => v + add32 r (bits a.v (32 * i) 32) (bits b.v (32 * i) 32) * 2 ^ (32 * i)) 0, false⟩
/-- Staging has been taken away: the ring is FAULTED and its pass ends (R260). -/
def State.stageLost (s : State) (h : Nat) : State :=
  match s.ringPass h with
  | some c => s.endPass h c 0x78
  | none => s.setRingSt h 3 2
/-- One staged segment of the present block is read from its slot, and landed, or added and sent on. -/
def State.takeSeg (s : State) (h : Nat) (c : Cmd) (g : Seg) : State :=
  let x := s.perc h
  let out (s : State) : State :=
    let x := s.perc h
    (s.setPerc h { x with staged := x.staged.erase g, segs := x.segs ++ [g.seg] }).percProg h
  let b := blkPERC h
  let sa := s.percSlot h g.slot
  match s.stageAdm (.perc h) sa 65536 false with
  | .wait => s
  | .refuse => (s.refusedAt (s.firstRefused (.perc h) sa 65536 false)).stageLost h
  | _ =>
    let land (a : Nat) : State :=
      match s.spanAdm (.perc h) a 65536 true with
      | .wait => s
      | adm =>
        let s := s.spanTouch (.perc h) sa 65536
        let l := s.viewCodes sa 65536
        if adm = .refuse then
          let r := s.firstRefused (.perc h) a 65536 true
          ((s.codesWrite (.perc h) c.mode a (l.take ((r - a) / 16)) 1025).engineReject r true).endPass h c 0x72 r
        else out ((s.codesWrite (.perc h) c.mode a l 1025).poisonPassed b F.PERC.POISON_PASSED.COUNT l)
    if c.op = 1 then land (c.word 2 + (x.k - 1) % c.nslot * c.slotPitch + 65536 * g.seg)
    else if x.k = s.ringN h then land (c.word 2 + 65536 * g.seg)
    else
      let a := c.word 1 + x.k % c.nslot * c.slotPitch + 65536 * g.seg
      match s.spanAdm (.perc h) a 65536 false with
      | .wait => s
      | .refuse => (s.spanRefuseR (.perc h) a 65536).endPass h c 0x71 (s.firstRefused (.perc h) a 65536 false)
      | _ =>
        let s := (s.spanTouch (.perc h) sa 65536).spanTouch (.perc h) a 65536
        let i := s.viewCodes sa 65536
        let l := s.viewCodes a 65536
        let sum := (List.range 4096).map (fun e => addCode c.rnd (i.getD e ⟨0, false⟩) (l.getD e ⟨0, false⟩))
        out (s.sendSeg h c (s.originOf h x.k) g.seg sum)
/-- Whether the present block's segments may be taken: its slot is granted; RESULT needs none, nor a block of no segments. -/
def State.slotOpen (s : State) (h : Nat) (c : Cmd) : Bool :=
  (s.perc h).granted || (c.op == 1 && c.segN == 0) || (c.op == 2 && (s.perc h).k == s.ringN h)
/-- A pass goes on with what it has: answers, the credit of a landing slot, staged segments of the present block. -/
def State.percPump (s : State) (h : Nat) : State :=
  match s.ringPass h with
  | none => s
  | some c =>
    let s := s.percWakes h c
    match s.ringPass h with
    | none => s
    | some c =>
      let x := s.perc h
      let mine := x.staged.filter (fun g => g.seq == s.passSeq h && g.origin == s.originOf h x.k)
      let s := if c.op = 1 ∧ !x.asked ∧ !mine.isEmpty then
          (s.setPerc h { x with asked := true }).sendSync (.cmd c.id) (objPlus c.spaceObj ((x.k - 1) % c.nslot)) (.wait c.consumers)
        else s
      if s.slotOpen h c && (c.op == 1 || x.k != 0) then
        mine.foldl (fun s g => if (s.ringPass h).isSome then s.takeSeg h c g else s) s
      else s
/-- RING_SEG: the segment at the head of port `t`'s POSTED buffer enters staging, if there is room. A segment of a pass
that has not begun waits there, as one that comes during the handshake; one that does not match the pass ends it (R263). -/
def execRingSeg (t : Fin 18) (seq op bytes origin seg : Nat) (s : State) : Host.Outcome State Fault Refusal :=
  let m := MsgInfo.seg seq op bytes origin seg
  .next (s.message t.val 0 1 (msgFor m) (fun s _ i l =>
    let h := tlHub t.val
    match i with
    | .seg seq op bytes origin seg =>
      if s.ringSt h ≠ 1 ∧ s.ringSt h ≠ 2 then some s
      else
        let cap := s.stageCap h
        let counted := s.bump (blkPERC h) F.PERC.BYTES_RECV.BYTES 0 (64 * l.length)
        let put : Option State :=
          match freeSlot cap ((s.perc h).staged.map (·.slot)) with
          | none => none
          | some n =>
            let a := s.percSlot h n
            match s.stageAdm (.perc h) a 65536 true with
            | .wait => none
            | .refuse => some ((s.refusedAt (s.firstRefused (.perc h) a 65536 true)).stageLost h)
            | _ =>
              let s := counted.codesWrite (.perc h) 0 a (codesOf l) 1025
              some (((s.setPerc h { s.perc h with staged := (s.perc h).staged ++ [Seg.mk seq op bytes origin seg n] }).percProg h).percPump h)
        let d := (seq + 2 ^ 32 - s.passSeq h) % 2 ^ 32
        match s.ringPass h with
        | none => put
        | some c => if (d = 0 ∧ op = c.op ∧ bytes = c.blkBytes) ∨ (1 ≤ d ∧ d ≤ 16) then put else some (counted.endPass h c 0x74)
    | _ => some s))
/-- The next local slot of an ACCUM pass is asked for, if one is left. -/
def State.nextLocal (s : State) (h : Nat) (c : Cmd) (k : Nat) : State :=
  let s := s.setPerc h { s.perc h with k := k, segs := [], asked := decide (k < s.ringN h), granted := false }
  if k < s.ringN h then s.sendSync (.cmd c.id) c.dataObj (.wait 1) else s
/-- The block that the pass is at is done: landed and signalled and, but for the last, sent on; added, its local slot given
back; completed at RESULT. -/
def State.blockDone (s : State) (h : Nat) (c : Cmd) : State :=
  let x := s.perc h
  let n := s.ringN h
  let signal (s : State) (obj v : Nat) : State :=
    (s.setPerc h { s.perc h with sigs := (s.perc h).sigs + 1 }).sendSync (.cmd c.id) obj (.sig v true)
  if c.op = 1 then
    let q := (x.k - 1) % c.nslot
    let a := c.word 2 + q * c.slotPitch
    let fin (s : State) : State :=
      let s := signal s (objPlus c.dataObj q) c.consumers
      let s := s.setPerc h { s.perc h with k := x.k + 1, segs := [], asked := false, granted := false }
      (s.updCmd c.id (fun c => { c with cnt := c.cnt + 1, bytes := c.bytes + c.blkBytes })).percPump h
    if x.k < n - 1 then s.sendBlock c h (s.originOf h x.k) a fin else fin s
  else
    let sent (s : State) : State := s.updCmd c.id (fun c => { c with cnt := c.cnt + 1, bytes := c.bytes + c.blkBytes })
    if x.k = 0 then s.sendBlock c h (s.ringPos h) (c.word 1) (fun s => (signal (sent s) c.spaceObj 1).nextLocal h c 1)
    else if x.k < n then (signal (sent s) c.spaceObj 1).nextLocal h c (x.k + 1)
    else s.setPerc h { x with k := n + 1, segs := [] }
/-- BLOCK_LANDED: the pass takes what has come for it; a block all of whose segments are in is done. -/
def execBlockLanded (h : Fin 2) (s : State) : Host.Outcome State Fault Refusal :=
  .next (if !s.alive then s
    else
      let s := s.percPump h.val
      match s.ringPass h.val with
      | none => s
      | some c =>
        let x := s.perc h.val
        if (c.op = 2 ∧ x.k = 0 ∧ x.granted) ∨ (x.segs.length = c.segN ∧ s.slotOpen h.val c) then
          (s.blockDone h.val c).percProg h.val
        else s)
/-- Everything the pass sent has been taken by its successor: nothing waits to leave, every credit is back. -/
def State.ringDrained (s : State) (h : Nat) : Bool :=
  (s.sendPorts h).all (fun t => let x := s.tport t
    !x.tx.any (fun b => b.1 == 0) && x.credit[0] == 6144)
/-- PASS_COMPLETE (R268): a pass that is done writes its record; one that ended early first leaves the ring (R271). -/
def execPassComplete (id : Nat) (s : State) : Host.Outcome State Fault Refusal :=
  .next (match s.cmd? id with
    | none => s
    | some c =>
      match c.unit with
      | .perc h =>
        let ring := c.op == 1 || c.op == 2
        if c.phase = .active ∧ ring then
          let s := s.percWakes h c
          let x := s.perc h
          if (s.ringPass h).isSome ∧ x.k = (if c.op = 1 then s.ringN h else s.ringN h + 1) ∧ x.sigs = 0 ∧ s.ringDrained h then
            ((s.updCmd id (fun c => { c with phase := .ending })).fset (blkPERC h) F.PERC.RING_STATUS.PASS_SEQ
              ((s.passSeq h + 1) % 2 ^ 32)).finishCmd id
          else s
        else if c.phase = .ending ∧ ring ∧ !c.good ∧ c.next = 0 ∧ c.status ≠ 0x70 ∧ c.status ≠ 0x73 then
          ((s.tearRing h c.dropped c.status true).updCmd id (fun c => { c with next := 1 })).finishCmd id
        else s.finishCmd id
      | _ => s)
/-- RING_STALL (R272). -/
def execRingStall (h : Fin 2) (s : State) : Host.Outcome State Fault Refusal :=
  .next (match s.cmds.find? (fun c => c.unit == .perc h.val && c.phase == .active) with
    | some c =>
      if s.alive && decide ((s.perc h.val).progAt + 65536 * s.fget (blkPERC h.val) F.PERC.RING_LIMIT.LIMIT ≤ s.clk.arith) then
        (if c.op = 1 ∨ c.op = 2 then s.endPass h.val c 0x75 else s.failCmd c.id 0x75)
      else s
    | none => s)

/-! ### Key/value requests (R274-R276) -/

def Cmd.kvLen (c : Cmd) : Nat := bits (c.word 3) 0 40
def Cmd.peer (c : Cmd) : Nat := bits (c.word 4) 0 16
/-- R262, and PEER a device number (R319). -/
def kvOk (c : Cmd) : Bool :=
  c.frameOk && bits (c.word 0) 5 11 == 0 && bits (c.word 1) 40 24 == 0 && c.word 2 % 64 == 0 && stackAddr (c.word 2) &&
    bits (c.word 3) 40 24 == 0 && c.kvLen % 64 == 0 && decide (64 ≤ c.kvLen) && decide (c.kvLen ≤ 2 ^ 32) &&
    bits (c.word 4) 16 48 == 0 && c.peer != 0xFFFF && c.word 5 == 0 && c.word 6 == 0
/-- Codewords cut into messages of at most 1,024 blocks. -/
def msgsOf : Nat → List Code → List (List Code)
  | 0, _ => []
  | n + 1, l => if l.isEmpty then [] else l.take 4096 :: msgsOf n (l.drop 4096)
/-- Key/value data goes to a device from one of this device's numbers, in messages of up to 64 KiB, each with its offset; what
has no route, or is of a number that is fenced (R346), stays unsent. Whether it went. -/
def State.sendKv (s : State) (hub vc dst src : Nat) (put : Bool) (tag : Nat) (l : List Code) : State × Bool :=
  if !s.numbers.contains src then (s, false)
  else ((msgsOf (l.length / 4096 + 1) l).foldl (fun (r : State × Nat × Bool) m =>
    match r.1.wireMsg hub vc dst src 5 (.kvData put r.2.1 tag) (blksOf m) with
    | some s => (s, r.2.1 + 16 * m.length, r.2.2)
    | none => (r.1, r.2.1 + 16 * m.length, false)) (s, 0, true)) |> (fun r => (r.1, r.2.2))
/-- A KV_GET or KV_PUT record begins: its request goes to PEER, a PUT's data behind it. -/
def State.kvBegin (s : State) (h op : Nat) : State :=
  if !(s.activeOf (.perc h)).isEmpty then s
  else
    s.beginCmd (.perc h) (· == op) (fun o => o == 0 || 4 < o) (fun s c =>
      if !kvOk c then s.failCmd c.id 0x70
      else
        let s := s.percProg h
        let req (s : State) : State :=
          if !s.numbers.contains s.devNum then s
          else (s.wireMsg h 1 c.peer s.devNum 4 (.kvReq (op == 4) (bits (c.word 1) 0 40) c.kvLen c.id) []).getD s
        if op = 3 then req s
        else
          let n := c.kvLen
          match s.spanAdm (.perc h) (c.word 2) n false with
          | .refuse => (s.spanRefuseR (.perc h) (c.word 2) n).failCmd c.id 0x71 (s.firstRefused (.perc h) (c.word 2) n false)
          | _ =>
            let s := req (s.spanTouch (.perc h) (c.word 2) n)
            let l := s.viewCodes (c.word 2) n
            ((s.poisonPassed (blkPERC h) F.PERC.POISON_PASSED.COUNT l).sendKv h 0 c.peer s.devNum true c.id l).1)
def execKvGet (h : Fin 2) (s : State) : Host.Outcome State Fault Refusal := .next (s.kvBegin h.val 3)
def execKvPut (h : Fin 2) (s : State) : Host.Outcome State Fault Refusal := .next (s.kvBegin h.val 4)
/-- A KV_ACK goes back with a status of Table 11.5, or 0, from the number that the request came to. -/
def State.kvReply (s : State) (h : Nat) (r : KvReq) (status : Nat) : State :=
  if s.numbers.contains r.self then (s.wireMsg h 2 r.peer r.self 6 (.kvAck status r.tag) []).getD s else s
/-- A request answered without moving data: what has come of a PUT's data, and what still comes, is discarded. -/
def State.kvTurn (s : State) (h : Nat) (r : KvReq) (status : Nat) : State :=
  let s := s.kvReply h r status
  let left := r.len - (r.data.map (fun d => 16 * d.2.length)).foldl (· + ·) 0
  if r.put && left != 0 then
    let x := s.perc h
    s.setPerc h { x with sinks := x.sinks ++ [(r.peer, r.tag, left)] }
  else s
def kvLoc (e : Nat) : Nat := bits e 0 64
/-- A block's codewords as the server reads them. -/
def State.kvRead (s : State) (h e len : Nat) (res : List FlashCw) : State × List Code :=
  let a := kvLoc e
  if eTier e = 1 then
    if s.spanAdm (.perc h) a len false = .refuse then (s.spanRefuseR (.perc h) a len, poisonCodes (len / 16))
    else
      let s := s.spanTouch (.perc h) a len
      (s, s.viewCodes a len)
  else
    -- a block that passes its page goes on in the page of the next handle
    (List.range ((eOff e + len + 65535) / 65536)).foldl (fun (r : State × List Code) i =>
      let lo := if i = 0 then eOff e else 0
      let hi := min 65536 (eOff e + len - 65536 * i)
      let f := r.1.flashRead (handleMgr e) (eHandle e + i) lo (hi - lo) ((res.drop (16 * i)).take 16)
      (f.1, r.2 ++ f.2.1)) (s, [])
/-- Data of a PUT in progress is written at the entry's LOCATION; none where the home makes it wait. -/
def State.kvPutAt (s : State) (h : Nat) (r : KvReq) (off : Nat) (l : List Code) : Option State :=
  let a := kvLoc r.entry + off
  let n := 16 * l.length
  let s' := s.poisonPassed (blkPERC h) F.PERC.POISON_PASSED.COUNT l
  match s.spanAdm (.perc h) a n true with
  | .wait => none
  | .refuse =>
    let b := s.firstRefused (.perc h) a n true
    some ((s'.codesWrite (.perc h) 0 a (l.take ((b - a) / 16)) (n / 64 + 1)).engineReject b true)
  | _ => some (s'.codesWrite (.perc h) 0 a l (n / 64 + 1))
/-- A request begins at the server: its entry is read once; it is answered with a status, or with data, or waits for its
data. None where an access, or the flash manager, makes it wait. -/
def State.kvStart (s : State) (h : Nat) (r : KvReq) : Option State :=
  let b := blkPERC h
  let ea := 4096 * s.fget b F.PERC.KV_DIR.BASE + 16 * r.block
  let known := decide (r.block < s.fget b F.PERC.KV_BLOCKS.COUNT)
  let adm := s.spanAdm (.perc h) ea 16 false
  let miss (s : State) : Option State := some ((s.bump b F.PERC.KV_MISSES.COUNT).kvTurn h r 1)
  if !known then miss s
  else match adm with
    | .wait => none
    | .refuse => miss (s.spanRefuseR (.perc h) ea 16)
    | _ =>
      let t := s.spanTouch (.perc h) ea 16
      let e := if t.readPoison ea 16 then 0 else t.viewNat ea 16
      if eTier e ≠ 1 ∧ eTier e ≠ 2 then miss t
      else if bits e 64 32 ≠ r.len ∨ (r.put ∧ eTier e = 2) then some (t.kvTurn h r 2)
      else if r.put then
        let r := { r with entry := e, began := t.now, run := true }
        let x := t.perc h
        let t := t.setPerc h { x with kvs := { r with data := [] } :: x.kvs }
        -- what came before the request began is written now
        r.data.foldl (fun (o : Option State) d => o.bind (fun t =>
          (t.kvPutAt h r d.1 d.2).map (fun t =>
            let x := t.perc h
            t.setPerc h { x with kvs := x.kvs.map (fun y => if y.run && y.put && y.peer == r.peer && y.tag == r.tag then { y with got := y.got + 16 * d.2.length } else y) })))
          (some t)
      else if eTier e = 1 ∧ s.spanAdm (.perc h) (kvLoc e) r.len false = .wait then none
      else if eTier e = 2 ∧ s.fmState (handleMgr e) ≤ 1 then none
      else
        let d := t.kvRead h e r.len r.res
        let p := (d.1.poisonPassed b F.PERC.POISON_PASSED.COUNT d.2).sendKv h 2 r.peer r.self false r.tag d.2
        some ((if p.2 then p.1.bump b F.PERC.BYTES_SENT.BYTES 0 r.len else p.1).bump b F.PERC.KV_SERVED.COUNT)
/-- The requests that wait for a block begin, up to the next PUT; a PUT all of whose data is in is answered. -/
def State.kvNext (s : State) (h block : Nat) : Nat → State
  | 0 => s
  | n + 1 =>
    let x := s.perc h
    match x.kvs.find? (fun y => y.block == block) with
    | some r =>
      if r.run then
        if r.len ≤ r.got then ((s.setPerc h { x with kvs := x.kvs.erase r }).kvReply h r 0).kvNext h block n else s
      else match (s.setPerc h { x with kvs := x.kvs.erase r }).kvStart h r with
        | some s => s.kvNext h block n
        | none => s
    | none => s
/-- KV_REQ: a request reaches the server; one on a block that another has in progress waits. `res`: how a flash block's
codewords decode. -/
def execKvReq (t : Fin 18) (put : Bool) (block len tag : Nat) (res : List FlashCw) (s : State) : Host.Outcome State Fault Refusal :=
  let m := MsgInfo.kvReq put block len tag
  .next (s.message t.val 1 4 (msgFor m) (fun s hd i _ =>
    let h := tlHub t.val
    match i with
    | .kvReq put block len tag =>
      let r : KvReq := ⟨hdrSrc hd, if hdrDst hd = 0xFFFF then s.devNum else hdrDst hd, put, block, len, tag, 0, s.now, false, 0, [], res⟩
      let x := s.perc h
      if !s.fbit (blkPERC h) F.PERC.KV_CTL.SERVE then some (s.kvTurn h r 3)
      else if x.kvs.any (fun y => y.block == block) then
        some ((s.setPerc h { x with kvs := x.kvs ++ [r] }).kvNext h block (x.kvs.length + 1))
      else (s.kvStart h r).map (fun s => s.kvNext h block 2)
    | _ => some s))
/-- Data of a PUT at the server: written, kept until its request begins, or discarded; before its request, it waits. -/
def State.kvTake (s : State) (h src off tag : Nat) (l : List Code) : Option State :=
  let x := s.perc h
  let n := 16 * l.length
  let s := s.bump (blkPERC h) F.PERC.BYTES_RECV.BYTES 0 n
  match x.kvs.find? (fun y => y.put && y.peer == src && y.tag == tag) with
  | some r =>
    let upd (s : State) (f : KvReq → KvReq) : State :=
      s.setPerc h { s.perc h with kvs := (s.perc h).kvs.map (fun y => if y = r then f y else y) }
    if r.run then
      (s.kvPutAt h r off l).map (fun s => (upd s (fun y => { y with got := y.got + n })).kvNext h r.block (x.kvs.length + 1))
    else some (upd s (fun y => { y with data := y.data ++ [(off, l)] }))
  | none =>
    match x.sinks.find? (fun e => e.1 == src && e.2.1 == tag) with
    | some e =>
      let l := x.sinks.erase e
      some (s.setPerc h { x with sinks := if e.2.2 ≤ n then l else l ++ [(src, tag, e.2.2 - n)] })
    | none => none
/-- Data of a GET at the requester: it lands. -/
def State.kvLand (s : State) (h src off : Nat) (l : List Code) : Option State :=
  let n := 16 * l.length
  let s := s.bump (blkPERC h) F.PERC.BYTES_RECV.BYTES 0 n
  match s.cmds.find? (fun c => c.unit == .perc h && c.phase == .active && c.op == 3 && c.peer == src) with
  | none => some s
  | some c =>
    let a := c.word 2 + off
    match s.spanAdm (.perc h) a n true with
    | .wait => none
    | .refuse =>
      let b := s.firstRefused (.perc h) a n true
      some (((s.codesWrite (.perc h) c.mode a (l.take ((b - a) / 16)) (n / 64 + 1)).engineReject b true).failCmd c.id 0x72 b)
    | _ =>
      let s := ((s.codesWrite (.perc h) c.mode a l (n / 64 + 1)).percProg h).poisonPassed (blkPERC h) F.PERC.POISON_PASSED.COUNT l
      some (s.updCmd c.id (fun c =>
        let c := { c with bytes := c.bytes + n }
        if c.kvLen ≤ c.bytes then { c with cnt := 1, phase := .ending } else c))
/-- KV_DATA: data of a PUT at the server, or of a GET at the requester, at its offset. -/
def execKvData (t : Fin 18) (put : Bool) (off tag : Nat) (s : State) : Host.Outcome State Fault Refusal :=
  let m := MsgInfo.kvData put off tag
  .next (s.message t.val (if put then 0 else 2) 5 (msgFor m) (fun s hd i l =>
    match i with
    | .kvData p off tag =>
      if p ≠ put then some s
      else if put then s.kvTake (tlHub t.val) (hdrSrc hd) off tag (codesOf l)
      else s.kvLand (tlHub t.val) (hdrSrc hd) off (codesOf l)
    | _ => some s))
/-- KV_ACK: the reply to the request in progress, with its status (Table 11.5). -/
def execKvAck (t : Fin 18) (status : Nat) (s : State) : Host.Outcome State Fault Refusal :=
  .next (s.message t.val 2 6 (fun i => msgFor (.kvAck status (ackTag i)) i) (fun s hd i _ =>
    let h := tlHub t.val
    let status := match i with
      | .kvAck st _ => st
      | _ => 0
    match s.cmds.find? (fun c => c.unit == .perc h && c.phase == .active && (c.op == 3 || c.op == 4) && c.peer == hdrSrc hd) with
    | none => some s
    | some c => some ((s.updCmd c.id (fun c =>
        if status = 0 then (if c.op = 4 then { c with cnt := 1, bytes := c.kvLen, phase := .ending } else c)
        else { c with status := status, phase := .ending })).percProg h)))
/-- CACHE_HORIZON. -/
def State.cacheHorizon (s : State) (h : Nat) : Nat :=
  (((s.perc h).kvs.filter (·.run)).map (·.began)).foldl min s.now
/-- KV_CTL_WRITE (R274, R345). -/
def State.kvCtlWriteDo (s : State) (h : Fin 2) (rq : Requester) (v : Word) : State :=
  let b := blkPERC h.val
  (s.regGuard rq b F.PERC.KV_CTL.SERVE.reg (fun s =>
    if bit v.toNat 0 && s.fget blkGTC F.GTC.ROLE.ROLE != 4 then s else s.fset b F.PERC.KV_CTL.SERVE (bits v.toNat 0 1)))
def execKvCtlWrite (h : Fin 2) (rq : Requester) (v : Word) (s : State) : Host.Outcome State Fault Refusal := .next (s.kvCtlWriteDo h rq v)

end Sys2Proof.Machine
end

