-- ==== Sys2Proof/Machine/Collectives.lean ====
section
/-! DEFINITION. The collectives engines (R332-R344): records and groups, reductions and gathers over rings and grids,
SEND and RECV, layout epochs. A RING is a grid of one row. -/

namespace Sys2Proof.Machine

def State.coll (s : State) (h : Nat) : Coll := Sparse.get Coll.init s.colls h
def State.setColl (s : State) (h : Nat) (x : Coll) : State := { s with colls := Sparse.put Coll.init s.colls h x }
def State.coOp? (s : State) (h id : Nat) : Option CoOp := (s.coll h).ops.find? (fun o => o.cmd == id)
def State.updOp (s : State) (h id : Nat) (f : CoOp → CoOp) : State :=
  let x := s.coll h
  s.setColl h { x with ops := x.ops.map (fun o => if o.cmd = id then f o else o) }
/-- The command is in progress. -/
def State.coLive (s : State) (id : Nat) : Bool := (s.cmd? id).any (fun c => c.phase == .active)
/-- What operations are matched by: the group; for SEND and RECV the peer and the channel (R334, R338). -/
def coKey (op peer gid : Nat) : Nat := if op ≤ 3 then gid else gid + 65536 * (peer + 1) + (if op = 5 then 2 ^ 33 else 0)
/-- The peer's operation of SEND is RECV. -/
def coDual (op : Nat) : Nat := if op = 4 then 5 else if op = 5 then 4 else op

/-! ### Records (R332) -/

def Cmd.coRed (c : Cmd) : Nat := bits (c.word 0) 5 2
def Cmd.coIn (c : Cmd) : Nat := bits (c.word 0) 8 4
def Cmd.coWire (c : Cmd) : Nat := bits (c.word 0) 12 4
def Cmd.coPhase (c : Cmd) : Nat := bits (c.word 0) 34 2
def Cmd.coOut (c : Cmd) : Nat := bits (c.word 0) 36 4
def Cmd.coCount (c : Cmd) : Nat := bits (c.word 3) 0 40
def Cmd.coSeq (c : Cmd) : Nat := bits (c.word 5) 0 32
def Cmd.coLayout (c : Cmd) : Nat := bits (c.word 5) 32 16
def Cmd.coPeer (c : Cmd) : Nat := bits (c.word 4) 0 16
def Cmd.coChan (c : Cmd) : Nat := bits (c.word 4) 16 16
/-- The record of Table 14.6 has no reserved bit or value, misaligned address or value out of range. -/
def coOk (c : Cmd) : Bool :=
  let p2p := decide (4 ≤ c.op)
  bits (c.word 0) 7 1 == 0 && bits (c.word 0) 40 8 == 0 && c.word 1 % 64 == 0 && decide (c.word 1 < 2 ^ 49) &&
    c.word 2 % 64 == 0 && decide (c.word 2 < 2 ^ 49) && bits (c.word 3) 40 24 == 0 && c.coCount != 0 &&
    bits (c.word 5) 48 16 == 0 && c.word 6 == 0 && bits (c.word 7) 49 15 == 0 && c.cpl % 32 == 0 &&
    (if p2p then c.coRed == 0 && c.coIn == 0 && c.coWire == 0 && decide (c.coOut ≤ 1) && c.coCount % 64 == 0 &&
        decide (c.word 4 < 2 ^ 32)
     else c.word 4 % 64 == 0 && decide (c.word 4 < 2 ^ 49) &&
      if c.op = 2 then
        c.coRed == 0 && decide (c.coIn ≤ 5) &&
          (if c.coWire = 0 then c.coOut == c.coIn
           else decide (c.coIn ≤ 1) && decide (c.coOut ≤ 1) &&
            (c.coWire == 3 || c.coWire == 4 || ((c.coWire == 6 || c.coWire == 7) && c.coCount % 32 == 0)))
      else decide (c.coRed ≤ 2) && decide (c.coIn ≤ 1) && c.coWire == 0 && decide (c.coOut ≤ 1))

/-! ### Elements and codewords -/

/-- `n` elements of `size` bytes from `a`; an element in a poison codeword is poison. -/
def State.elemsAt (s : State) (a size n : Nat) : List (Option Nat) :=
  (List.range n).map (fun k =>
    if s.readPoison (a + size * k) size then none else some (s.viewNat (a + size * k) size))
/-- Elements as codewords; a poison element makes its codeword poison. -/
def packElems (size : Nat) (l : List (Option Nat)) : List Code :=
  let per := 16 / size
  (List.range ((l.length + per - 1) / per)).map (fun i =>
    let e := (l.drop (per * i)).take per
    if e.any Option.isNone then ⟨0, true⟩
    else ⟨leNat (e.flatMap (fun v => leBytes size (v.getD 0))), false⟩)
def unpackElems (size n : Nat) (l : List Code) : List (Option Nat) :=
  (List.range n).map (fun k =>
    let c := l.getD (size * k / 16) ⟨0, true⟩
    if c.poison then none else some (bits c.v (8 * (size * k % 16)) (8 * size)))
/-- Codewords filled up to whole payload blocks; what fills them is open. -/
def State.padCodes (s : State) (n : Nat) (l : List Code) : State × List Code :=
  let f := s.freeCodes (1 + (4 - l.length % 4) % 4)
  let k := n % 16
  let l := if k = 0 then l else l.mapIdx (fun i (c : Code) =>
    if i + 1 = l.length && !c.poison then ⟨(c.v + (f.2.getD 0 ⟨0, false⟩).v * 2 ^ (8 * k)) % 2 ^ 128, false⟩ else c)
  (f.1, l ++ f.2.drop 1)
def redElem (red : Nat) (r : Rnd) (a b : Option Nat) : Option Nat :=
  match a, b with
  | some a, some b => some (if red = 0 then add32 r a b else if red = 1 then min32 a b else max32 a b)
  | _, _ => none
/-- An input element as FP32. -/
def widen32 (fmt v : Nat) : Nat := if fmt = 1 then v * 2 ^ 16 else v

/-! ### Gathers of narrow formats (R336, R337) -/

def log2mag : FV → Option Int
  | .fin _ m e => some ((bitLen m : Int) - 1 + e)
  | _ => none
/-- The scale of a block of 32. -/
def mxScale (emax : Int) (l : List FV) : Nat :=
  if l.contains .nan then 0xFF
  else match l.filterMap log2mag with
    | [] => 0
    | x :: r => (min (max (r.foldl max x - emax + 127) 0) 254).toNat
/-- An FP32 element converted to an FP8 format under a scale; whether it saturated. -/
def toWire (fmt : Nat) (r : Rnd) (scale v : Nat) : Nat × Bool :=
  let x := (ofFP32 v).mul (.fin false 1 (127 - (scale : Int)))
  if fmt = 3 ∨ fmt = 6 then toFP8 fmtE4M3 none 0x7F r x else toFP8 fmtE5M2 (some 0x7C) 0x7E r x
/-- A chunk in its wire format, with the count of saturations. -/
def wireChunk (c : Cmd) (l : List (Option Nat)) : List Code × Nat :=
  let w := c.coWire
  if w = 0 then (packElems (sizeOf c.coIn) l, 0)
  else
    let l := l.map (fun (e : Option Nat) => e.map (widen32 c.coIn))
    let scale (b : Nat) : Nat :=
      if w < 6 then 127
      else mxScale (if w = 6 then 8 else 15) (((l.drop (32 * b)).take 32).filterMap (fun e => e.map ofFP32))
    let scales := (List.range (l.length / 32)).map scale
    let out := l.mapIdx (fun i (e : Option Nat) => e.map (toWire w (modeRound c.mode) (if w < 6 then 127 else scales.getD (i / 32) 0)))
    let vals := out.map (fun (e : Option (Nat × Bool)) => e.map (·.1)) ++ (if w < 6 then [] else scales.map some)
    (packElems 1 vals, (out.filter (fun (e : Option (Nat × Bool)) => e.any (·.2))).length)
/-- The bytes of a gathered chunk on the wire. -/
def wireBytes (c : Cmd) : Nat :=
  if c.op = 3 ∨ c.coWire = 0 then sizeOf c.coOut * c.coCount
  else c.coCount + (if 6 ≤ c.coWire then c.coCount / 32 else 0)
/-- A gathered chunk's elements in OUT_FMT. -/
def unwireChunk (c : Cmd) (l : List Code) : List (Option Nat) :=
  let w := c.coWire
  if c.op = 3 ∨ w = 0 then unpackElems (sizeOf c.coOut) c.coCount l
  else
    let all := unpackElems 1 (wireBytes c) l
    (List.range c.coCount).map (fun k =>
      let x : Option Nat := if w < 6 then some 127 else all.getD (c.coCount + k / 32) none
      match all.getD k none, x with
      | some v, some x =>
        some (narrow c.coOut (modeRound c.mode) (toFP32 .rne (if w < 6 then elemVal w v else scaled x (elemVal w v)))).1
      | _, _ => none)

/-! ### Accesses and messages -/

def State.coRead (s : State) (h : Nat) (c : Cmd) (a n : Nat) (k : State → Option State) : Option State :=
  match s.spanAdm (.coll h) a n false with
  | .wait => none
  | .refuse => some ((s.spanRefuseR (.coll h) a n).failCmd c.id 0x81 (s.firstRefused (.coll h) a n false))
  | _ => k (s.spanTouch (.coll h) a n)
/-- Elements written at `a`, block by block; a codeword with a poison element becomes poison. -/
def State.elemsWrite (s : State) (h mode a size : Nat) (l : List (Option Nat)) : State :=
  if l.all Option.isSome then s.spanWrite (.coll h) mode a (l.flatMap (fun v => leBytes size (v.getD 0)))
  else (cws a (size * l.length)).foldl (fun s w =>
    let lo := max a (16 * w)
    let hi := min (a + size * l.length) (16 * w + 16)
    let e := (l.drop ((lo - a) / size)).take ((hi - lo) / size)
    let bs := e.flatMap (fun v => leBytes size (v.getD 0))
    if e.any Option.isNone then (s.homeWrite (.coll h) mode lo bs true).bump (blkCOLL h) F.COLL.POISON_PASSED.COUNT
    else s.homeWrite (.coll h) mode lo bs false) s
/-- Chunk `q` written at DST. -/
def State.coWrite (s : State) (h : Nat) (c : Cmd) (q : Nat) (l : List (Option Nat)) (k : State → Option State) : Option State :=
  let size := sizeOf c.coOut
  let n := c.coCount * size
  let a := c.word 2 + q * n
  match s.spanAdm (.coll h) a n true with
  | .wait => none
  | .refuse =>
    let b := s.firstRefused (.coll h) a n true
    some (((s.elemsWrite h c.mode a size (l.take ((b - a) / size))).engineReject b true).failCmd c.id 0x82 b)
  | _ =>
    let s := (s.elemsWrite h c.mode a size l).updCmd c.id (fun c => { c with cnt := c.cnt + 1, bytes := c.bytes + n })
    k (s.updOp h c.id (fun o => { o with wrote := o.wrote ++ [q] }))
/-- The number an operation is sent from is fenced: it sends nothing (R346). -/
def State.coSilent (s : State) (self : Nat) : Bool := !s.numbers.contains self
/-- The fields of a message's header (R334): the operation's own, and the place of the data. -/
def coHdr (c : Cmd) (o : CoOp) (stage q off : Nat) : CollHdr :=
  ⟨o.gid % 65536, c.coSeq, c.op, c.coRed, c.coIn, c.coWire, c.coOut, c.coCount, if c.op ≤ 3 then o.n else 0, c.coPhase, c.coLayout,
   o.crc, stage, q, off⟩
/-- A list of codewords as messages of at most 64 KiB, from offset `off` of chunk `q` in a stage on. -/
def State.coMsgs (s : State) (h : Nat) (c : Cmd) (o : CoOp) (dst stage q off : Nat) : List Code → Nat → State
  | _, 0 => s
  | l, n + 1 =>
    if l.isEmpty || !s.coLive c.id then s
    else
      let m := l.take 4096
      match s.wireMsg h 0 dst o.self 2 (.coll (coHdr c o stage q off)) (blksOf m) with
      | none => s.failCmd c.id 0x83
      | some s =>
        let s := (s.bump (blkCOLL h) F.COLL.BYTES_SENT.BYTES 0 (16 * m.length)).poisonPassed (blkCOLL h)
          F.COLL.POISON_PASSED.COUNT m
        s.coMsgs h c o dst stage q (off + 65536) (l.drop 4096) n
/-- `n` bytes of chunk `q` in a stage, as codewords, go to position `p`. -/
def State.coSend (s : State) (h : Nat) (c : Cmd) (o : CoOp) (p stage q n : Nat) (l : List Code) : State :=
  if s.coSilent o.self || !s.coLive c.id then s
  else
    let r := s.padCodes n l
    r.1.coMsgs h c o (o.mem.getD p 0) stage q 0 r.2 (r.2.length / 4096 + 1)
/-- CO_ABORT, with OP, GROUP_ID and OP_SEQ, to every other member (R341). -/
def State.coTell (s : State) (h : Nat) (c : Cmd) (o : CoOp) : State :=
  if s.coSilent o.self then s
  else (o.mem.filter (· != o.self)).foldl (fun s d =>
    (s.wireMsg h 1 d o.self 7 (.coAbort c.op (o.gid % 65536) c.coSeq (c.status == 0x84 && decide (4 ≤ c.op))) []).getD s) s

/-! ### Chunks (R335, R336) -/

def CoOp.rows (o : CoOp) : Nat := o.n / o.cols
def CoOp.row (o : CoOp) : Nat := o.pos / o.cols
def CoOp.col (o : CoOp) : Nat := o.pos % o.cols
/-- The next member of the row, and of the column. -/
def CoOp.east (o : CoOp) : Nat := o.row * o.cols + (o.col + 1) % o.cols
def CoOp.south (o : CoOp) : Nat := (o.row + 1) % o.rows * o.cols + o.col
def CoOp.handled (o : CoOp) (stage : Nat) : Nat := (o.held.filter (fun e => e.1 == stage)).length
def coMark (stage q : Nat) (o : CoOp) : CoOp :=
  { o with held := o.held ++ [(stage, q, [])], parts := o.parts.filter (fun p => p.stage != stage || p.chunk != q) }
/-- The bytes of a chunk in a stage. -/
def coBytes (c : Cmd) (stage : Nat) : Nat := if stage ≤ 1 then 4 * c.coCount else wireBytes c
/-- The staging slot of a message (R339). -/
def State.coSlot (s : State) (h i : Nat) : Nat :=
  stageAddr h (s.fget (blkCOLL h) F.COLL.STAGE.QSEL) (s.fget (blkCOLL h) F.COLL.STAGE.BANK) i
/-- What the staging slot of a part answers to a read. -/
def State.coSlotAdm (s : State) (h : Nat) (p : CoPart) : Adm := s.stageAdm (.coll h) (s.coSlot h p.slot) (16 * p.len) false
/-- A part as it is read from staging. -/
def State.coFetch (s : State) (h : Nat) (p : CoPart) : State × List Code :=
  let s := s.spanTouch (.coll h) (s.coSlot h p.slot) (16 * p.len)
  (s, s.viewCodes (s.coSlot h p.slot) (16 * p.len))
/-- The parts of a chunk, in order, once all its messages are in. -/
def CoOp.whole (o : CoOp) (c : Cmd) (stage q : Nat) : Option (List CoPart) :=
  let n := coBytes c stage
  let l := (List.range ((n + 65535) / 65536)).map (fun i =>
    o.parts.find? (fun p => p.stage == stage && p.chunk == q && p.off == 65536 * i &&
      decide (min 65536 (n - 65536 * i) ≤ 16 * p.len)))
  if l.all Option.isSome then some (l.filterMap id) else none
/-- The own chunk of a gather sets out: down the column, and along the row. -/
def State.coScatter (s : State) (h : Nat) (c : Cmd) (o : CoOp) (l : List Code) : State :=
  let n := wireBytes c
  let s := if 1 < o.rows then s.coSend h c o o.south 2 o.pos n l else s
  s.coSend h c o o.east 3 o.pos n l
/-- The own chunk is final: narrowed, written, and for an ALLREDUCE gathered. -/
def State.coResult (s : State) (h : Nat) (c : Cmd) (o : CoOp) (l : List (Option Nat)) : Option State :=
  let out := l.map (fun (e : Option Nat) => e.map (fun v => (narrow c.coOut (modeRound c.mode) v).1))
  s.coWrite h c o.pos out (fun s => some (if c.op = 3 then s.coScatter h c o (packElems (sizeOf c.coOut) out) else s))
/-- The own elements of chunk `q`, widened. -/
def State.coOwn (s : State) (h : Nat) (c : Cmd) (q : Nat) (k : State → List (Option Nat) → Option State) : Option State :=
  let size := sizeOf c.coIn
  let a := c.word 1 + q * c.coCount * size
  s.coRead h c a (c.coCount * size) (fun s =>
    k s ((s.elemsAt a size c.coCount).map (fun (e : Option Nat) => e.map (widen32 c.coIn))))
/-- A row's sum of chunk `q` is complete: the final result where there is one row; else the member of the row after the
chunk's own sends it down the column, and the others hold it. -/
def State.coRowSum (s : State) (h : Nat) (c : Cmd) (o : CoOp) (q : Nat) (l : List (Option Nat)) : Option State :=
  if o.rows = 1 then s.coResult h c o l
  else if o.row = (q / o.cols + 1) % o.rows then some (s.coSend h c o o.south 1 q (4 * c.coCount) (packElems 4 l))
  else some (s.updOp h c.id (fun o => { o with held := o.held ++ [(8, q, l)] }))
/-- A whole chunk that has arrived takes its effect; none where it has to wait. -/
def State.coTake (s : State) (h : Nat) (c : Cmd) (o : CoOp) (stage q : Nat) (codes : List Code) : Option State :=
  let mark (s : State) : Option State := some ((s.updOp h c.id (coMark stage q)))
  let red (a b : List (Option Nat)) : List (Option Nat) := List.zipWith (redElem c.coRed (modeRound c.mode)) a b
  let inc := unpackElems 4 c.coCount codes
  if stage = 0 then
    s.coOwn h c q (fun s x =>
      let sum := red inc x
      if q % o.cols = o.col then (s.coRowSum h c o q sum).bind mark
      else mark (s.coSend h c o o.east 0 q (4 * c.coCount) (packElems 4 sum)))
  else if stage = 1 then
    match o.held.find? (fun e => e.1 == 8 && e.2.1 == q) with
    | none => none
    | some e =>
      let sum := red inc e.2.2
      if q = o.pos then (s.coResult h c o sum).bind mark
      else mark (s.coSend h c o o.south 1 q (4 * c.coCount) (packElems 4 sum))
  else
    s.coWrite h c q (unwireChunk c codes) (fun s =>
      let n := wireBytes c
      let s := if stage = 2 ∧ (o.row + 1) % o.rows ≠ q / o.cols then s.coSend h c o o.south 2 q n codes else s
      let s := if stage = 2 ∨ (o.col + 1) % o.cols ≠ q % o.cols then s.coSend h c o o.east 3 q n codes else s
      mark s)
/-- What an operation sends before anything arrives. -/
def State.coStart (s : State) (h : Nat) (c : Cmd) (o : CoOp) : Option State :=
  let done (s : State) : Option State := some (s.updOp h c.id (fun o => { o with started := true }))
  if c.op = 2 then
    let size := sizeOf c.coIn
    let a := c.word 1 + o.pos * c.coCount * size
    s.coRead h c a (c.coCount * size) (fun s =>
      let w := wireChunk c (s.elemsAt a size c.coCount)
      s.coWrite h c o.pos (unwireChunk c w.1) (fun s =>
        done ((s.countConv (coreQ (c.thread / 64)) w.2).coScatter h c o w.1)))
  else
    ((List.range o.rows).foldlM (fun (s : State) a =>
      let q := a * o.cols + (o.col + o.cols - 1) % o.cols
      if s.coLive c.id then
        s.coOwn h c q (fun s x => some (s.coSend h c o o.east 0 q (4 * c.coCount) (packElems 4 x)))
      else some s) s).bind done
/-- SEND, once its peer is ready: SRC is read and goes out. -/
def State.coGive (s : State) (h : Nat) (c : Cmd) (o : CoOp) : Option State :=
  s.coRead h c (c.word 1) c.coCount (fun s =>
    let s := s.coSend h c o 1 0 0 c.coCount (s.viewCodes (c.word 1) c.coCount)
    some (if s.coLive c.id then s.updCmd c.id (fun c => { c with cnt := 1, bytes := c.coCount, phase := .ending }) else s))
/-- RECV: a part that has arrived lands. -/
def State.coLand (s : State) (h : Nat) (c : Cmd) (p : CoPart) : Option State :=
  let a := c.word 2 + p.off
  let n := 16 * p.len
  match s.coSlotAdm h p, s.spanAdm (.coll h) a n true with
  | .refuse, _ => some ((s.refusedAt (s.firstRefused (.coll h) (s.coSlot h p.slot) n false)).failCmd c.id 0x82 (s.coSlot h p.slot))
  | .wait, _ => none
  | _, .wait => none
  | _, .refuse =>
    let b := s.firstRefused (.coll h) a n true
    let r := s.coFetch h p
    some (((r.1.codesWrite (.coll h) c.mode a (r.2.take ((b - a) / 16)) (n / 64 + 1)).engineReject b true).failCmd c.id 0x82 b)
  | _, _ =>
    let r := s.coFetch h p
    let s := (r.1.codesWrite (.coll h) c.mode a r.2 (n / 64 + 1)).poisonPassed (blkCOLL h) F.COLL.POISON_PASSED.COUNT r.2
    let s := (s.updOp h c.id (fun o => { o with parts := o.parts.erase p })).updCmd c.id (fun c => { c with bytes := c.bytes + n })
    some (if c.bytes + n < c.coCount then s else s.updCmd c.id (fun c => { c with cnt := 1, phase := .ending }))
/-- A whole chunk is read from staging, part by part, and takes its effect; a slot that another has taken ends the operation. -/
def State.coChunk (s : State) (h : Nat) (c : Cmd) (o : CoOp) (stage q : Nat) (l : List CoPart) : Option State :=
  match l.find? (fun p => s.coSlotAdm h p == .refuse) with
  | some p => some ((s.refusedAt (s.firstRefused (.coll h) (s.coSlot h p.slot) (16 * p.len) false)).failCmd c.id 0x82 (s.coSlot h p.slot))
  | none =>
    if l.any (fun p => s.coSlotAdm h p == .wait) then none
    else
      let r := l.foldl (fun (r : State × List Code) p =>
        let x := r.1.coFetch h p
        (x.1, r.2 ++ x.2)) (s, [])
      r.1.coTake h c o stage q r.2
/-- Everything the operation has to receive is handled, and its output written. -/
def CoOp.over (o : CoOp) (c : Cmd) : Bool :=
  let red := c.op = 2 ∨ (o.handled 0 = o.rows * (o.cols - 1) ∧ o.handled 1 = o.rows - 1)
  let gat := c.op = 1 ∨ (o.handled 2 = o.rows - 1 ∧ o.handled 3 = o.rows * (o.cols - 1))
  decide (c.op ≤ 3 ∧ o.started ∧ red ∧ gat ∧ o.wrote.contains o.pos)
/-- One step of an operation; none where it waits. -/
def State.coStep (s : State) (h id : Nat) : Option State :=
  match s.cmd? id, s.coOp? h id with
  | some c, some o =>
    if c.phase ≠ .active then none
    else if c.op = 4 then (if o.started then s.coGive h c o else none)
    else if c.op = 5 then o.parts.findSome? (fun p => s.coLand h c p)
    else if !o.started then s.coStart h c o
    else if o.over c then some (s.updCmd id (fun c => { c with phase := .ending }))
    else ((o.parts.map (fun (p : CoPart) => (p.stage, p.chunk))).eraseDups).findSome? (fun e =>
      (o.whole c e.1 e.2).bind (fun l => s.coChunk h c o e.1 e.2 l))
  | _, _ => none
def State.coProg (s : State) (h id : Nat) : State := s.updOp h id (fun o => { o with progAt := s.clk.arith })
/-- An operation goes on with what it has. -/
def State.coPump (s : State) (h id : Nat) : Nat → State
  | 0 => s
  | n + 1 => match s.coStep h id with
    | none => s
    | some s => (s.coProg h id).coPump h id n
def State.coRun (s : State) (h id : Nat) : State :=
  s.coPump h id (4 + 2 * ((s.coOp? h id).map (fun o => o.parts.length)).getD 0)

/-! ### Messages (R334, R338, R341, R343) -/

/-- A message agrees with the receiver's own operation. -/
def coMatches (c : Cmd) (o : CoOp) (hd : CollHdr) : Bool :=
  if 4 ≤ c.op then hd.count == c.coCount && hd.layout == c.coLayout
  else hd.op == c.op && hd.red == c.coRed && hd.inFmt == c.coIn && hd.wire == c.coWire && hd.outFmt == c.coOut &&
    hd.count == c.coCount && hd.n == o.n && hd.phase == c.coPhase && hd.layout == c.coLayout && hd.crc == o.crc
/-- A message reaches its operation. -/
def State.coDeliver (s : State) (h : Nat) (o : CoOp) (m : CoMsg) : State :=
  match s.cmd? o.cmd with
  | none => s
  | some c =>
    if c.phase ≠ .active then s
    else if !coMatches c o m.hdr then s.failCmd c.id 0x84
    else if m.ready then (s.updOp h c.id (fun o => { o with started := true })).coProg h c.id
    else
      (s.updOp h c.id (fun o => { o with parts := o.parts ++ [CoPart.mk m.hdr.stage m.hdr.chunk m.hdr.off m.len m.slot] })).coProg h c.id
/-- The operation that a message or an abort is for. -/
def State.coFind (s : State) (h key seq : Nat) : Option CoOp :=
  (s.coll h).ops.find? (fun o => o.gid == key && o.seq == seq)
/-- The engine's staging: its banks, and the messages they hold. -/
def State.coStage (s : State) (h : Nat) : Bool :=
  let b := blkCOLL h
  s.stageOk h (s.fget b F.COLL.STAGE.QSEL) (s.fget b F.COLL.STAGE.BANK) (s.fget b F.COLL.STAGE.NBANK)
def State.coStaged (s : State) (h : Nat) : List Nat :=
  let x := s.coll h
  (x.early.filter (fun m => m.len != 0)).map (·.slot) ++ x.ops.flatMap (fun o => o.parts.map (·.slot))
/-- A message's payload enters staging; none where there is no room, or the bank makes it wait. The second says whether the bank
took it. -/
def State.coPut (s : State) (h : Nat) (m : CoMsg) (l : List Code) (k : State → CoMsg → Bool → State) : Option State :=
  if l.isEmpty then some (k s m true)
  else match freeSlot (512 * s.fget (blkCOLL h) F.COLL.STAGE.NBANK) (s.coStaged h) with
    | none => none
    | some n =>
      let a := s.coSlot h n
      match s.stageAdm (.coll h) a (16 * l.length) true with
      | .wait => none
      | .refuse => some (k (s.refusedAt (s.firstRefused (.coll h) a (16 * l.length) true)) m false)
      | _ => some (k (s.codesWrite (.coll h) 0 a l 1025) { m with len := l.length, slot := n } true)
/-- A message of an earlier epoch than the engine's. -/
def State.coOld (s : State) (h layout : Nat) : Bool :=
  decide (32768 ≤ (layout + 65536 - s.fget (blkCOLL h) F.COLL.LAYOUT.CUR) % 65536)
/-- A COLL_DATA or COLL_READY message: to its operation; without one, kept, or where its epoch is past, answered. -/
def State.coArrive (s : State) (t : Nat) (src dst : Nat) (m : CoMsg) (l : List Code) : Option State :=
  let h := tlHub t
  match s.coFind h m.key m.hdr.seq with
  | some o => s.coPut h m l (fun s m ok => if ok then (s.coDeliver h o m).coRun h o.cmd else s.failCmd o.cmd 0x82)
  | none =>
    if s.coOld h m.hdr.layout then
      some (if s.numbers.contains dst || dst == 0xFFFF then
          (s.wireMsg h 1 src (if dst = 0xFFFF then s.devNum else dst) 7 (.coAbort (coDual m.hdr.op) m.hdr.gid m.hdr.seq true) []).getD s
        else s)
    else s.coPut h m l (fun s m ok =>
      let x := s.coll h
      if ok then s.setColl h { x with early := x.early ++ [m] } else s)
/-- COLL_DATA. -/
def execCollData (t : Fin 18) (hd : CollHdr) (s : State) : Host.Outcome State Fault Refusal :=
  .next (s.message t.val 0 2 (msgFor (.coll hd)) (fun s w i l =>
    let s := s.bump (blkCOLL (tlHub t.val)) F.COLL.BYTES_RECV.BYTES 0 (64 * l.length)
    match i with
    | .coll hd => s.coArrive t.val (hdrSrc w) (hdrDst w) ⟨coKey (coDual hd.op) (hdrSrc w) hd.gid, hd, false, 0, 0⟩ (codesOf l)
    | _ => some s))
/-- COLL_READY: the peer's RECV has begun. -/
def execCollReady (t : Fin 18) (chan seq count layout : Nat) (s : State) : Host.Outcome State Fault Refusal :=
  .next (s.message t.val 1 3 (readyFor chan seq count layout) (fun s w i _ =>
    match i with
    | .coll hd => s.coArrive t.val (hdrSrc w) (hdrDst w) ⟨coKey 4 (hdrSrc w) hd.gid, { hd with op := 5 }, true, 0, 0⟩ []
    | _ => some s))
/-- CO_ABORT of the sender's operation: a mismatch where it answers a message of an earlier epoch or of another COUNT. -/
def execCoAbort (t : Fin 18) (op gid seq : Nat) (mism : Bool) (s : State) : Host.Outcome State Fault Refusal :=
  .next (s.message t.val 1 7 (msgFor (.coAbort op gid seq mism)) (fun s w i _ =>
    let h := tlHub t.val
    match i with
    | .coAbort op gid seq mism =>
      let key := coKey (coDual op) (hdrSrc w) gid
      (match s.coFind h key seq with
      | some o => some (if s.coLive o.cmd then s.failCmd o.cmd (if mism then 0x84 else 0x86) else s)
      | none =>
        let x := s.coll h
        some (if x.aborts.contains (key, seq, mism) then s else s.setColl h { x with aborts := x.aborts ++ [(key, seq, mism)] }))
    | _ => some s))

/-! ### Beginning (R333, R342, R344) -/

/-- The operation is in progress: messages that came early reach it, a kept abort ends it. -/
def State.coEnter (s : State) (h : Nat) (o : CoOp) : State :=
  let x := s.coll h
  let mine (m : CoMsg) : Bool := m.key == o.gid && m.hdr.seq == o.seq
  let s := s.setColl h { x with ops := x.ops ++ [o], early := x.early.filter (fun m => !mine m),
                                aborts := x.aborts.filter (fun a => a.1 != o.gid || a.2.1 != o.seq) }
  match x.aborts.find? (fun a => a.1 == o.gid && a.2.1 == o.seq) with
  | some a => s.failCmd o.cmd (if a.2.2 then 0x84 else 0x86)
  | none =>
    if !s.coStage h then s.failCmd o.cmd 0x82
    else ((x.early.filter mine).foldl (fun s m => s.coDeliver h o m) s).coRun h o.cmd
/-- The header of Table 14.7 is as it may be. -/
def groupOk (g : Nat) : Bool :=
  let n := bits g 16 16
  let grid := bits g 32 8
  let pol := bits g 40 8
  let np := bits g 48 8
  let rows := bits g 64 16
  decide (2 ≤ n ∧ n ≤ 1024 ∧ grid ≤ 1 ∧ pol ≤ 1) && (if pol = 0 then np == 1 else decide (1 ≤ np ∧ np ≤ 4)) && bits g 56 8 == 0 &&
    (if grid = 0 then rows == 0 else decide (2 ≤ rows) && n % rows == 0 && decide (2 ≤ n / rows)) && bits g 80 432 == 0
/-- The numbers of this device that a member list may hold. -/
def State.coNumbers (s : State) : List Nat :=
  (if s.devNum = 0xFFFF then [] else [s.devNum]) ++
    ((List.range 8).filter (fun i => s.fbit blkGTC F.GTC.ALIAS.VALID (8 * i))).map (fun i => s.fget blkGTC F.GTC.ALIAS.NUM (8 * i))
/-- A reduction or gather: the group record is read and the own position found. -/
def State.coGroup (s : State) (h : Nat) (c : Cmd) : State :=
  let a := c.word 4
  s.engRead c a 64 (fun s g =>
    let n := bits g 16 16
    let np := bits g 48 8
    if !groupOk g || decide (np ≤ c.coPhase) then s.failCmd c.id 0x80 a
    else s.engRead c (a + 64) (2 * n * np) (fun s l =>
      let mem := (List.range n).map (fun p => bits l (16 * (n * c.coPhase + p)) 16)
      match (List.range n).filter (fun p => s.coNumbers.contains (mem.getD p 0)) with
      | [p] =>
        let cols := if bits g 32 8 = 0 then n else n / bits g 64 16
        let crc := crc64 (leBytes 64 g ++ leBytes (2 * n * np) l)
        s.coEnter h ⟨c.id, coKey c.op 0 (bits g 0 16), c.coSeq, n, cols, mem, p, mem.getD p 0, crc, [], [], [], false, s.clk.arith⟩
      | _ => s.failCmd c.id 0x80 a))
/-- SEND and RECV: RECV tells its peer that it is ready. -/
def State.coPair (s : State) (h : Nat) (c : Cmd) : State :=
  let o : CoOp := ⟨c.id, coKey c.op c.coPeer c.coChan, c.coSeq, 2, 2, [s.devNum, c.coPeer], 0, s.devNum, 0, [], [], [], false, s.clk.arith⟩
  let s := s.coEnter h o
  if c.op = 5 ∧ s.coLive c.id ∧ !s.coSilent s.devNum then
    (match s.wireMsg h 1 c.coPeer s.devNum 3 (.coll (coHdr c o 0 0 0)) [] with
      | some s => s
      | none => s.failCmd c.id 0x83)
  else s
/-- How an operation of layout epoch LAYOUT meets the engine's: 0 it runs, 4 it is stale, 5 it is early. -/
def State.layoutOf (s : State) (h : Nat) (c : Cmd) : Nat :=
  let d := (c.coLayout + 65536 - s.fget (blkCOLL h) F.COLL.LAYOUT.CUR) % 65536
  if c.dropped ≠ 0 ∧ c.coLayout = c.dropped - 1 then 4
  else if c.dropped ≠ 0 ∧ c.coLayout = c.dropped % 65536 then 5
  else if d = 0 then 0 else if d < 32768 then 5 else 4
/-- An operation record begins: at most eight are in progress. -/
def State.coBegin (s : State) (h op : Nat) : State :=
  if 8 ≤ (s.activeOf (.coll h)).length then s
  else
    let t := s.beginCmd (.coll h) (· == op) (fun o => o == 0 || 5 < o) (fun s c =>
      if !coOk c then s.failCmd c.id 0x80
      else if s.layoutOf h c ≠ 0 then s.updCmd c.id (fun x => { x with status := s.layoutOf h c, phase := .ending })
      else if op ≤ 3 then s.coGroup h c else s.coPair h c)
    -- an access that has to wait holds the record at the head of the queue
    if t.cmds.any (fun c => c.unit == .coll h && c.phase == .active && !(t.coll h).ops.any (fun o => o.cmd == c.id)) then s else t
def execReduceScatter (h : Fin 2) (s : State) : Host.Outcome State Fault Refusal := .next (s.coBegin h.val 1)
def execAllgather (h : Fin 2) (s : State) : Host.Outcome State Fault Refusal := .next (s.coBegin h.val 2)
def execAllreduce (h : Fin 2) (s : State) : Host.Outcome State Fault Refusal := .next (s.coBegin h.val 3)
def execSend (h : Fin 2) (s : State) : Host.Outcome State Fault Refusal := .next (s.coBegin h.val 4)
def execRecv (h : Fin 2) (s : State) : Host.Outcome State Fault Refusal := .next (s.coBegin h.val 5)

/-! ### Ends (R340, R341, R343) -/

/-- A re-shard has drained when no operation of its epoch that was accepted before it is left. -/
def State.coDrained (s : State) (h : Nat) : State :=
  let b := blkCOLL h
  let cur := s.fget b F.COLL.LAYOUT.CUR
  if s.fbit b F.COLL.LAYOUT.DRAINING && s.cmds.all (fun c => c.unit != .coll h || c.dropped == cur + 1) then
    ((s.fset b F.COLL.LAYOUT.CUR (cur + 1)).fset b F.COLL.LAYOUT.DRAINING 0).fset b F.COLL.LAYOUT.EPOCH_DRAINED 1
  else s
/-- COLL_COMPLETE: an operation goes on with what it has; one that has ended tells the other members if on a fault, and
writes its record. -/
def execCollComplete (id : Nat) (s : State) : Host.Outcome State Fault Refusal :=
  .next (match s.cmd? id with
    | none => (s.coDrained 0).coDrained 1
    | some c =>
      match c.unit with
      | .coll h =>
        if !s.alive then s
        else
          let s := if c.phase = .active then s.coRun h id else s
          match s.cmd? id with
          | none => s
          | some c =>
            if c.phase = .active ∨ c.phase = .queued then s
            else
              let x := s.coll h
              let s := match s.coOp? h id with
                | some o =>
                  let s := s.setColl h { x with ops := x.ops.filter (fun o => o.cmd != id) }
                  if c.good then s else s.coTell h c o
                | none => s
              (s.finishCmd id).coDrained h
      | _ => s)
/-- CO_STALL: the operation has made no progress for the limit. -/
def execCoStall (id : Nat) (s : State) : Host.Outcome State Fault Refusal :=
  .next (match s.cmd? id with
    | none => s
    | some c =>
      match c.unit with
      | .coll h =>
        match s.coOp? h id with
        | some o =>
          if s.alive && c.phase == .active &&
              decide (o.progAt + 65536 * s.fget (blkCOLL h) F.COLL.COLL_LIMIT.LIMIT ≤ s.clk.arith) then
            s.failCmd id 0x85
          else s
        | none => s
      | _ => s)
/-- RESHARD: a write of LAYOUT_CMD. -/
def State.reshardDo (s : State) (h : Fin 2) (v : Word) : State :=
  let b := blkCOLL h.val
  let w := v.toNat
  (if !bit w 16 then s
    else if s.fbit b F.COLL.LAYOUT.DRAINING || bits w 0 16 != (s.fget b F.COLL.LAYOUT.CUR + 1) % 65536 then
      s.fset b F.COLL.LAYOUT.LAYOUT_REJECT 1
    else (s.fset b F.COLL.LAYOUT.DRAINING 1).coDrained h.val)
def execReshard (h : Fin 2) (v : Word) (s : State) : Host.Outcome State Fault Refusal := .next (if s.regsOn then s.reshardDo h v else s)
/-- EARLY_MSGS. -/
def State.earlyMsgs (s : State) (h : Nat) : Nat := (s.coll h).early.length

end Sys2Proof.Machine
end

