-- ==== Sys2Proof/Machine/Cellar.lean ====
section
/-! DEFINITION. The Cellar (R278-R297): handing banks over, the cache switched on and off, the range engine, the march
test. -/

namespace Sys2Proof.Machine

def State.cellarSt (s : State) (q : Nat) : CellarSt := Sparse.get CellarSt.init s.cellars q
def State.setCellar (s : State) (q : Nat) (x : CellarSt) : State := { s with cellars := Sparse.put CellarSt.init s.cellars q x }
def State.bankSet (s : State) (q b : Nat) (f : Fld) (v : Nat) : State := s.fset (blkCELLAR q) f v (8 * b)
def State.setBankTr (s : State) (q b : Nat) (t : Option BankTr) : State :=
  { s with bankTrs := Sparse.put none s.bankTrs (q * 64 + b) t }

/-! ### Handing a bank over (R282-R284, R294) -/

/-- Owner and mode are a pair of Tables 12.2 and 12.3, the owner one of the bank's quarter. -/
def ownerOk (kind id mode : Nat) : Bool :=
  (if kind = 2 ∨ kind = 3 then true else if kind = 4 then decide (id < 4) else id == 0) &&
    (if mode = 0 then kind == 1
     else if mode = 1 then kind == 0 || decide (2 ≤ kind ∧ kind ≤ 6)
     else if mode = 2 then kind == 4
     else kind == 2 || kind == 3 || kind == 5)
/-- What a write of BANK_OWN is refused for (R283). -/
def State.bankRefuses (s : State) (q b v : Nat) : Bool :=
  let kind := bits v 0 3
  let mode := bits v 8 2
  let pow := bits v 10 2
  let on := s.cacheOn q || s.fbit (blkCELLAR q) F.CELLAR.CACHE_STATUS.DISABLING
  let old := s.bankOwn q b F.CELLAR.BANK_OWN.MODE
  pow == 3 || !ownerOk kind (bits v 4 4) mode || (on && (mode == 0) != (old == 0)) ||
    (s.cacheOn q && old == 0 && pow != s.bankOwn q b F.CELLAR.BANK_OWN.POWER) ||
    s.bankOwn q b F.CELLAR.BANK_STATUS.BUSY != 0 || s.bankOwn q b F.CELLAR.BANK_STATUS.FAILED != 0
/-- BANK_OWN_WRITE: the handover begins, or the whole write is refused. -/
def State.bankWrite (s : State) (rq : Requester) (q b v : Nat) : State :=
  s.regGuard rq (blkCELLAR q) (F.CELLAR.BANK_OWN.MODE.reg + 8 * b) (fun s =>
    if s.bankRefuses q b v then s.fset (blkCELLAR q) F.CELLAR.CELLAR_STATUS.HANDOVER_REJECT 1
    else (s.setBankTr q b (some ⟨bits v 0 3, bits v 4 4, bits v 8 2, bits v 10 2, bit v 12⟩)).bankSet q b
      F.CELLAR.BANK_STATUS.BUSY 1)
def execBankOwnWrite (q : Fin 4) (b : Fin 56) (rq : Requester) (v : Word) (s : State) : Host.Outcome State Fault Refusal :=
  .next (s.bankWrite rq q.val b.val v.toNat)
def State.zeroBank (s : State) (q b : Nat) : State :=
  { s with mem := s.mem.zero (bankAddr q b 0) (bankAddr q b 0x2000000) }
/-- The lines of a bank of the cache are gone. -/
def State.dropBankLines (s : State) (q b : Nat) : State :=
  let lo := (q * 64 + b) * 8192 * 16
  let gone := (s.clines.filter (fun (e : Nat × CLine) => lo ≤ e.1 && e.1 < lo + 8192 * 16)).map (fun (e : Nat × CLine) => e.2.line - 1)
  let s := gone.foldl (fun s l => { s with cmem := s.cmem.copyLine (Mem.mk [] [] []) l }) s
  { s with clines := Sparse.clearRange s.clines lo (lo + 8192 * 16) }
/-- BANK_TRANSITION_DONE: accepted accesses are complete, the bank is zeroed where it is to be, and on its return from OFF;
the new owner, mode and power state take effect. -/
def State.bankDone (s : State) (q b : Nat) (t : BankTr) : State :=
  let off := s.bankOwn q b F.CELLAR.BANK_STATUS.POWER_STATE == 2
  let s := if t.zero || (off && t.power != 2) then s.zeroBank q b else s
  let s := if t.power = 2 then s.dropBankLines q b else s
  let s := if t.mode = 0 ∧ s.bankOwn q b F.CELLAR.BANK_OWN.MODE ≠ 0 then s.bankSet q b F.CELLAR.BANK_STATUS.INV 0 else s
  let s := ((s.bankSet q b F.CELLAR.BANK_OWN.OWNER_KIND t.kind).bankSet q b F.CELLAR.BANK_OWN.OWNER_ID t.id).bankSet q b
    F.CELLAR.BANK_OWN.MODE t.mode
  let s := (s.bankSet q b F.CELLAR.BANK_OWN.POWER t.power).bankSet q b F.CELLAR.BANK_STATUS.POWER_STATE t.power
  (s.bankSet q b F.CELLAR.BANK_STATUS.BUSY 0).setBankTr q b none
def execBankTransitionDone (q : Fin 4) (b : Fin 56) (s : State) : Host.Outcome State Fault Refusal :=
  .next (match s.bankTr q.val b.val with
    | some t => if s.alive then s.bankDone q.val b.val t else s
    | none => s)

/-! ### The cache (R288, R289) -/

/-- A write of ENABLE = 1. -/
def State.cacheEnable (s : State) (q : Nat) : State :=
  let b := blkCELLAR q
  let dis := s.fbit b F.CELLAR.CACHE_STATUS.DISABLING
  let bs := s.cacheBanks q
  if s.cacheOn q && !dis then s
  else if dis || bs.isEmpty || bs.any (fun i => s.bankOwn q i F.CELLAR.BANK_STATUS.INV == 0) then
    s.fset b F.CELLAR.CACHE_STATUS.ENABLE_REJECT 1
  else (s.fset b F.CELLAR.CACHE_CTL.ENABLE 1).fset b F.CELLAR.CACHE_STATUS.ENABLED 1
/-- A write of ENABLE = 0. -/
def State.cacheDisable (s : State) (q : Nat) : State :=
  let b := blkCELLAR q
  if s.cacheOn q && !s.fbit b F.CELLAR.CACHE_STATUS.DISABLING then
    (s.fset b F.CELLAR.CACHE_CTL.ENABLE 0).fset b F.CELLAR.CACHE_STATUS.DISABLING 1
  else s
def execCacheEnable (q : Fin 4) (s : State) : Host.Outcome State Fault Refusal := .next (s.cacheEnable q.val)
def execCacheDisable (q : Fin 4) (s : State) : Host.Outcome State Fault Refusal := .next (s.cacheDisable q.val)
/-- The ways of quarter `q` that hold lines: way key and line. -/
def State.linesOf (s : State) (q : Nat) : List (Nat × CLine) :=
  s.clines.filter (fun (e : Nat × CLine) => e.1 / (64 * 8192 * 16) == q)
/-- A line that the cache lets go of stays in the storage of its way, which a handover out of CACHE mode shows (R284); where a
way lies in its bank is the model's choice (log entry 68). -/
def State.dropLine (s : State) (key line : Nat) : State :=
  let bank := key / (8192 * 16)
  { s with mem := s.mem.moveLine s.cmem line ((cellarBase + (56 * (bank / 64) + bank % 64) * 0x2000000) / 256 + key % (8192 * 16))
           clines := Sparse.put CLine.init s.clines key CLine.init, cmem := s.cmem.copyLine (Mem.mk [] [] []) line }
/-- One held line, as the range engine or a disable acts on it: written back when it is dirty and `write`, removed when
`drop`. -/
def State.actLine (s : State) (q : Nat) (write drop : Bool) (e : Nat × CLine) : State :=
  let line := e.2.line - 1
  let s := if e.2.dirty && write then s.writeBack q (e.1 / (8192 * 16) % 64) line true else s
  let s := if e.2.dirty && !write && drop then s.bump (blkCELLAR q) F.CELLAR.RANGE_STATUS.DISCARDED else s
  if drop then s.dropLine e.1 line
  else { s with clines := Sparse.put CLine.init s.clines e.1 { e.2 with dirty := e.2.dirty && !write } }
/-- CACHE_DISABLE_DONE: the range engine has finished, every dirty line is written back, every line invalid; the stack
controllers are the home. -/
def State.cacheOff (s : State) (q : Nat) : State :=
  let b := blkCELLAR q
  if s.fbit b F.CELLAR.CACHE_STATUS.DISABLING && !s.fbit b F.CELLAR.RANGE_STATUS.BUSY then
    let s := (s.linesOf q).foldl (fun s e => s.actLine q true true e) s
    (s.fset b F.CELLAR.CACHE_STATUS.ENABLED 0).fset b F.CELLAR.CACHE_STATUS.DISABLING 0
  else s
def execCacheDisableDone (q : Fin 4) (s : State) : Host.Outcome State Fault Refusal :=
  .next (if s.alive then s.cacheOff q.val else s)
/-- WRITEBACK_ACK: the stack controller has acknowledged a line's write-back; its buffer entry is free. -/
def execWritebackAck (q : Fin 4) (line : Nat) (s : State) : Host.Outcome State Fault Refusal :=
  .next (match s.wbacks.find? (fun x => x.q == q.val && x.line == line) with
    | some x =>
      if s.alive && !s.pcs.any (fun e => e.2.queue.any (fun r => r.for_ == .wb q.val line)) then
        { s with wbacks := s.wbacks.erase x }
      else s
    | none => s)
/-- The end of a COLD, WARM or QUARTER reset (R289): dirty lines are lost, write-backs on their way are torn; with all 56 banks in CACHE mode the cache comes
up invalidated and enabled, otherwise off with every INV clear. -/
def State.cacheReset (s : State) (q : Nat) : State :=
  let b := blkCELLAR q
  let s := (s.linesOf q).foldl (fun s e => s.dropLine e.1 (e.2.line - 1)) s
  let s := (s.wbacks.filter (fun x => x.q == q)).foldl State.tearWb s
  let s := { s with wbacks := s.wbacks.filter (fun x => x.q != q), misses := s.misses.filter (fun m => lineQ m.line != q) }
  let bs := s.cacheBanks q
  let full := bs.length == 56 && !bs.any (fun i => s.bankOwn q i F.CELLAR.BANK_STATUS.FAILED != 0)
  let s := bs.foldl (fun s i => s.bankSet q i F.CELLAR.BANK_STATUS.INV (b2n full)) s
  let s := (s.fset b F.CELLAR.CACHE_CTL.ENABLE (b2n full)).fset b F.CELLAR.CACHE_STATUS.ENABLED (b2n full)
  let s := (s.fset b F.CELLAR.CACHE_STATUS.DISABLING 0).fset b F.CELLAR.RANGE_STATUS.BUSY 0
  s.setCellar q { s.cellarSt q with rangeInv := false }

/-! ### The range engine (R290, R291) -/

/-- A write of RANGE_CMD: its fields; with GO, the operation. -/
def State.rangeGo (s : State) (q op : Nat) (all : Bool) : State :=
  let b := blkCELLAR q
  let a := 256 * s.fget b F.CELLAR.RANGE_START.ADDR
  let n := 256 * s.fget b F.CELLAR.RANGE_LEN.LEN
  let inRange := n ≠ 0 ∧ q * 0x009000000000 ≤ a ∧ a + n ≤ (q + 1) * 0x009000000000
  if op = 0 ∨ s.fbit b F.CELLAR.RANGE_STATUS.BUSY ∨ (!all ∧ ¬ inRange) then s.fset b F.CELLAR.RANGE_STATUS.REJECT 1
  else
    let mine := (s.linesOf q).filter (fun (e : Nat × CLine) =>
      all || (decide (a ≤ 256 * (e.2.line - 1)) && decide (256 * (e.2.line - 1) < a + n)))
    let s := mine.foldl (fun s e => s.actLine q (op != 1) (op != 2) e) s
    (s.fset b F.CELLAR.RANGE_STATUS.BUSY 1).setCellar q { s.cellarSt q with rangeInv := all && op != 2 }
def State.rangeCmd (s : State) (q op : Nat) (all : Bool) : State :=
  ((if op = 0 then s else s.fset (blkCELLAR q) F.CELLAR.RANGE_CMD.OP op).fset (blkCELLAR q) F.CELLAR.RANGE_CMD.ALL (b2n all)).rangeGo q op all
/-- INVALIDATE, CLEAN, FLUSH: RANGE_CMD with GO = 1 and this OP. -/
def execInvalidate (q : Fin 4) (all : Bool) (s : State) : Host.Outcome State Fault Refusal := .next (s.rangeCmd q.val 1 all)
def execClean (q : Fin 4) (all : Bool) (s : State) : Host.Outcome State Fault Refusal := .next (s.rangeCmd q.val 2 all)
def execFlush (q : Fin 4) (all : Bool) (s : State) : Host.Outcome State Fault Refusal := .next (s.rangeCmd q.val 3 all)
/-- RANGE_DONE: every write-back of the operation has been acknowledged. -/
def execRangeDone (q : Fin 4) (s : State) : Host.Outcome State Fault Refusal :=
  let b := blkCELLAR q.val
  .next (if s.alive && s.fbit b F.CELLAR.RANGE_STATUS.BUSY && !s.wbacks.any (fun x => x.q == q.val && x.range) then
    let s := if (s.cellarSt q.val).rangeInv then
        (s.cacheBanks q.val).foldl (fun s i => s.bankSet q.val i F.CELLAR.BANK_STATUS.INV 1) s
      else s
    ((s.fset b F.CELLAR.RANGE_STATUS.BUSY 0).fset b F.CELLAR.RANGE_STATUS.DONE 1).setCellar q.val
      { s.cellarSt q.val with rangeInv := false }
  else s)

/-! ### The march test (R295, R296) -/

def State.march (s : State) (q : Nat) : Option March := Sparse.get none s.marches q
def State.spareUsed (s : State) (q i : Nat) : Bool :=
  s.fbit (blkCELLAR q) (if i = 0 then F.CELLAR.SPARE_MAP.SPARE0_USED else F.CELLAR.SPARE_MAP.SPARE1_USED)
/-- A bank on which a march may start: without an owner, ON, in no transition. -/
def State.marchable (s : State) (q b : Nat) : Bool :=
  if 56 ≤ b then !s.spareUsed q (b - 56)
  else s.bankOwn q b F.CELLAR.BANK_OWN.OWNER_KIND == 0 && s.bankOwn q b F.CELLAR.BANK_STATUS.POWER_STATE == 0 &&
    (s.bankTr q b).isNone
/-- A write of MARCH_CTL with GO. -/
def State.marchGo (s : State) (q bank : Nat) (preserve : Bool) : State :=
  let b := blkCELLAR q
  let s := (if bank ≤ 57 then s.fset b F.CELLAR.MARCH_CTL.BANK bank else s).fset b F.CELLAR.MARCH_CTL.PRESERVE (b2n preserve)
  let k := s.fget b F.CELLAR.MARCH_CTL.BANK
  if (s.march q).isSome || !s.marchable q k then s.fset b F.CELLAR.MARCH_STATUS.REJECT 1
  else
    let s := { s with marches := Sparse.put none s.marches q (some ⟨k, preserve⟩) }
    let s := s.fset b F.CELLAR.MARCH_STATUS.BUSY 1
    if k < 56 then s.bankSet q k F.CELLAR.BANK_STATUS.BUSY 1 else s
def execMarchTest (q : Fin 4) (bank : Fin 64) (preserve : Bool) (s : State) : Host.Outcome State Fault Refusal :=
  .next (s.marchGo q.val bank.val preserve)
/-- The storage that serves logical bank `b` under SPARE_MAP `m`: 56 and 57 are the spares (R12, R296). -/
def physBank (m b : Nat) : Nat :=
  if bit m 14 && bits m 8 6 == b then 57 else if bit m 6 && bits m 0 6 == b then 56 else b
/-- SPARE_MAP as the Ledger holds it. -/
def State.spareMap (s : State) (q : Nat) : Nat :=
  let c := blkCELLAR q
  s.fget c F.CELLAR.SPARE_MAP.SPARE0_FOR + s.fget c F.CELLAR.SPARE_MAP.SPARE0_USED * 2 ^ 6 + s.fget c F.CELLAR.SPARE_MAP.SPARE1_FOR * 2 ^ 8 +
    s.fget c F.CELLAR.SPARE_MAP.SPARE1_USED * 2 ^ 14
/-- A failed bank is out of use: without an owner, in SCRATCH mode. -/
def State.bankOut (s : State) (q b : Nat) : State :=
  (((s.bankSet q b F.CELLAR.BANK_STATUS.FAILED 1).bankSet q b F.CELLAR.BANK_OWN.OWNER_KIND 0).bankSet q b
    F.CELLAR.BANK_OWN.OWNER_ID 0).bankSet q b F.CELLAR.BANK_OWN.MODE 1
/-- COLD reset of a quarter's banks, from the state `old` before it: the spares that the Ledger maps in take their numbers; a failed bank
that none has newly taken stays failed. -/
def State.coldBanks (s old : State) (q : Nat) : State :=
  let m := old.spareMap q
  let was := (old.cellarSt q).spares
  let s := s.setCellar q { CellarSt.init with spares := m }
  (List.range 56).foldl (fun s b =>
    if old.bankOwn q b F.CELLAR.BANK_STATUS.FAILED ≠ 0 ∧ physBank m b = physBank was b then s.bankOut q b else s) s
/-- A logical bank has failed: out of use, reported; DEGRADED where no spare that passed is left. -/
def State.bankFails (s : State) (q b words : Nat) : State :=
  let spare := (List.range 2).any (fun i => !s.spareUsed q i && !bit (s.cellarSt q).spareBad i)
  (s.bankOut q b).report (if spare then 2 else 3) 0xA9 (blkCELLAR q) 0 0 0 0
    (b + 64 * min words 0xFFFFF)
/-- MARCH_DONE: `fails` words failed, the first at `first`. A destructive test leaves the bank zeroed. -/
def execMarchDone (q : Fin 4) (fails first : Nat) (s : State) : Host.Outcome State Fault Refusal :=
  let b := blkCELLAR q.val
  .next (match s.march q.val with
    | none => s
    | some m =>
      if !s.alive then s
      else
        let s := { s with marches := Sparse.put none s.marches q.val none }
        let s := ((s.fset b F.CELLAR.MARCH_STATUS.BUSY 0).fset b F.CELLAR.MARCH_STATUS.DONE 1).fset b
          F.CELLAR.MARCH_STATUS.FAIL (b2n (fails != 0))
        let s := (s.fset b F.CELLAR.MARCH_STATUS.FAIL_WORDS (min fails 0xFFFFF)).fset b F.CELLAR.MARCH_STATUS.FIRST_FAIL first
        if 56 ≤ m.bank then
          let x := s.cellarSt q.val
          s.setCellar q.val { x with spareBad := setBits x.spareBad (m.bank - 56) 1 (b2n (fails != 0)) }
        else
          let s := if m.preserve then s else s.zeroBank q.val m.bank
          let s := s.bankSet q.val m.bank F.CELLAR.BANK_STATUS.BUSY 0
          if fails = 0 then s else s.bankFails q.val m.bank fails)
/-- CACHE_STATUS.CACHE_BANKS. -/
def State.cacheBankCount (s : State) (q : Nat) : Nat := (s.cacheBanks q).length

end Sys2Proof.Machine
end

