-- ==== Sys2Proof/Machine/Stacks.lean ====
section
/-! DEFINITION. Stack controllers (R298-R315): the choice of the next command, read data, parity errors, refresh, scrubbing,
lanes and retraining, test mode and traffic generators. -/

namespace Sys2Proof.Machine

def pcKey (k ch pc : Nat) : Nat := k * 32 + ch * 2 + pc
def State.pcSt (s : State) (k ch pc : Nat) : Pc := Sparse.get Pc.init s.pcs (pcKey k ch pc)
def State.setPc (s : State) (k ch pc : Nat) (x : Pc) : State := { s with pcs := Sparse.put Pc.init s.pcs (pcKey k ch pc) x }
/-- The device address of offset `off` of a pseudo-channel (R26). -/
def stackAddrOf (k ch pc off : Nat) : Nat :=
  let r := off / 2048
  let h := ((bits r 0 8) ^^^ (bits r 8 8) ^^^ (bits r 16 5)) % 192
  let p := 6 * (16 * pc + ch) + k % 6
  k / 6 * 0x009000000000 + (r * 192 + (p + 192 - h) % 192) * 2048 + off % 2048
/-- The bank and row of a block (R299). -/
def bankRow (a : Nat) : Nat × Nat :=
  let off := (stackLoc a).off
  let u := 2 * (off / 2048) + bits off 10 1
  (u % 64, u / 64)

/-! ### Scheduling (R303-R305) -/

/-- The request's row is open: activated, wanted by no other, and accessed in the last 256 MEMC cycles (R305). -/
def Pc.hit (x : Pc) (now : Nat) (r : PcReq) : Bool :=
  Sparse.get 0 x.rows (bankRow r.addr).1 == (bankRow r.addr).2 + 1 && decide (now < Sparse.get 0 x.used (bankRow r.addr).1 + 256)
/-- A request that has waited 4,096 MEMC cycles (MEMC runs at the rate of ARITH). -/
def PcReq.old (r : PcReq) (now : Nat) : Bool := decide (r.since + 4096 ≤ now)
/-- Whether writes drain: from 48 queued, until 16 remain or a read has waited too long. -/
def Pc.drains (x : Pc) (now : Nat) : Bool :=
  let n := (x.queue.filter (·.write)).length
  if x.drain then decide (16 < n) && !x.queue.any (fun r => !r.write && r.old now) else decide (48 ≤ n)
/-- The class from which the next command comes. -/
def Pc.ready (x : Pc) (now : Nat) : List PcReq :=
  let writes := x.queue.filter (·.write)
  let reads := x.queue.filter (fun r => !r.write)
  let lat := reads.filter (·.lat)
  let rest := reads.filter (fun r => !r.lat)
  if x.drains now && !writes.isEmpty then writes
  else if !lat.isEmpty && (decide (x.latBus < x.limit) || rest.isEmpty) then lat
  else if !rest.isEmpty then rest else writes
def Pc.next (x : Pc) (now : Nat) : Option PcReq :=
  match x.queue.find? (fun r => r.old now) with
  | some r => some r
  | none =>
    let l := x.ready now
    match l.find? (x.hit now) with
    | some r => some r
    | none => l.head?
/-- The command is issued: its row is open, its time on the data bus counted, a read on its way back. -/
def Pc.issue (x : Pc) (now : Nat) (r : PcReq) : Pc :=
  let br := bankRow r.addr
  let bus := if r.lat && !r.write then x.latBus + r.n / 16 else x.latBus
  { x with queue := x.queue.erase r, drain := x.drains now, rows := Sparse.put 0 x.rows br.1 (br.2 + 1),
           used := Sparse.put 0 x.used br.1 (now + 1), latBus := bus,
           hitLimit := x.hitLimit || decide (x.limit ≤ bus), flight := if r.write then x.flight else x.flight ++ [r] }
/-- A channel in service: requests wait through a retraining. -/
def State.chOpen (s : State) (k ch : Nat) : Bool := s.alive && !(s.stackSt k).retrain.contains ch
def execStackCommandIssue (k : Fin 24) (ch : Fin 16) (pc : Fin 2) (s : State) : Host.Outcome State Fault Refusal :=
  let x := s.pcSt k.val ch.val pc.val
  .next (if s.chOpen k.val ch.val then
    (match x.next s.clk.arith with
      | some r => s.setPc k.val ch.val pc.val (x.issue s.clk.arith r)
      | none => s)
  else s)
/-- The home of the read that the flit `id` carries answers a stream or a Grinder. -/
def State.engAnswer (s : State) (id : Nat) (l : List Code) : State :=
  match s.strmRead? id, s.grRead? id with
  | some (k, r), _ => s.strmAnswer k r l
  | none, some (x, r) => s.grindAnswer (((s.cmd? x.cmd).map Cmd.g).getD 0) r l
  | none, none => s
/-- The codewords from address `a` on that `v` holds, those of mask `bad` poison. -/
def unpackCodes (a v bad n : Nat) : List Code :=
  (cws a n).mapIdx (fun i c => ⟨v / 2 ^ (128 * i) % 2 ^ 128, bit bad (c % 4)⟩)
/-- A read's codewords are counted as the check has found them. -/
def State.pcCount (s : State) (r : PcReq) : State :=
  r.found.foldl (fun s (e : Nat × Option Nat) => s.stackCheckCw e.1 (match e.2 with
    | some sym => .one sym
    | none => .bad)) (s.stackBytes r.addr r.n false)
/-- STACK_READ_DATA (R302): the oldest read on its way back is checked and answered; a line for the cache is in. -/
def execStackReadData (k : Fin 24) (ch : Fin 16) (pc : Fin 2) (s : State) : Host.Outcome State Fault Refusal :=
  let x := s.pcSt k.val ch.val pc.val
  .next (match x.flight with
    | [] => s
    | r :: rest =>
      if !s.chOpen k.val ch.val then s
      else
        let s := s.setPc k.val ch.val pc.val { x with flight := rest }
        -- a withdrawn quarter's controllers answer with poison (R312)
        let gone := s.qState (k.val / 6) == 5
        let r := if gone then { r with v := 0, bad := 15, found := [] } else r
        let s := if gone then s.bump (blkSTACK k.val) F.STACK.WITHDRAWN_ACCESSES.COUNT else s
        match r.for_ with
        | .req id =>
          let s := s.pcCount r
          match s.req? id with
          | some q => s.answerReq q (.data r.v r.bad)
          | none => s
        | .eng id => (s.pcCount r).engAnswer id (unpackCodes r.addr r.v r.bad r.n)
        | .fill id line =>
          { s with misses := s.misses.map (fun m => if m.req = id ∧ m.line = line then { m with ready := true } else m) }
        | .wb _ _ => s)
/-- A latency window of stack `k` begins (R304), where the one of this GTC count has not begun. -/
def State.latWindow (s : State) (k : Nat) : State :=
  let x := s.stackSt k
  let b := blkSTACK k
  if x.win = s.now / 1024 then s
  else
    let mine (e : Nat × Pc) : Bool := e.1 / 32 == k
    let s := if s.pcs.any (fun e => mine e && e.2.hitLimit) then s.bump b F.STACK.LAT_LIMITED.COUNT else s
    let lim := 4 * s.fget b F.STACK.STACK_CTL.LAT_SHARE
    let s := (List.range 32).foldl (fun s i =>
      let y := s.pcSt k (i / 2) (i % 2)
      s.setPc k (i / 2) (i % 2) { y with latBus := 0, limit := lim, hitLimit := decide (lim = 0) }) s
    s.setStack k { x with win := s.now / 1024 }
/-- LAT_SHARE_WINDOW; a window whose GTC counts have come begins of itself (log entry 23). -/
def execLatShareWindow (k : Fin 24) (s : State) : Host.Outcome State Fault Refusal := .next (if s.alive then s.latWindow k.val else s)
/-- REFRESH_DUE (R307): the bank's row is closed. -/
def execRefreshDue (k : Fin 24) (ch : Fin 16) (pc : Fin 2) (bank : Fin 64) (s : State) : Host.Outcome State Fault Refusal :=
  let x := s.pcSt k.val ch.val pc.val
  .next (if s.alive then s.setPc k.val ch.val pc.val { x with rows := Sparse.put 0 x.rows bank.val 0 } else s)
/-- STACK_TEMP_READING (R307): `t` is the highest reported temperature of the stack's dies. -/
def State.stackTemp (s : State) (k t : Nat) : State :=
  let b := blkSTACK k
  let s := s.fset b F.STACK.STACK_STATUS.TEMP (min t 255)
  if 85 < t then s.fset b F.STACK.STACK_STATUS.REFRESH_2X 1
  else if t ≤ 80 then s.fset b F.STACK.STACK_STATUS.REFRESH_2X 0 else s

/-! ### Lanes, training and failure (R306, R310-R312) -/

def chIx (ch : Nat) : Nat := 0x40 * ch
/-- A channel fails: its stack leaves service. -/
def State.chFail (s : State) (k ch : Nat) : State :=
  let b := blkSTACK k
  if s.fbit b F.STACK.CH_STATUS.FAILED (chIx ch) then s
  else (((s.fset b F.STACK.CH_STATUS.FAILED 1 (chIx ch)).fset b F.STACK.CH_STATUS.TRAINED 0 (chIx ch)).fset b
    F.STACK.STACK_STATUS.STATE 4).report 3 0xAA b 0 0 0 0 ch
/-- The spare of a lane is in use; lane 36 stands for the command/address lanes. -/
def State.laneSpare (s : State) (k ch pc lane : Nat) : Bool :=
  s.fbit (blkSTACK k) (if lane = 36 then F.STACK.REPAIR.CA_USED else if pc = 0 then F.STACK.REPAIR.PC0_USED
    else F.STACK.REPAIR.PC1_USED) (chIx ch)
/-- A lane is marked failing; with its spare in use, or another lane of its pseudo-channel failing, the channel fails. -/
def State.laneMark (s : State) (k ch pc lane : Nat) : State :=
  let b := blkSTACK k
  let old := s.fget b F.STACK.CH_STATUS.FAILING (chIx ch)
  let new := 128 + 64 * pc + lane
  let s := (s.fset b F.STACK.CH_STATUS.FAILING new (chIx ch)).report 0 0xA2 b 0 0 0 0 (lane + 256 * ch)
  let two := bit old 7 && old != new && (lane != 36) && bits old 0 6 != 36 && bits old 6 1 == pc
  if s.laneSpare k ch pc lane || two then s.chFail k ch else s
/-- LANE_FAILING: corrected symbols of one lane have passed LANE_LIMIT in this scrub pass. -/
def execLaneFailing (k : Fin 24) (ch : Fin 16) (pc : Fin 2) (lane : Fin 36) (s : State) : Host.Outcome State Fault Refusal :=
  let b := blkSTACK k.val
  let n := Sparse.get 0 (s.stackSt k.val).laneN (128 * ch.val + 64 * pc.val + lane.val)
  .next (if s.alive && decide (s.fget b F.STACK.STACK_CTL.LANE_LIMIT < n) &&
      s.fget b F.STACK.CH_STATUS.FAILING (chIx ch.val) != 128 + 64 * pc.val + lane.val then
    s.laneMark k.val ch.val pc.val lane.val
  else s)
/-- Channel `ch` retrains: its requests wait. -/
def State.retrain (s : State) (k ch : Nat) : State :=
  let x := s.stackSt k
  if x.retrain.contains ch then s
  else (s.setStack k { x with retrain := x.retrain ++ [ch] }).fset (blkSTACK k) F.STACK.CH_STATUS.TRAINED 0 (chIx ch)
/-- RETRAIN: a write of TRAIN_CTL with RETRAIN = 1. -/
def State.trainCmd (s : State) (k ch : Nat) : State := (s.fset (blkSTACK k) F.STACK.TRAIN_CTL.CHANNEL ch).retrain k ch
def execRetrain (k : Fin 24) (ch : Fin 16) (s : State) : Host.Outcome State Fault Refusal :=
  .next (if s.alive then s.trainCmd k.val ch.val else s)
/-- RETRAIN_DONE: whether the channel could be trained, and the lanes (36: command/address) that failed their test by
pseudo-channel. A repair written before takes effect; waiting requests proceed. -/
def execRetrainDone (k : Fin 24) (ch : Fin 16) (ok : Bool) (bad : List (Fin 2 × Fin 37)) (s : State) :
    Host.Outcome State Fault Refusal :=
  let b := blkSTACK k.val
  let x := s.stackSt k.val
  .next (if s.alive && x.retrain.contains ch.val then
    let s := s.setStack k.val { x with retrain := x.retrain.filter (· != ch.val) }
    if !ok then s.chFail k.val ch.val
    else if s.fbit b F.STACK.CH_STATUS.FAILED (chIx ch.val) then s
    else
      let s := s.fset b F.STACK.CH_STATUS.TRAINED 1 (chIx ch.val)
      let old := s.fget b F.STACK.CH_STATUS.FAILING (chIx ch.val)
      let still := bad.any (fun e => 128 + 64 * e.1.val + e.2.val == old)
      let s := if bit old 7 && !still then
          let s := s.fset b F.STACK.CH_STATUS.FAILING 0 (chIx ch.val)
          if s.laneSpare k.val ch.val (bits old 6 1) (bits old 0 6) then
            s.report 0 0xA3 b 0 0 0 0 (bits old 0 6 + 256 * ch.val)
          else s
        else s
      bad.foldl (fun s (e : Fin 2 × Fin 37) => s.laneMark k.val ch.val e.1.val e.2.val) s
  else s)
/-- CA_PARITY_ERROR (R306): the banks of the channel are precharged, reads on their way are issued again; a second error
within 64 MEMC cycles of the reissue retrains the channel. -/
def execCaParityError (k : Fin 24) (ch : Fin 16) (s : State) : Host.Outcome State Fault Refusal :=
  let x := s.stackSt k.val
  let last := Sparse.get 0 x.caAt ch.val
  .next (if !s.alive then s
    else
      let s := s.bump (blkSTACK k.val) F.STACK.CH_STATUS.CA_ERRORS (chIx ch.val)
      let s := [0, 1].foldl (fun (s : State) pc =>
        let y := s.pcSt k.val ch.val pc
        s.setPc k.val ch.val pc { y with rows := [], queue := y.flight ++ y.queue, flight := [] }) s
      let s := s.setStack k.val { x with caAt := Sparse.put 0 x.caAt ch.val (s.clk.arith + 1) }
      if last ≠ 0 ∧ s.clk.arith + 1 ≤ last + 64 then s.retrain k.val ch.val else s)

/-! ### The scrubber (R308) -/

/-- Blocks of a stack. -/
def scrubTotal : Nat := 32 * 50331648
def scrubAddr (k n : Nat) : Nat := stackAddrOf k (n % 16) (n / 16 % 2) (64 * (n / 32))
def State.scrubCw (s : State) (k c : Nat) : State :=
  let b := blkSTACK k
  match s.mem.cw c with
  | .one sym =>
    (({ s with mem := { s.mem with upset := Sparse.del s.mem.upset c } }).bump b F.STACK.SCRUB_STATUS.SCRUB_CORRECTED).laneHit
      (stackLoc (16 * c)) sym
  | .bad => ((s.bump b F.STACK.UE_COUNT.COUNT).fset b F.STACK.UE_ADDR.ADDR (16 * c)).report 1 0xA1 b 0 0 (16 * c) 0 0
  | _ => s
/-- SCRUB_READ: the next block, when its pseudo-channel's read queue is empty. -/
def execScrubRead (k : Fin 24) (s : State) : Host.Outcome State Fault Refusal :=
  let b := blkSTACK k.val
  let x := s.stackSt k.val
  let n := x.scrub
  let idle := !(s.pcSt k.val (n % 16) (n / 16 % 2)).queue.any (fun r => !r.write)
  .next (if s.fbit b F.STACK.STACK_CTL.SCRUB_ENABLE && s.qUp (k.val / 6) && s.fget b F.STACK.STACK_STATUS.STATE == 1 &&
      s.chOpen k.val (n % 16) && idle then
    let s := (cws (scrubAddr k.val n) 64).foldl (fun s c => s.scrubCw k.val c) s
    let y := s.stackSt k.val
    if n + 1 < scrubTotal then s.setStack k.val { y with scrub := n + 1 }
    else (s.bump b F.STACK.SCRUB_STATUS.PASSES).setStack k.val { y with scrub := 0, laneN := [] }
  else s)

/-! ### Test mode and traffic generators (R313, R314) -/

/-- A write of TEST_MODE. -/
def State.testModeWrite (s : State) (k : Nat) (on : Bool) : State :=
  let b := blkSTACK k
  let q := k / 6
  if !on then
    let s := s.fset b F.STACK.STACK_CTL.TEST_MODE 0
    if s.fget b F.STACK.STACK_STATUS.STATE = 3 then s.fset b F.STACK.STACK_STATUS.STATE 1 else s
  else if s.owned q || s.cacheOn q || s.fget b F.STACK.STACK_STATUS.STATE == 4 then s.fset b F.STACK.STACK_STATUS.TEST_REJECT 1
  else
    let s := s.fset b F.STACK.STACK_CTL.TEST_MODE 1
    if s.fget b F.STACK.STACK_STATUS.STATE = 1 then s.fset b F.STACK.STACK_STATUS.STATE 3 else s
def execTestModeWrite (k : Fin 24) (on : Bool) (s : State) : Host.Outcome State Fault Refusal := .next (s.testModeWrite k.val on)
/-- A write of TG_CTL with GO. -/
def State.tgGo (s : State) (k ch : Nat) : State :=
  let b := blkSTACK k
  if s.fbit b F.STACK.TG_STATUS.BUSY (chIx ch) || !s.fbit b F.STACK.STACK_CTL.TEST_MODE then
    s.fset b F.STACK.TG_STATUS.REJECT 1 (chIx ch)
  else s.fset b F.STACK.TG_STATUS.BUSY 1 (chIx ch)
def execTrafficGenGo (k : Fin 24) (ch : Fin 16) (s : State) : Host.Outcome State Fault Refusal := .next (s.tgGo k.val ch.val)
/-- Blocks of a pseudo-channel take generated data: which of the accesses are writes is open, so is what they leave. -/
def State.tgFill (s : State) (k ch pc start : Nat) : Nat → State
  | 0 => s
  | n + 1 =>
    let r := s.freeCodes 4
    let a := stackAddrOf k ch pc (64 * ((start + n) % 50331648))
    let t : State := r.1
    ({ t with mem := t.mem.write a (r.2.flatMap (fun (c : Code) => leBytes 16 c.v)) }).tgFill k ch pc start n
/-- TRAFFIC_GEN_DONE: `errs` blocks mismatched after correction, and the raw errors by pseudo-channel and lane. -/
def execTrafficGenDone (k : Fin 24) (ch : Fin 16) (errs : Nat) (lanes : List (Fin 2 × Fin 36 × Nat)) (s : State) :
    Host.Outcome State Fault Refusal :=
  let b := blkSTACK k.val
  let ix := chIx ch.val
  .next (if s.alive && s.fbit b F.STACK.TG_STATUS.BUSY ix then
    let len := s.fget b F.STACK.TG_RANGE.LEN ix
    let len := if len = 0 then 50331648 else len
    let n := if s.fget b F.STACK.TG_CTL.PATTERN ix = 1 then len else min len (s.fget b F.STACK.TG_COUNT.COUNT ix)
    let n := if s.fget b F.STACK.TG_CTL.WRITE_PCT ix = 0 then 0 else n
    let s := [0, 1].foldl (fun (s : State) pc =>
      if bit (s.fget b F.STACK.TG_CTL.PC_MASK ix) pc then s.tgFill k.val ch.val pc (s.fget b F.STACK.TG_RANGE.START ix) n else s) s
    let s := (s.bump b F.STACK.TG_ERRORS.COUNT ix errs)
    let s := lanes.foldl (fun s (e : Fin 2 × Fin 36 × Nat) =>
      s.bump b F.STACK.LANE_CE.COUNT (0x400 * ch.val + 0x200 * e.1.val + 8 * e.2.1.val) e.2.2) s
    (s.fset b F.STACK.TG_STATUS.BUSY 0 ix).fset b F.STACK.TG_STATUS.DONE 1 ix
  else s)

end Sys2Proof.Machine
end

