-- ==== Sys2Proof/Machine/Errors.lean ====
section
/-! DEFINITION. The error logger (R375-R377, R384, R425), leaving service (R380, R381), temperatures and the thermal trip
(R307, R383). -/

namespace Sys2Proof.Machine

/-! ### Records (R375, R425) -/

/-- One byte of the reflected CRC-32C of R425. -/
def crc32cByte (c : Nat) (b : Byte) : Nat :=
  (List.range 8).foldl (fun c _ => if c % 2 = 1 then (c / 2) ^^^ 0x82F63B78 else c / 2) (c ^^^ b.toNat)
def crc32c (l : List Byte) : Nat := (l.foldl crc32cByte 0xFFFFFFFF) ^^^ 0xFFFFFFFF
/-- The metadata of codeword `i` of a flash page: handle, index, write sequence number, powered hours, and the CRC over the data and
what stands before it (R351). -/
def flashMeta (handle i : Nat) (p : FPage) (data : List Byte) : List Byte :=
  let l := leBytes 6 handle ++ leBytes 2 i ++ leBytes 8 p.wseq ++ leBytes 8 p.hours ++ leBytes 4 0
  l ++ leBytes 4 (crc32c (data ++ l))
/-- Codeword `i` of logical page `n` of manager `h` as it is stored, but for its parity. -/
def State.flashCw (s : State) (h n i : Nat) : Option (List Byte) :=
  let f := s.flash h
  (Sparse.get none f.map n).map (fun p =>
    let data := (List.range 4096).map (fun j => Sparse.get 0 f.data (65536 * n + 4096 * i + j))
    data ++ flashMeta (n + h * 2 ^ 30) i p data)
/-- Table 16.4. -/
def ErrRec.bytes (r : ErrRec) : List Byte :=
  let l := leBytes 4 r.seq ++ leBytes 1 r.cls ++ leBytes 1 r.code ++ leBytes 2 (r.block % 0x1000) ++ leBytes 8 r.gtc ++
    leBytes 4 r.who ++ leBytes 4 r.job ++ leBytes 8 r.addr ++ leBytes 8 r.pc ++ leBytes 8 r.info ++ leBytes 4 r.rep ++
    leBytes 8 0
  l ++ leBytes 4 (crc32c l)
/-- Register `i` of a log slot; a slot never written reads as zero. -/
def slotWord (r : Option ErrRec) (i : Nat) : Nat :=
  match r with
  | some r => leNat ((r.bytes.drop (8 * i)).take 8)
  | none => 0

/-! ### The work of a quarter, and of the device -/

/-- The job behind a wait. -/
def State.waitJob (s : State) (w : SyncWho) : Option JobId :=
  match w with
  | .thread k => some (s.thread k).job
  | .ctx c => some (s.ctx c).job
  | .hop c _ _ => some (s.ctx c).job
  | .cmd id => (s.cmd? id).map (·.job)
  | .reg _ => none
/-- A job has a task running, or an entry, in quarter `q`. -/
def State.taskIn (s : State) (q : Nat) (j : JobId) : Bool :=
  s.tasks.any (fun (e : Nat × Entry) => e.1 / 16384 == q && e.2.used && e.2.job == j) ||
    s.threads.any (fun (e : Nat × Thread) => e.1 / 65536 == q && e.2.st != .free && e.2.job == j)
/-- A job has a wait, held arrival or parked spawn in quarter `q`. -/
def State.waitIn (s : State) (q : Nat) (j : JobId) : Bool :=
  s.objs.any (fun (e : Nat × Obj) => e.1 / 65536 == q && (e.2.waiters ++ e.2.held).any (fun (w : Waiter) => s.waitJob w.who == some j)) ||
    s.spawns.any (fun (x : Spawn) => x.job == j && x.q == q && match x.phase with
      | .waiting _ => true
      | _ => false)
/-- A job has a Grinder command in quarter `q`, or a chain of a cluster there. -/
def State.cmdIn (s : State) (q : Nat) (j : JobId) : Bool :=
  s.cmds.any (fun (c : Cmd) => c.job == j && match c.unit with
    | .grind g => g / 4 == q
    | _ => false) ||
    s.ctxs.any (fun (e : Nat × Ctx) => e.1 / 1024 == q && e.2.st != .free && e.2.job == j)
/-- Roots of the job wait for entries there. -/
def Job.rootsAt (x : Job) (q : Nat) : Bool := x.phase == .rootsWait && bit x.qmask q
def State.jobIn (s : State) (q : Nat) (x : Job) : Bool :=
  s.taskIn q x.id || s.waitIn q x.id || s.cmdIn q x.id || x.rootsAt q
def State.endJobsIn (s : State) (q status : Nat) (err : Option Nat) : State :=
  (s.jobs.filter (fun (x : Job) => s.jobIn q x)).foldl (fun s (x : Job) => s.endJob x.id status err) s
/-- Every task, chain, command, request and message in the device is gone; objects lose their waiters. -/
def State.clearWork (s : State) : State :=
  { s with fabric := { s.fabric with reqs := [], flits := [] }, hostReads := [], threads := [], tasks := [], spawns := [], flagMsgs := []
           cores := s.cores.map (fun (e : Nat × Core) => (e.1, { e.2 with run := none, next := none }))
           arrs := [], vecs := [], ctxs := [], hops := [], syncMsgs := [], wakes := [], cmds := [], heldSubs := []
           objs := s.objs.map (fun (e : Nat × Obj) => (e.1, { e.2 with waiters := [], held := [] }))
           bags := [], upds := [], defers := [], moves := [], misses := [], percs := [], colls := []
           rings := s.rings.map (fun (e : Nat × Ring) => (e.1, { e.2 with fetch := none, mismatch := none })) }

/-! ### Leaving service (R380, R381) -/

/-- A store that waits at a Grinder's full queue is refused. -/
def State.refuseHeld (s : State) (u : EUnit) (id : Nat) : State :=
  let s := { s with heldSubs := s.heldSubs.filter (fun h => h.2 != id) }.regError u.blk F.GRIND.SUBMIT.CMD.reg true 1
  match s.req? id with
  | some r => s.answerReq r (.refused 0x04)
  | none => s
/-- Quarter `q` is withdrawn: its jobs end with DEVICE_FAULT; its Grinders' migrations and deferred updates are lost (R232). -/
def State.withdraw (s : State) (q : Nat) (err : Option Nat) : State :=
  let s := (s.jobs.filter (fun (x : Job) => s.jobIn q x)).foldl (fun s (x : Job) => s.endJobSevere x.id err) s
  let s := { s with moves := s.moves.filter (fun (m : Move) => m.g / 4 != q), defers := s.defers.filter (fun (d : Defer) => d.g / 4 != q) }
  let s := s.fset (blkQCTL q) F.QCTL.Q_STATUS.STATE 5
  (s.heldSubs.filter (fun h => match h.1 with
    | .grind g => g / 4 == q
    | _ => false)).foldl (fun s h => s.refuseHeld h.1 h.2) s
/-- DEGRADED: the withdrawal, for a stack, a bank, or a core for which no spare is left (R422), and the report. -/
def State.degraded (s : State) (r : ErrRec) : State :=
  let core := r.code == 0xB0 && blockKind r.block == some .qctl
  let s := if r.code = 0xAA ∨ r.code = 0xA9 ∨ core then s.withdraw (r.block / 0x100) (some r.id) else s
  let s := (s.devEvent 0 2).devEvent 1 2
  { s with err := { s.err with smbAlert := true } }
/-- FATAL: rings stop fetching, every job in flight ends with DEVICE_FAULT, the Talien ports go DOWN; with the reference
lost the PCIe ports do not stay up. -/
def State.fatal (s : State) (r : ErrRec) : State :=
  let s := s.jobs.foldl (fun s (x : Job) => s.endJobSevere x.id (some r.id)) s
  let s := s.clearWork
  let s := (List.range 18).foldl (fun s t => (s.setTl t 0).setTport t TPort.init) s
  let s := if r.code = 0xAE then
      [0, 1].foldl (fun (s : State) p => s.setPort p { s.port p with link := false, downAt := s.clk.arith }) s
    else s
  let s := (s.devEvent 0 5).devEvent 1 5
  { s with err := { s.err with fatal := true, smbAlert := true } }

/-! ### The logger (R376, R377) -/

def nextSeq (n : Nat) : Nat := if n = 0xFFFFFFFF then 1 else n + 1
/-- A record takes the next SEQ and its slot; CLASS 3 and 4 records go into the fatal journal too. -/
def State.logRec (s : State) (r : ErrRec) : State :=
  let n := nextSeq (s.fget blkSILPAOT F.SILPAOT.LOG_HEAD.SEQ)
  let r := { r with seq := n }
  let s := (s.fset blkSILPAOT F.SILPAOT.LOG_HEAD.SEQ n)
  let s := { s with err := { s.err with log := Sparse.put none s.err.log (n % 4096) (some r) } }
  if r.cls < 3 then s
  else
    let j := (s.fget blkSILPAOT F.SILPAOT.LOG_HEAD.JHEAD + 1) % 64
    let s := s.fset blkSILPAOT F.SILPAOT.LOG_HEAD.JHEAD j
    { s with err := { s.err with journal := Sparse.put none s.err.journal j (some r) } }
/-- The logger serves: reports wait through a MGMT reset (R395). -/
def State.loggerUp (s : State) : Bool := s.pow.boot != .held && !s.pow.mgmtReset
/-- ERROR_REPORT: the oldest report that waits in block `n`; its record stands in the log before anything follows. -/
def State.logReport (s : State) (n : Nat) : State :=
  match Sparse.get [] s.err.queues n with
  | [] => s
  | r :: rest =>
    let s := { s with err := { s.err with queues := Sparse.put [] s.err.queues n rest } }
    let s := s.logRec r
    if r.cls = 3 then s.degraded r else if r.cls = 4 then s.fatal r
    else if r.code = 0xA7 then s.syncPorts (r.block / 0x100)
    else if r.code = 0xA8 then (s.devEvent 0 1).devEvent 1 1
    else s
def execErrorReport (n : Nat) (s : State) : Host.Outcome State Fault Refusal :=
  .next (if s.loggerUp then s.logReport n else s)

/-! ### Temperatures (R307, R383) -/

/-- Every ARITH enable is withheld, the stacks go into self-refresh, THERMTRIP_N is asserted, THERMAL_TRIP raised. -/
def State.trip (s : State) (block sensor t : Nat) : State :=
  let s := (List.range 24).foldl (fun s k =>
    if s.fget (blkSTACK k) F.STACK.STACK_STATUS.STATE = 4 then s else s.fset (blkSTACK k) F.STACK.STACK_STATUS.STATE 2) s
  let s := { s with pow := { s.pow with thermtrip := true } }
  s.report 4 0xAF block 0 0 0 0 (sensor + 256 * min t 255)
/-- One reading against its limit: the second hot one in a row trips. -/
def State.reading (s : State) (key limit t block sensor : Nat) : State :=
  let n := if limit ≤ t then min (Sparse.get 0 s.pow.hot key + 1) 2 else 0
  let s := { s with pow := { s.pow with hot := Sparse.put 0 s.pow.hot key n } }
  if n = 2 ∧ !s.pow.thermtrip then s.trip block sensor t else s
/-- The highest last reading of a die's junction sensors. -/
def State.dieTemp (s : State) (die : Nat) : Nat :=
  ((s.pow.temps.filter (fun (e : Nat × Nat) => e.1 / 256 == die)).map (fun (e : Nat × Nat) => e.2)).foldl max 0
/-- SENSOR_READING: dies Q0 to Q3, H0, H1. -/
def execSensorReading (die : Fin 6) (sensor : BitVec 8) (temp : Nat) (s : State) : Host.Outcome State Fault Refusal :=
  let d := die.val
  let k := 256 * d + sensor.toNat
  .next (if s.pow.boot = .held then s
    else
      let s := { s with pow := { s.pow with temps := Sparse.put 0 s.pow.temps k temp, juncWin := max s.pow.juncWin temp } }
      let s := if d < 4 then s.fset (blkQCTL d) F.QCTL.Q_STATUS.TEMP (min (s.dieTemp d) 255) else s
      s.reading k 115 temp (if d < 4 then blkQCTL d else blkHCTL) sensor.toNat)
/-- STACK_TEMP_READING: the highest temperature that stack `k`'s dies report. -/
def execStackTempReading (k : Fin 24) (t : Nat) (s : State) : Host.Outcome State Fault Refusal :=
  .next (if s.pow.boot = .held then s
    else
      let s := s.stackTemp k.val t
      let s := { s with pow := { s.pow with stackWin := max s.pow.stackWin t } }
      s.reading (4096 + k.val) 105 t (blkQCTL (k.val / 6)) (k.val % 6))

end Sys2Proof.Machine
end

