-- ==== Sys2Proof/Machine/Mode.lean ====
section
/-! DEFINITION. The mode protocol (R193-R196). -/

namespace Sys2Proof.Machine

def State.mode1 (s : State) (f : Fld) (v : Nat) : State := s.fset blkMODE f v
def State.stageReject (s : State) : State := s.mode1 F.MODE.MODE_STATUS.STAGE_REJECT 1

/-- A write of MODE_NEXT by a permitted writer. -/
def State.modeNextWrite (s : State) (v : Nat) : State :=
  if s.inTransition then s.stageReject
  else ((s.mode1 F.MODE.MODE_NEXT.ROUND (bits v 0 2)).mode1 F.MODE.MODE_NEXT.DETERMINISTIC (bits v 2 1)).mode1
    F.MODE.MODE_NEXT.SPARSE_DENSE_THRESH (bits v 4 7)
/-- MODE_NEXT_WRITE. -/
def execModeNextWrite (rq : Requester) (v : Word) (s : State) : Host.Outcome State Fault Refusal :=
  .next (s.regGuard rq blkMODE F.MODE.MODE_NEXT.ROUND.reg (fun s => s.modeNextWrite v.toNat))

/-- Mode-sensitive records go back from the RUN and NEXT slots to their entries, which keep their ready times (R167). -/
def State.returnSens (s : State) : State :=
  let sens (e : Nat) : Bool := (s.entry e).trec.modeSens
  let back := (s.cores.flatMap (fun (c : Nat × Core) => c.2.run.toList ++ c.2.next.toList)).filter sens
  back.foldl (fun s e => (s.dropSlots e).setEntry e { s.entry e with placed := false }) s
/-- COMMIT (R195). -/
def State.modeCommit (s : State) : State :=
  if s.inTransition then s.stageReject
  else
    let e := (s.fget blkMODE F.MODE.MODE_EPOCH.EPOCH + 1) % 2 ^ 32
    (((s.mode1 F.MODE.MODE_STATUS.TRANSITION 1).mode1 F.MODE.MODE_STATUS.TARGET e).mode1 F.MODE.MODE_STATUS.PENDING
      0x3F).returnSens
/-- ABORT: it takes effect at the end of its CTRL cycle, unless the commit falls into that cycle, where it is too late; outside
a transition it has no effect. -/
def State.modeAbort (s : State) : State :=
  if s.inTransition then { s with modeAb := s.ctrl + 1 }
  else if s.modeAt = s.ctrl + 1 then s.mode1 F.MODE.MODE_STATUS.ABORT_LATE 1
  else s
/-- The CTRL cycle of an ABORT is over: the transition ends. -/
def State.tickMode (s : State) : State :=
  if s.modeAb ≠ 0 ∧ s.modeAb < s.ctrl + 1 then
    { (s.mode1 F.MODE.MODE_STATUS.TRANSITION 0).mode1 F.MODE.MODE_STATUS.PENDING 0 with modeAb := 0 }
  else s
/-- A write of MODE_CMD by a permitted writer. -/
def State.modeCmd (s : State) (commit abort : Bool) : State :=
  if commit && abort then s.stageReject
  else if commit then s.modeCommit
  else if abort then s.modeAbort
  else s
/-- COMMIT. -/
def execCommit (rq : Requester) (s : State) : Host.Outcome State Fault Refusal :=
  .next (s.regGuard rq blkMODE F.MODE.MODE_CMD.COMMIT.reg (fun s => s.modeCmd true false))
/-- MODE_ABORT. -/
def execModeAbort (rq : Requester) (s : State) : Host.Outcome State Fault Refusal :=
  .next (s.regGuard rq blkMODE F.MODE.MODE_CMD.ABORT.reg (fun s => s.modeCmd false true))

/-- Quarter `q` holds work of a mode-sensitive task. -/
def State.sensIn (s : State) (q : Nat) : Bool :=
  s.threads.any (fun (e : Nat × Thread) => e.1 / 65536 == q && e.2.st != .free && e.2.modeSens) ||
    s.cores.any (fun (c : Nat × Core) => c.1 / 1024 == q && (c.2.run.toList ++ c.2.next.toList).any (fun e => (s.entry e).trec.modeSens)) ||
    s.ctxs.any (fun (e : Nat × Ctx) => e.1 / 1024 == q && e.2.st != .free && e.2.modeSens) ||
    s.cmds.any (fun (c : Cmd) => c.modeSens && match c.unit with
      | .grind g => g / 4 == q
      | _ => false)
/-- Hub `h`'s Percolator or collectives engine holds such work. -/
def State.sensHub (s : State) (h : Nat) : Bool :=
  s.cmds.any (fun (c : Cmd) => c.modeSens && (c.unit == .perc h || c.unit == .coll h))
/-- Unit `u` may acknowledge: quarters 0 to 3, hubs 4 and 5. -/
def State.mayAck (s : State) (u : Nat) : Bool :=
  if u < 4 then !s.owned u || !s.qUp u || !s.sensIn u else !s.sensHub (u - 4)
/-- Unit `u` acknowledges; the last acknowledgement commits (step 4 of R195). -/
def State.modeAcked (s : State) (u : Nat) : State :=
  let p := s.fget blkMODE F.MODE.MODE_STATUS.PENDING
  if !s.inTransition || !bit p u then s
  else
    let s := s.mode1 F.MODE.MODE_STATUS.PENDING (p - 2 ^ u)
    if p - 2 ^ u ≠ 0 then s
    else
      let s := ((s.mode1 F.MODE.MODE_CURRENT.ROUND (s.fget blkMODE F.MODE.MODE_NEXT.ROUND)).mode1 F.MODE.MODE_CURRENT.DETERMINISTIC
        (s.fget blkMODE F.MODE.MODE_NEXT.DETERMINISTIC)).mode1 F.MODE.MODE_CURRENT.SPARSE_DENSE_THRESH
        (s.fget blkMODE F.MODE.MODE_NEXT.SPARSE_DENSE_THRESH)
      let s := (s.mode1 F.MODE.MODE_EPOCH.EPOCH (s.fget blkMODE F.MODE.MODE_STATUS.TARGET)).mode1 F.MODE.MODE_STATUS.TRANSITION 0
      let s := if s.modeAb = 0 then s else s.mode1 F.MODE.MODE_STATUS.ABORT_LATE 1
      { s with modeAt := s.ctrl + 1, modeAb := 0 }
/-- MODE_ACK. -/
def execModeAck (u : Fin 6) (s : State) : Host.Outcome State Fault Refusal :=
  .next (if s.alive && s.mayAck u.val then s.modeAcked u.val else s)

end Sys2Proof.Machine
end

