-- ==== Sys2Proof/Machine/Watchdog.lean ====
section
/-! DEFINITION. The sync watchdog and the Cupping dump (R197-R201). -/

namespace Sys2Proof.Machine

/-! ### The waits it times, in dump order (R197, R201) -/

/-- A record of the waiter section: its object, what waits, whether it is held for the next generation. -/
structure WaitRec where
  obj  : Nat
  w    : Waiter
  held : Bool
  deriving DecidableEq, Repr

def State.waitRecs (s : State) (q : Nat) : List WaitRec :=
  (s.objs.filter (fun (e : Nat × Obj) => e.1 / 65536 == q)).flatMap (fun (e : Nat × Obj) =>
    e.2.waiters.map (fun w => WaitRec.mk e.1 w false) ++ e.2.held.map (fun w => WaitRec.mk e.1 w true))
/-- `x` before the first spawn of the list that R158 serves after it. -/
def insSpawn (x : Spawn) : List Spawn → List Spawn
  | [] => [x]
  | y :: l => if [x.parkedAt, x.thread] < [y.parkedAt, y.thread] then x :: y :: l else y :: insSpawn x l
/-- Spawns that wait for an entry of quarter `q`, in the order of R158. -/
def State.parkedSpawns (s : State) (q : Nat) : List Spawn :=
  (s.spawns.filter (fun x => x.q == q && match x.phase with
    | .waiting _ => true
    | _ => false)).foldl (fun l x => insSpawn x l) []
def State.flagWaits (s : State) (q : Nat) : List (Nat × Entry) :=
  s.tasks.filter (fun (e : Nat × Entry) => e.1 / 16384 == q && e.2.used && !e.2.isReady)
def SyncWho.isHop : SyncWho → Bool
  | .hop _ _ _ => true
  | _ => false
def WaitRec.kind (r : WaitRec) : Nat :=
  if r.w.who.isThread then (if r.w.bar then 1 else 0) else if r.w.who.isHop then 4 else 3
/-- Kind, index and age of every timed wait. -/
def State.timedWaits (s : State) (q : Nat) : List (Nat × Nat × Nat) :=
  let now := s.clk.arith
  let ws := (s.waitRecs q).map (fun (r : WaitRec) => (r.kind, now - r.w.since)) ++
    (s.parkedSpawns q).map (fun (x : Spawn) => (5, now - x.parkedAt))
  let fs := (s.flagWaits q).map (fun (e : Nat × Entry) => (6, now - e.2.accepted))
  let num (l : List (Nat × Nat)) : List (Nat × Nat × Nat) :=
    (List.range l.length).map (fun i => ((l.getD i (0, 0)).1, i, (l.getD i (0, 0)).2))
  num ws ++ num fs
/-- The oldest; of equally old ones the first. -/
def oldest (l : List (Nat × Nat × Nat)) : Option (Nat × Nat × Nat) :=
  l.foldl (fun best x => match best with
    | none => some x
    | some b => if b.2.2 < x.2.2 then some x else some b) none

/-! ### The dump (Tables 8.9, 8.10) -/

def sat (n v : Nat) : Nat := min v (2 ^ n - 1)
/-- A piece of the dump goes to memory. -/
def State.dumpWrite (s : State) (q a : Nat) (bs : List Byte) : State := s.homeWrite (.range q) 0 a bs false
/-- Records of 16 B from `a` on. Each may hold fields for which the spec states no value: they take free values. -/
def State.dumpRecs {α : Type} (s : State) (q a : Nat) (l : List α) (rec_ : Nat → α → List Byte) : State :=
  (List.range l.length).foldl (fun s i =>
    let r := s.fresh
    match l[i]? with
    | some x => r.2.dumpWrite q (a + 16 * i) (rec_ r.1.toNat x)
    | none => s) s
def Obj.dumpBytes (o : Obj) : List Byte :=
  let l := o.waiters ++ o.held
  let first := l.foldl (fun (m : Option Waiter) w => match m with
    | none => some w
    | some x => if w.since < x.since then some w else some x) none
  leBytes 8 o.word0 ++ leBytes 4 (l.length % 2 ^ 20) ++ leBytes 4 ((first.map (·.gtc)).getD 0)
/-- SOURCE of a waiter record: a core, a context, for a forwarder the quarter and cluster that carry the hop, with an open number;
of a Percolator or collectives engine as R272 and R341 state; of another unit it is open. -/
def State.waitSource (s : State) (free : Nat) (w : SyncWho) : Nat :=
  match w with
  | .thread k => k / 64
  | .ctx c => c
  | .hop c _ mem => s.memCl c mem * 64 + bits free 0 6
  | .cmd id =>
    (match (s.cmd? id).map (fun (c : Cmd) => c.unit) with
      | some (.perc h) => 0x8000 + h * 0x1000
      | some (.coll h) => 0xA000 + h * 0x1000
      | _ => bits free 0 16)
  | _ => bits free 0 16
/-- A waiter record; THREAD of an engine and VALUE of a barrier wait are open. -/
def waitBytes (s0 : State) (free : Nat) (r : WaitRec) : List Byte :=
  let src := s0.waitSource free r.w.who
  let th := match r.w.who with
    | .thread k => k % 64
    | _ => bits free 16 8
  let consuming := (s0.obj r.obj).type == 2 && r.w.value == 1
  leBytes 2 (r.obj % 65536) ++ leBytes 1 r.kind ++ leBytes 1 (b2n r.held + 2 * b2n consuming) ++ leBytes 2 src ++ leBytes 1 th ++
    leBytes 1 0 ++ leBytes 4 (if r.w.bar then bits free 24 32 else r.w.value) ++ leBytes 4 (sat 32 ((s0.clk.arith - r.w.since) / 256))
def spawnBytes (s0 : State) (x : Spawn) : List Byte :=
  leBytes 2 0 ++ leBytes 1 5 ++ leBytes 1 0 ++ leBytes 2 (x.thread / 64) ++ leBytes 1 (x.thread % 64) ++ leBytes 1 0 ++
    leBytes 4 (x.addr % 2 ^ 32) ++ leBytes 4 (sat 32 ((s0.clk.arith - x.parkedAt) / 256))
/-- REASON and DETAIL of a parked thread (Table 3.3); none: it is not parked. A full vector queue has no DETAIL. -/
def State.parkInfo (s : State) (k : Nat) (free : Nat) : Option (Nat × Nat) :=
  let t := s.thread k
  let reqAddr := match (s.reqsOf k (fun r => r.isLd || r.isAmo)).head? with
    | some r => r.addr - r.off
    | none => 0
  match t.st with
  | .parked (.load _ _ _) => some (0, reqAddr)
  | .parked (.amo _) => some (1, reqAddr)
  | .parked (.arrayFull a) => some (2, a)
  | .parked (.arrayBound a) => some (3, a)
  | .parked .vecFull => some (4, bits free 0 32)
  | .parked (.strm c _) => some (5, c)
  | .parked (.sync o _) => some (6, o)
  | .parked (.spawn _) => some (7, match s.spawns.find? (fun x => x.thread == k) with
      | some x => x.addr
      | none => 0)
  | .parked .fetch => some (8, t.pc.toNat)
  | _ => none
def State.parkedThreads (s : State) (q : Nat) : List Nat :=
  (s.threads.filter (fun (e : Nat × Thread) => e.1 / 65536 == q && (s.parkInfo e.1 0).isSome)).map (fun (e : Nat × Thread) => e.1)
def threadBytes (s0 : State) (free k : Nat) : List Byte :=
  let i := (s0.parkInfo k free).getD (0, 0)
  let t := s0.thread k
  leBytes 2 (k / 64) ++ leBytes 1 (k % 64) ++ leBytes 1 i.1 ++ leBytes 4 (i.2 % 2 ^ 32) ++
    leBytes 8 (t.faultPc % 2 ^ 42 + 2 ^ 42 * sat 22 ((s0.clk.arith - t.parkedAt) / 1024))
def flagBytes (s0 : State) (e : Nat × Entry) : List Byte :=
  leBytes 4 (handleOf (e.1 / 16384) e.2.gen (e.1 % 16384)) ++ leBytes 4 e.2.flags ++ leBytes 4 e.2.trec.mask ++
    leBytes 4 (sat 32 ((s0.clk.arith - e.2.accepted) / 256))
def State.dumpBase (s : State) (q : Nat) : Nat := s.fget (blkSYNC q) F.SYNC.DUMP_BASE.BASE * 2 ^ 24
/-- Dump number `n` of quarter `q`, from the state at the freeze. -/
def State.writeDump (s : State) (q n kind index : Nat) : State :=
  let s0 := s
  let a := s.dumpBase q + (n - 1) % 2 * 0x800000
  let ws := s.waitRecs q
  let sp := s.parkedSpawns q
  let ths := s.parkedThreads q
  let fl := s.flagWaits q
  let hdr := leBytes 4 0x43504455 ++ leBytes 2 1 ++ leBytes 1 q ++ leBytes 1 kind ++ leBytes 8 s.now ++ leBytes 4 index ++
    leBytes 4 (s.fget blkMODE F.MODE.MODE_EPOCH.EPOCH) ++ leBytes 4 n ++ leBytes 4 (ws.length + sp.length) ++ leBytes 4 ths.length ++
    leBytes 4 fl.length ++ leBytes 24 0
  let s := s.dumpWrite q a hdr
  let s := (List.range 16384).foldl (fun s i =>
    s.dumpWrite q (a + 0x1000 + 64 * i) ((List.range 4).flatMap (fun j => (s0.obj (65536 * q + 4 * i + j)).dumpBytes))) s
  let s := s.dumpRecs q (a + 0x101000) ws (waitBytes s0)
  let s := s.dumpRecs q (a + 0x101000 + 16 * ws.length) sp (fun _ x => spawnBytes s0 x)
  let s := s.dumpRecs q (a + 0x514000) ths (threadBytes s0)
  s.dumpRecs q (a + 0x614000) fl (fun _ e => flagBytes s0 e)

/-! ### Firing (R197, R198) -/

/-- The number of the next dump; a counter that stays at its largest value (R202). -/
def State.nextDump (s : State) (q : Nat) : Nat := min (s.fget (blkSYNC q) F.SYNC.WD_STATUS.DUMP_SEQ + 1) (2 ^ 32 - 1)
/-- RUN jobs of quarter `q` that have not come to run complete with WATCHDOG while its dispatch is stopped (R198). -/
def State.endRuns (s : State) (q : Nat) : State :=
  (s.jobs.filter (fun (x : Job) => x.kind == 0 && bit x.qmask q && (x.phase == .rootsWait || x.phase == .begun))).foldl
    (fun s (x : Job) => s.endJob x.id 0x21 (s.wd q).errRef) s
/-- The watchdog fires: dispatch stops, the table freezes, the dump is written; the report that follows has its number already. -/
def State.wdFire (s : State) (q kind index : Nat) : State :=
  let s := (s.fset (blkTSCHED q) F.TSCHED.SCHED_STATUS.STOPPED 1).fset (blkSYNC q) F.SYNC.WD_STATUS.DUMPING 1
  let s := s.setWd q { s.wd q with step4 := false, ended := [], trigKind := kind, trigIdx := index, errRef := some s.err.nextId }
  (s.nextReport.writeDump q (s.nextDump q) kind index).endRuns q
/-- WATCHDOG_CHECK: at the instants 2^20 ARITH cycles apart. -/
def execWatchdogCheck (q : Fin 4) (s : State) : Host.Outcome State Fault Refusal :=
  let q := q.val
  let w := s.wd q
  .next (if !s.alive || !s.qUp q || s.clk.arith % 2 ^ 20 != 0 || decide (s.clk.arith / 2 ^ 20 ≤ w.checks) then s
    else
      let s := s.setWd q { w with checks := s.clk.arith / 2 ^ 20 }
      if s.fbit (blkTSCHED q) F.TSCHED.SCHED_STATUS.STOPPED then s
      else match oldest (s.timedWaits q) with
        | some (kind, index, age) =>
          if s.fget (blkSYNC q) F.SYNC.WAIT_LIMIT.LIMIT * 65536 ≤ age then s.wdFire q kind index else s
        | none => s)
/-- CUPPING_DUMP_DONE: the table resumes, the firing is reported, the jobs end with WATCHDOG. -/
def State.dumpDone (s : State) (q : Nat) : State :=
  let b := blkSYNC q
  let n := s.nextDump q
  let slot := (n + 1) % 2
  let s := ((s.fset b F.SYNC.WD_STATUS.DUMPING 0).fset b F.SYNC.WD_STATUS.FIRED 1).fset b F.SYNC.WD_STATUS.DUMP_SLOT slot
  let s := s.fset b F.SYNC.WD_STATUS.DUMP_SEQ n
  let id := (s.wd q).errRef.getD 0
  let fits := s.reportFits 0xA8 b
  let s := s.reportAs id 2 0xA8 b 0 0 0 0 (slot + n * 2 ^ 32)
  -- the ports learn it once the record is logged (R376)
  let s := if fits then s else (s.devEvent 0 1).devEvent 1 1
  let mine := (s.jobs.filter (fun (x : Job) => s.taskIn q x.id || s.waitIn q x.id)).map (fun (x : Job) => x.id)
  let s := s.setWd q { s.wd q with step4 := true, ended := mine }
  mine.foldl (fun s j => s.endJob j 0x21 (some id)) s
def execCuppingDumpDone (q : Fin 4) (s : State) : Host.Outcome State Fault Refusal :=
  .next (if s.alive && s.tableFrozen q.val then s.dumpDone q.val else s)
/-- RESUME (R199). -/
def State.wdResume (s : State) (q : Nat) : State :=
  let w := s.wd q
  if !s.fbit (blkTSCHED q) F.TSCHED.SCHED_STATUS.STOPPED then s
  else if s.tableFrozen q || !w.step4 || s.jobs.any (fun (x : Job) => w.ended.contains x.id) then
    s.fset (blkSYNC q) F.SYNC.WD_STATUS.RESUME_REJECT 1
  else s.fset (blkTSCHED q) F.TSCHED.SCHED_STATUS.STOPPED 0
def execResume (q : Fin 4) (s : State) : Host.Outcome State Fault Refusal :=
  .next (s.inService (blkSYNC q.val) F.SYNC.WD_CTL.RESUME.reg (fun s => s.wdResume q.val))
/-- A base wholly inside the quarter's own stacks (R200). -/
def dumpBaseOk (q base : Nat) : Bool :=
  decide (q * 0x009000000000 ≤ base * 2 ^ 24) && decide (base * 2 ^ 24 + 0x1000000 ≤ (q + 1) * 0x009000000000)
/-- DUMP_BASE_WRITE. -/
def State.dumpBaseWrite (s : State) (q v : Nat) : State :=
  if dumpBaseOk q (bits v 24 25) then s.fset (blkSYNC q) F.SYNC.DUMP_BASE.BASE (bits v 24 25) else s
def execDumpBaseWrite (q : Fin 4) (rq : Requester) (v : Word) (s : State) : Host.Outcome State Fault Refusal :=
  .next (s.regGuard rq (blkSYNC q.val) F.SYNC.DUMP_BASE.BASE.reg (fun s => s.dumpBaseWrite q.val v.toNat))

end Sys2Proof.Machine
end

