-- ==== Sys2Proof/Machine/Trust.lean ====
section
/-! DEFINITION. The Ledger (R8, R420-R422), signed requests (R414-R416, R423), attestation (R419). -/

namespace Sys2Proof.Machine

def State.setTrust (s : State) (x : TrustSt) : State := { s with trust := x }

/-! ### The Ledger (R8, R420-R422) -/

/-- Records of a kind; of kind 4 those of one stack, of kinds 5 and 6 those of one quarter (Table 18.6). Entry to RMA changes the owner key
in its own record. -/
def State.ledgerUsed (s : State) (kind index : Nat) : Nat :=
  (s.trust.ledger.filter (fun (r : LedgerRec) =>
    (r.kind == kind && (if kind = 4 then r.index / 256 % 256 == index / 256 % 256 else if kind = 5 ∨ kind = 6 then r.index % 256 == index % 256
      else true)) || (kind == 2 && r.kind == 3 && r.new == 2))).length
/-- Changes over the part's life. -/
def ledgerLimit (kind : Nat) : Nat :=
  if kind = 1 then 255 else if kind = 2 then 16 else if kind = 3 then 8 else if kind = 4 then 16 else if kind = 5 then 32 else 2
def State.exhausted (s : State) (kind index : Nat) : Bool := decide (ledgerLimit kind ≤ s.ledgerUsed kind index)
def State.ledgerLeft (s : State) (kind index : Nat) : Nat := ledgerLimit kind - s.ledgerUsed kind index
def State.ledgerSeq (s : State) : Nat := s.fget blkSILPAOT F.SILPAOT.LEDGER_SEQ.SEQ
/-- A record is committed; LEDGER_SEQ advances. -/
def State.commitRec (s : State) (kind index old new signer : Nat) : State :=
  let n := s.ledgerSeq
  let t := s.trust
  (s.setTrust { t with ledger := t.ledger ++ [LedgerRec.mk n kind index old new s.now t.colds signer] }).fset blkSILPAOT
    F.SILPAOT.LEDGER_SEQ.SEQ (n + 1)
/-- The owner key, as a number; 0: none. -/
def State.ownerKey (s : State) : Nat :=
  (List.range 4).foldl (fun v i => v + s.fget blkSILPAOT F.SILPAOT.OWNER_KEY.KEY (8 * i) * 2 ^ (64 * i)) 0
def State.setOwnerKey (s : State) (v : Nat) : State :=
  (List.range 4).foldl (fun s i => s.fset blkSILPAOT F.SILPAOT.OWNER_KEY.KEY (bits v (64 * i) 64) (8 * i)) s
/-- SVN_FLOOR rises. -/
def State.raiseFloor (s : State) (v signer : Nat) : State :=
  let old := s.fget blkSILPAOT F.SILPAOT.SVN_FLOOR.FLOOR
  (s.commitRec 1 0 old v signer).fset blkSILPAOT F.SILPAOT.SVN_FLOOR.FLOOR v
/-- The debug state moves; entry to RMA erases the identity key and the owner key. -/
def State.moveDebug (s : State) (v signer : Nat) : State :=
  let old := s.fget blkSILPAOT F.SILPAOT.DEBUG.STATE
  let s := (s.commitRec 3 0 old v signer).fset blkSILPAOT F.SILPAOT.DEBUG.STATE v
  if v ≠ 2 then s
  else
    let s := (s.setTrust { s.trust with erased := true }).setOwnerKey 0
    (List.range 4).foldl (fun s i => s.fset blkID F.ID.IDKEY.KEY 0 (8 * i)) s
/-- Table 18.7. -/
def debugMove (old new : Nat) : Bool :=
  (old == 0 && new == 1) || (old == 1 && new == 0) || (decide (old ≤ 1) && new == 2)
/-- The whole LW value of a register, and with the LW fields of `v` put in. -/
def lwFields (n off : Nat) : List Fld :=
  match blockKind n with
  | some k => (fieldsAt k off).filter (fun f => f.acc == .lw)
  | none => []
def State.lwValue (s : State) (n off : Nat) : Nat :=
  (lwFields n off).foldl (fun v f => v + s.fget n f (off - f.reg) * 2 ^ f.lo) 0
def lwOf (n off v : Nat) : Nat := (lwFields n off).foldl (fun x f => x + bits v f.lo f.w * 2 ^ f.lo) 0
def State.setLw (s : State) (n off v : Nat) : State :=
  (lwFields n off).foldl (fun s f => s.fset n f (bits v f.lo f.w) (off - f.reg)) s
/-- A change of `STACKk.REPAIR[ch]` or `CELLAR.SPARE_MAP` beyond its limit: the channel fails (R312); the failed bank that
the change named is DEGRADED (R296). -/
def State.lwRefused (s : State) (n off v : Nat) : State :=
  let q := n / 0x100
  match blockKind n with
  | some .stack => s.chFail (6 * q + n % 0x100 - 0x10) ((off - 0x1008) / 64)
  | some .cellar =>
    let i := if bit v 14 && !s.fbit n F.CELLAR.SPARE_MAP.SPARE1_USED then 8 else 0
    s.report 3 0xA9 n 0 0 0 0 (bits v i 6)
  | _ => s
/-- The physical position, 0 to 1,055 of its quarter, of logical core `c` (R11). -/
def corePlace (m : Sparse Nat) (q c : Nat) : Nat :=
  match Sparse.get 0 m (1024 * q + c) with
  | 0 => c
  | p + 1 => p
/-- A core of quarter `q` has failed firmware's test: spare `i` takes its number from the next COLD reset on (R11, R420, Table 18.6).
The record gives the positions; without a change left, or a spare that is free, the quarter is DEGRADED. -/
def State.coreRepair (s : State) (q c i signer : Nat) : State :=
  let m := s.trust.cores
  if 1024 ≤ c ∨ 32 ≤ i then s
  else if s.exhausted 5 q ∨ (List.range 1024).any (fun x => corePlace m q x == 1024 + i) then s.report 3 0xB0 (blkQCTL q) 0 0 0 0 c
  else
    let s := s.commitRec 5 (q + 256 * i) (corePlace m q c) (1024 + i) signer
    s.setTrust { s.trust with cores := Sparse.put 0 m (1024 * q + c) (1025 + i) }
/-- Firmware writes the register at `off` of block `n` with LW fields `v`: the value it holds uses no change; a reserved
encoding, a floor not raised and a forbidden debug move leave the field as it is. -/
def State.lwWrite (s : State) (n off v signer : Nat) : State :=
  let old := s.lwValue n off
  let new := lwOf n off v
  if new = old then s
  else match blockKind n with
    | some .silpaot =>
      if off = F.SILPAOT.SVN_FLOOR.FLOOR.reg then
        (if new < old ∨ s.exhausted 1 0 then s else s.raiseFloor new signer)
      else if !debugMove old new || s.exhausted 3 0 || (new == 2 && s.exhausted 2 0) then s
      else s.moveDebug new signer
    | some .stack =>
      let k := 6 * (n / 0x100) + n % 0x100 - 0x10
      let ix := n / 0x100 + 256 * k + 65536 * ((off - 0x1008) / 64)
      if s.exhausted 4 ix then s.lwRefused n off v else (s.commitRec 4 ix old new signer).setLw n off v
    | some .cellar =>
      if s.exhausted 6 (n / 0x100) then s.lwRefused n off v else (s.commitRec 6 (n / 0x100) old new signer).setLw n off v
    | _ => s
/-- LEDGER_CHANGE: a write of a register with LW fields; the signer is firmware itself (3). Of a QCTL block: the spare-core map of the
quarter, which no register shows; core `off / 8` takes spare `v` (log entry 38). -/
def State.ledgerChange (s : State) (rq : Requester) (n off v : Nat) : State :=
  if blockKind n = some .qctl then (if isFw rq then s.coreRepair (n / 0x100) (off / 8) v 3 else s.regError n off true 1)
  else if (lwFields n off).isEmpty then s else s.regGuard rq n off (fun s => s.lwWrite n off v 3)
def execLedgerChange (rq : Requester) (blk : BitVec 12) (off : BitVec 20) (v : Word) (s : State) : Host.Outcome State Fault Refusal :=
  .next (s.ledgerChange rq blk.toNat off.toNat v.toNat)

/-! ### Signed requests (R414-R416) -/

/-- A write of REQ_ADDR[p]; of two in one CTRL cycle P0's is first. -/
def State.reqAddrWrite (s : State) (p v : Nat) : State :=
  let ix := 16 * p
  let b := blkSILPAOT
  if s.fbit b F.SILPAOT.REQ_STATUS.BUSY ix then s.fset b F.SILPAOT.REQ_STATUS.REJECT 1 ix
  else
    let r : TrustReq := ⟨p, bits v 0 49, s.ctrl⟩
    let l := s.trust.reqs
    let before := l.filter (fun (x : TrustReq) => !(p == 0 && x.at_ == s.ctrl))
    let after := l.filter (fun (x : TrustReq) => p == 0 && x.at_ == s.ctrl)
    (s.setTrust { s.trust with reqs := before ++ [r] ++ after }).fset b F.SILPAOT.REQ_STATUS.BUSY 1 ix
/-- REQ_ADDR_WRITE. -/
def execReqAddrWrite (p : Fin 2) (rq : Requester) (v : Word) (s : State) : Host.Outcome State Fault Refusal :=
  .next (s.regGuard rq blkSILPAOT (F.SILPAOT.REQ_ADDR.ADDR.reg + 16 * p.val) (fun s => s.reqAddrWrite p.val v.toNat))

/-- A signed request (Table 18.4), as firmware reads it. -/
structure SReq where
  v : Nat
  deriving DecidableEq, Repr

def SReq.kind (r : SReq) : Nat := bits r.v 32 8
def SReq.signer (r : SReq) : Nat := bits r.v 40 8
def SReq.arg0 (r : SReq) : Nat := bits r.v (8 * 32) 64
def SReq.arg1 (r : SReq) : Nat := bits r.v (8 * 40) 64
def SReq.newKey (r : SReq) : Nat := bits r.v (8 * 64) 256
/-- MAGIC, KIND, SIGNER and the bytes that must be zero. -/
def SReq.formOk (r : SReq) : Bool :=
  bits r.v 0 32 == 0x53514C44 && decide (1 ≤ r.kind ∧ r.kind ≤ 4) && decide (r.signer ≤ 2) && bits r.v 48 16 == 0 &&
    bits r.v (8 * 48) 128 == 0 && bits r.v (8 * 96) 256 == 0 && (r.kind == 3 || r.newKey == 0) && (r.kind == 1 || r.arg1 == 0)
/-- A span of the stack region that firmware can read. -/
def State.fwSpan (s : State) (a n : Nat) : Bool :=
  n != 0 && decide (a + n ≤ 0x024000000000) && s.spanAdm .firmware a n false != .refuse

/-! Image banks (R411, Table 18.2) -/

/-- An image at the head of a byte list, of kind `kind`: its header is in form; its SVN, its length with header and
signature, and its first 64 + LENGTH bytes. -/
def imageAt (l : List Byte) (kind : Nat) : Option (Nat × Nat × List Byte) :=
  let h := leNat (l.take 64)
  let n := bits h 64 32
  let ok := decide (64 ≤ l.length) && bits h 0 32 == 0x494D4731 && bits h 32 8 == kind && decide (bits h 40 8 ≤ 1) &&
    bits h 56 8 == 0 && n % 64 == 0 && decide (bits h 96 32 < n) && bits h 128 384 == 0 && decide (n + 128 ≤ l.length)
  if ok then some (bits h 48 8, n + 128, l.take (n + 64)) else none
/-- The three images of a bank, each with its SVN and signed bytes; none: one is out of form or the bank too long. -/
def bankOf (l : List Byte) : Option (List (Nat × List Byte)) :=
  if 1916 * 1024 < l.length then none
  else match imageAt l 1 with
    | none => none
    | some (v1, n1, b1) => match imageAt (l.drop n1) 2 with
      | none => none
      | some (v2, n2, b2) => match imageAt (l.drop (n1 + n2)) 3 with
        | none => none
        | some (v3, _, b3) => some [(v1, b1), (v2, b2), (v3, b3)]
def FwBank.ofImages (l : List (Nat × List Byte)) : FwBank :=
  ⟨true, l.map (fun (e : Nat × List Byte) => e.1), l.map (fun (e : Nat × List Byte) => Config.sha512 e.2)⟩
/-- The SVNs of a bank are at or above the floor. -/
def FwBank.above (b : FwBank) (floor : Nat) : Bool := b.svns.all (fun v => decide (floor ≤ v))

/-! Checks and results (Table 18.5) -/

/-- The signer that KIND allows; for a debug move that Table 18.7 forbids the check is left to NOT_ALLOWED. -/
def State.signerOk (s : State) (r : SReq) : Bool :=
  let owner := s.ownerKey != 0
  if r.kind = 4 then
    let old := s.fget blkSILPAOT F.SILPAOT.DEBUG.STATE
    if !debugMove old r.arg0 then true else if r.arg0 = 2 then decide (r.signer ≤ 1) else r.signer == 2 && owner
  else if owner then r.signer == 2 else decide (r.signer ≤ 1)
/-- The bank that an FW_UPDATE names. -/
def State.newBank (s : State) (r : SReq) : Option (List (Nat × List Byte)) :=
  if s.fwSpan r.arg0 r.arg1 && !s.readPoison r.arg0 r.arg1 then bankOf (s.viewBytes r.arg0 r.arg1) else none
/-- The result of request `r`; `sig`, `images`: whether its signature, and the images' signatures, are valid. -/
def State.reqResult (s : State) (r : SReq) (sig : Bool) (images : BitVec 3) : Nat :=
  let floor := s.fget blkSILPAOT F.SILPAOT.SVN_FLOOR.FLOOR
  let old := s.fget blkSILPAOT F.SILPAOT.DEBUG.STATE
  if !r.formOk || (r.kind == 1 && (s.newBank r).isNone) then 1
  else if bits r.v (8 * 8) 128 ≠ s.fget blkID F.ID.UNIT_ID_LO.ID + s.fget blkID F.ID.UNIT_ID_HI.ID * 2 ^ 64 then 2
  else if !s.signerOk r then 3
  else if !sig || (r.kind == 1 && images != 7#3) then 4
  else if bits r.v (8 * 24) 64 ≠ s.ledgerSeq then 5
  else if r.kind = 1 then
    (match s.newBank r with
      | some l => if (FwBank.ofImages l).above floor then 0 else 6
      | none => 1)
  else if r.kind = 2 then (if r.arg0 ≤ floor ∨ 255 < r.arg0 then 6 else if s.exhausted 1 0 then 7 else 0)
  else if r.kind = 3 then (if s.exhausted 2 0 then 7 else 0)
  else if !debugMove old r.arg0 then 6
  else if s.exhausted 3 0 || (r.arg0 == 2 && s.exhausted 2 0) then 7 else 0
/-- An image bank goes into the bank not in use; then the boot selector names it (R414). -/
def State.installBank (s : State) (b : FwBank) : State :=
  let t := s.trust
  let inB := s.fbit blkSILPAOT F.SILPAOT.BOOT_STATUS.BANK
  s.setTrust (if inB then { t with bankA := b, sel := false } else { t with bankB := b, sel := true })
/-- What an accepted request does. A Ledger record's old and new values of an owner key are open. -/
def State.reqEffect (s : State) (r : SReq) : State :=
  if r.kind = 1 then
    (match s.newBank r with
      | some l => s.installBank (FwBank.ofImages l)
      | none => s)
  else if r.kind = 2 then s.raiseFloor r.arg0 r.signer
  else if r.kind = 3 then
    let a := s.fresh
    let b := a.2.fresh
    (b.2.commitRec 2 0 a.1.toNat b.1.toNat r.signer).setOwnerKey r.newKey
  else s.moveDebug r.arg0 r.signer
/-- Firmware serves the first waiting request, if it is of kind `kind`; one whose KIND is none of the four, or that cannot
be read, is met with the first kind. -/
def State.serve (s : State) (kind : Nat) (sig : Bool) (images : BitVec 3) : State :=
  match s.trust.reqs with
  | [] => s
  | q :: rest =>
    let ok := q.addr % 64 == 0 && s.fwSpan q.addr 192
    let poison := s.readPoison q.addr 192
    let r : SReq := ⟨s.viewNat q.addr 192⟩
    let k := if ok && !poison && decide (1 ≤ r.kind ∧ r.kind ≤ 4) then r.kind else 1
    if k ≠ kind ∨ !s.alive ∨ s.pow.mgmtReset then s
    else if ok && s.spanAdm .firmware q.addr 192 false == .wait then s
    else
      let s := s.setTrust { s.trust with reqs := rest }
      let s := if ok then s.spanTouch .firmware q.addr 192 else s
      let res := if !ok || poison then 1 else s.reqResult r sig images
      let s := if res = 0 then s.reqEffect r else s
      let ix := 16 * q.port
      ((s.fset blkSILPAOT F.SILPAOT.REQ_STATUS.BUSY 0 ix).fset blkSILPAOT F.SILPAOT.REQ_STATUS.DONE 1 ix).fset blkSILPAOT
        F.SILPAOT.REQ_STATUS.RESULT res ix
def execFwUpdate (sig : Bool) (images : BitVec 3) (s : State) : Host.Outcome State Fault Refusal := .next (s.serve 1 sig images)
def execRaiseFloor (sig : Bool) (s : State) : Host.Outcome State Fault Refusal := .next (s.serve 2 sig 0)
def execOwnerKey (sig : Bool) (s : State) : Host.Outcome State Fault Refusal := .next (s.serve 3 sig 0)
def execDebug (sig : Bool) (s : State) : Host.Outcome State Fault Refusal := .next (s.serve 4 sig 0)

/-! ### Attestation (R419) -/

def State.spdm (s : State) (p : Nat) : Spdm := if p = 0 then s.trust.spdm0 else s.trust.spdm1
def State.setSpdm (s : State) (p : Nat) (x : Spdm) : State :=
  s.setTrust (if p = 0 then { s.trust with spdm0 := x } else { s.trust with spdm1 := x })
/-- The mailbox of port `p` answers: ERROR Busy (0x03) during a MGMT reset, ERROR UnexpectedRequest (0x04) before the
negotiation has come to stage `need` (PRESUMED, SPDM 1.2), else `reply`, and the negotiation stands at `stage`. -/
def State.answer (s : State) (p need stage : Nat) (reply : SpdmReply) : State :=
  let x := s.spdm p
  if s.pow.boot != .running || !(s.port p).link then s
  else if s.pow.mgmtReset then s.setSpdm p { x with reply := .error 3 }
  else if x.stage < need then s.setSpdm p { x with reply := .error 4 }
  else s.setSpdm p ⟨stage, reply⟩
/-- A reply for slot 0; another slot is an InvalidRequest (0x01). -/
def slotReply (slot : Nat) (r : SpdmReply) : SpdmReply := if slot = 0 then r else .error 1
/-- The measurements of R419, by index. -/
def State.measure (s : State) (i : Nat) : Option (List Nat) :=
  let t := s.trust
  if i = 1 then some [Config.romDigest]
  else if 2 ≤ i ∧ i ≤ 4 then some [t.digs.getD (i - 2) 0]
  else if i = 5 then some ([s.fget blkSILPAOT F.SILPAOT.SVN_FLOOR.FLOOR, Config.sha512 (leBytes 32 s.ownerKey),
    s.fget blkSILPAOT F.SILPAOT.DEBUG.IN_EFFECT, s.ledgerLeft 1 0, s.ledgerLeft 2 0, s.ledgerLeft 3 0] ++
    (List.range 24).map (fun k => s.ledgerLeft 4 (256 * k)) ++ (List.range 4).map (fun q => s.ledgerLeft 5 q) ++
    (List.range 4).map (fun q => s.ledgerLeft 6 q))
  else if i = 6 then some [t.profile]
  else none
/-- One measurement, or all of them (index 0xFF). -/
def State.measures (s : State) (i : Nat) : List (Nat × List Nat) :=
  ((List.range 7).filter (fun k => k == i || i == 0xFF)).filterMap (fun k => (s.measure k).map (fun v => (k, v)))
def execGetVersion (p : Fin 2) (s : State) : Host.Outcome State Fault Refusal := .next (s.answer p.val 0 1 .version)
def execGetCapabilities (p : Fin 2) (s : State) : Host.Outcome State Fault Refusal := .next (s.answer p.val 1 2 .capabilities)
/-- NEGOTIATE_ALGORITHMS: whether the requester offered Ed25519 and SHA-512. -/
def execNegotiateAlgorithms (p : Fin 2) (offered : Bool) (s : State) : Host.Outcome State Fault Refusal :=
  .next (if offered then s.answer p.val 2 3 .algorithms else s.answer p.val 2 2 (.error 1))
def execGetDigests (p : Fin 2) (s : State) : Host.Outcome State Fault Refusal := .next (s.answer p.val 3 3 .digests)
def execGetCertificate (p : Fin 2) (slot : Fin 8) (off len : BitVec 16) (s : State) : Host.Outcome State Fault Refusal :=
  .next (s.answer p.val 3 3 (slotReply slot.val (.certificate off.toNat len.toNat)))
/-- CHALLENGE fails once RMA has erased the identity key (R423); with which error the spec does not say: Unspecified
(0x05, PRESUMED). -/
def execChallenge (p : Fin 2) (slot : Fin 8) (nonce : Nat) (s : State) : Host.Outcome State Fault Refusal :=
  .next (s.answer p.val 3 3 (slotReply slot.val (if s.trust.erased then .error 5 else .challengeAuth nonce)))
def execGetMeasurements (p : Fin 2) (index : BitVec 8) (signed : Bool) (nonce : Nat) (s : State) : Host.Outcome State Fault Refusal :=
  let l := s.measures index.toNat
  .next (s.answer p.val 3 3 (if l.isEmpty || (signed && s.trust.erased) then .error 1 else .measurements l signed nonce))

end Sys2Proof.Machine
end

