-- ==== Sys2Proof/Machine/Power.lean ====
section
/-! DEFINITION. Start-up (R389, R412, R413), resets (R390-R395), throttling (R396-R398), low power (R400-R404), what
survives (R405, R406). -/

namespace Sys2Proof.Machine

def State.setPow (s : State) (x : PowSt) : State := { s with pow := x }

/-! ### Pieces of resets (Table 17.6) -/

/-- Register fields that live in the Ledger, the MRAM or the flash: a COLD reset keeps them. -/
def keptField (key : Nat) : Bool :=
  let n := key / 64 / 0x100000
  let off := key / 64 % 0x100000
  let lo := key % 64
  match blockKind n with
  | some .id => true
  | some .silpaot =>
    off == F.SILPAOT.LEDGER_SEQ.SEQ.reg || decide (0x100 ≤ off ∧ off < 0x120) || off == F.SILPAOT.SVN_FLOOR.FLOOR.reg ||
      (off == F.SILPAOT.DEBUG.STATE.reg && lo == 0) || (off == F.SILPAOT.LOG_HEAD.JHEAD.reg && lo == 32)
  | some .fm => off == F.FM.CAPACITY.LPAGES.reg
  | some k => (fieldsAt k off).any (fun f => f.acc == .lw && f.lo == lo)
  | none => false
/-- Fields that only a COLD reset clears: failed stacks, channels and banks (R405), a manager's failed targets and DEGRADED
state (R370). -/
def coldField (key : Nat) : Bool :=
  let n := key / 64 / 0x100000
  let off := key / 64 % 0x100000
  let lo := key % 64
  match blockKind n with
  | some .stack => idxOk F.STACK.CH_STATUS.FAILED.idx (off - F.STACK.CH_STATUS.FAILED.reg) && decide (F.STACK.CH_STATUS.FAILED.reg ≤ off) &&
      lo == F.STACK.CH_STATUS.FAILED.lo
  | some .cellar => decide (F.CELLAR.BANK_STATUS.FAILED.reg ≤ off) && idxOk F.CELLAR.BANK_STATUS.FAILED.idx (off - F.CELLAR.BANK_STATUS.FAILED.reg) &&
      lo == F.CELLAR.BANK_STATUS.FAILED.lo
  | some .fm => off == F.FM.FM_STATUS.DEGRADED.reg && lo != 0
  | some .f => off == F.F.CH_STATUS.FAILED.reg && lo == F.F.CH_STATUS.FAILED.lo
  | _ => false
/-- Blocks `lo` to `hi - 1` at their values at cold reset, but for the fields above. -/
def State.softReset (s : State) (lo hi : Nat) : State :=
  { s with regs := s.regs.filter (fun (e : Nat × Nat) =>
      let n := e.1 / 64 / 0x100000
      n < lo || hi ≤ n || keptField e.1 || coldField e.1) }
/-- The SYNC block of quarter `q` at cold reset: its dump region is the last 16 MiB of its stacks. -/
def State.resetSync (s : State) (q : Nat) : State :=
  (s.resetBlock (blkSYNC q)).fset (blkSYNC q) F.SYNC.DUMP_BASE.BASE ((q + 1) * 0x9000 - 1)
/-- Whether stack `k` has a failed channel. -/
def State.stackFailed (s : State) (k : Nat) : Bool :=
  (List.range 16).any (fun ch => s.fbit (blkSTACK k) F.STACK.CH_STATUS.FAILED (chIx ch))
def stripKeys {α : Type} (l : Sparse α) (p : Nat → Bool) : Sparse α := l.filter (fun (e : Nat × α) => !p e.1)
/-- The logic of cluster `cl`, 0-63, at cold reset, its scratch zero: cores, arrays, contexts, their register blocks. -/
def State.resetCluster (s : State) (cl : Nat) : State :=
  let s := ((s.resetBlock (blkCLUS cl)).resetBlock (blkSTRM cl)).resetBlock (blkPRESS cl)
  { s with cores := stripKeys s.cores (fun k => k / 64 == cl), threads := stripKeys s.threads (fun k => k / 4096 == cl)
           arrs := stripKeys s.arrs (fun k => k / 256 == cl), vecs := stripKeys s.vecs (fun k => k / 64 == cl)
           ctxs := stripKeys s.ctxs (fun k => k / 64 == cl), hops := s.hops.filter (fun (h : Hop) => h.ctx / 64 != cl)
           mem := s.mem.zero (scratchAddr (64 * cl) 0) (scratchAddr (64 * cl + 64) 0) }
/-- The logic of quarter `q` at the values of the survival table. -/
def State.resetLogic (s : State) (q : Nat) : State :=
  let s := (List.range 16).foldl (fun s i => s.resetCluster (16 * q + i)) s
  let s := (((s.resetBlock (blkTSCHED q)).resetSync q).resetBlock (blkMESH q)).resetBlock (blkDIGEST q)
  let s := (List.range 4).foldl (fun s i => s.resetBlock (blkGRIND (4 * q + i))) s
  let ofG (g : Nat) : Bool := g / 4 == q
  { s with fabric := { s.fabric with meshCe := stripKeys s.fabric.meshCe (· == q) }
           tasks := stripKeys s.tasks (fun k => k / 16384 == q), scheds := stripKeys s.scheds (· == q)
           objs := stripKeys s.objs (fun k => k / 65536 == q), wds := stripKeys s.wds (· == q)
           spawns := s.spawns.filter (fun (x : Spawn) => x.q != q && x.thread / 65536 != q)
           bags := s.bags.filter (fun (b : Bag) => !(s.cmd? b.cmd).any (fun c => match c.unit with
             | .grind g => ofG g
             | _ => false))
           defers := s.defers.filter (fun (d : Defer) => !ofG d.g), moves := s.moves.filter (fun (m : Move) => !ofG m.g)
           cmds := s.cmds.filter (fun (c : Cmd) => match c.unit with
             | .grind g => !ofG g
             | _ => true)
           slots := stripKeys s.slots (fun k => ofG (k / 32)), shards := stripKeys s.shards (fun k => ofG (k / 1024 / 32))
           digNew := stripKeys s.digNew (fun k => k / 64 == q)
           sketch := stripKeys s.sketch (fun k => ofG (k / 16384 / 16)), sketchN := stripKeys s.sketchN (fun k => ofG (k / 16)) }
/-- Flash manager `h` restarts: INIT, its registers at cold reset but for what the flash holds. -/
def State.restartFlash (s : State) (h : Nat) : State :=
  let s := (List.range 8).foldl (fun s c => s.softReset (blkF (8 * h + c)) (blkF (8 * h + c) + 1)) s
  let s := s.softReset (blkFM h) (blkFM h + 1)
  s.setFlash h { s.flash h with scrub := none, first := true }
/-- The hours of the flash managers are carried over a restart of the ARITH count. -/
def State.carryHours (s : State) : State :=
  [0, 1].foldl (fun (s : State) h => if s.flash h = Flash.init then s else s.setFlash h { s.flash h with hours0 := s.hours h }) s
/-- A PCIe port whose link and configuration space are kept. -/
def Port.kept (x : Port) : Port :=
  { Port.init with link := x.link, rate := x.rate, width := x.width, noLink := x.noLink, perst := x.perst, d3hot := x.d3hot,
                   aer := x.aer, raised := x.raised, masked := x.masked, pend := x.pend }

/-! ### COLD reset (R387, R389, R390) -/

/-- Everything at its value at cold reset, the device held; what the Ledger, the MRAM and the flash hold is kept. -/
def State.coldReset (s : State) (cause rail : Nat) : State :=
  let s := s.carryHours
  let p := s.pow
  let r : State := { State.reset with
    pending := s.pending, freeCtr := s.freeCtr, host := s.host
    regs := s.regs.filter (fun (e : Nat × Nat) => keptField e.1)
    ports := s.ports.map (fun (e : Nat × Port) => (e.1, { Port.init with raised := e.2.raised, perst := e.2.perst }))
    err := { State.reset.err with nextId := s.err.nextId, journal := s.err.journal }
    flashes := s.flashes.map (fun (e : Nat × Flash) => (e.1, { e.2 with scrub := none, first := true }))
    pow := { PowSt.init with boot := .held, pwrGood := p.pwrGood, coldRstN := p.coldRstN, rails := p.rails, alertN := p.alertN,
                             temps := p.temps, level := if p.alertN then 0 else 12 }
    trust := { s.trust with colds := s.trust.colds + 1, reqs := [], spdm0 := Spdm.init, spdm1 := Spdm.init } }
  let r := (List.range 4).foldl (fun r q => ((r.resetSync q).fset (blkQCTL q) F.QCTL.Q_STATUS.STATE 0).coldBanks s q) r
  let r := (List.range 24).foldl (fun r k => r.fset (blkSTACK k) F.STACK.STACK_STATUS.STATE 0) r
  let r := (r.fset blkCLK F.CLK.CLK_STATUS.PLL_LOCK 0).fset blkHCTL F.HCTL.PWR_STATUS.LAST_CAUSE cause
  r.fset blkHCTL F.HCTL.PWR_STATUS.LAST_RAIL rail
/-- A device already held stays held. -/
def State.holdCold (s : State) (cause rail : Nat) : State :=
  if s.pow.boot = .held then s else s.coldReset cause rail
/-- RAIL_OUT_OF_TOLERANCE: `beyond` for more than 1 µs. With VDD_MGMT (12) lost too, the cause will be POWER_ON. -/
def execRailOutOfTolerance (rail : Fin 14) (beyond : Bool) (s : State) : Host.Outcome State Fault Refusal :=
  .next (if !beyond then s
    else
      let s := s.setPow { s.pow with rails := s.pow.rails &&& ~~~((1 : BitVec 14) <<< rail.val) }
      if rail.val = 12 then s.holdCold 0 0 else s.holdCold 3 rail.val)
def execPwrGoodLow (s : State) : Host.Outcome State Fault Refusal :=
  .next ((s.setPow { s.pow with pwrGood := false }).holdCold 1 0)
def execColdRstNLow (s : State) : Host.Outcome State Fault Refusal :=
  .next ((s.setPow { s.pow with coldRstN := false }).holdCold 2 0)
/-- COLD_RESET_RELEASE: rails, PWR_GOOD and COLD_RST_N are good; without a good reference the PLL does not lock. -/
def execColdResetRelease (refOk : Bool) (s : State) : Host.Outcome State Fault Refusal :=
  .next (if s.pow.boot ≠ .held then s
    else
      let p := { s.pow with pwrGood := true, coldRstN := true, rails := BitVec.allOnes 14 }
      if refOk then
        (({ s with pow := { p with boot := .released }, clk := ⟨0, 0, 0, false⟩ }).fset blkCLK F.CLK.CLK_STATUS.PLL_LOCK 1).throttleWindow
      else s.setPow p)

/-! ### Start-up (Table 17.3) -/

def State.setBoot (s : State) (b : Boot) : State := s.setPow { s.pow with boot := b }
/-- LEDGER_READ: the Ledger fields are built; the debug state and the spare-core maps take effect. -/
def execLedgerRead (s : State) : Host.Outcome State Fault Refusal :=
  .next (if s.pow.boot = .released then
    (((s.fset blkSILPAOT F.SILPAOT.LEDGER_SEQ.SEQ s.trust.ledger.length).fset blkSILPAOT F.SILPAOT.DEBUG.IN_EFFECT
      (s.fget blkSILPAOT F.SILPAOT.DEBUG.STATE)).setTrust { s.trust with coresOn := s.trust.cores }).setBoot .ledger
  else s)
/-- A bank runs. -/
def State.runBank (s : State) (b : FwBank) (second : Bool) : State :=
  let st := blkSILPAOT
  let s := (s.fset st F.SILPAOT.BOOT_STATUS.BANK (b2n second)).fset st F.SILPAOT.BOOT_STATUS.SVN_FW (b.svns.getD 0 0)
  let s := (s.fset st F.SILPAOT.BOOT_STATUS.SVN_QM (b.svns.getD 1 0)).fset st F.SILPAOT.BOOT_STATUS.SVN_TL (b.svns.getD 2 0)
  s.setTrust { s.trust with digs := b.digs }
/-- The boot chain (R412, R413): the preferred bank, then the other; if neither verifies the boot fails. -/
def State.bootChain (s : State) : State :=
  let t := s.trust
  let floor := s.fget blkSILPAOT F.SILPAOT.SVN_FLOOR.FLOOR
  let okA := t.bankA.ok && t.bankA.above floor
  let okB := t.bankB.ok && t.bankB.above floor
  let next (s : State) : State := s.setPow { s.pow with mgmtReset := false, boot :=
    if s.pow.boot = .ledger ∨ s.pow.boot = .failed then .firmware else s.pow.boot }
  if t.sel && okB || !okA && okB then next (s.runBank t.bankB true)
  else if okA then next (s.runBank t.bankA false)
  else
    let s := s.report 4 0xB0 blkSILPAOT 0 0 0 0 3
    let s := (List.range 4).foldl (fun s q => s.fset (blkQCTL q) F.QCTL.Q_STATUS.STATE 0) s
    s.setPow { s.pow with mgmtReset := false, boot := .failed }
/-- FIRMWARE_VERIFIED: at COLD and at MGMT reset. -/
def execFirmwareVerified (s : State) : Host.Outcome State Fault Refusal :=
  .next (if s.pow.boot = .ledger ∨ s.pow.mgmtReset then s.bootChain else s)
/-- STACKS_TRAINED: the channels that could not be trained and the lanes that failed their test (R310), the banks, by their storage (56, 57: spares), that failed their march,
with their failing words; the caches come up as R289 states. -/
def execStacksTrained (failed : List TrainFail) (banks : List (Fin 4 × Fin 58 × Nat)) (s : State) :
    Host.Outcome State Fault Refusal :=
  .next (if s.pow.boot ≠ .firmware then s
    else
      let s := (List.range 24).foldl (fun s k => s.fset (blkSTACK k) F.STACK.STACK_STATUS.STATE 1) s
      let s := failed.foldl (fun s e => match e with
        | .channel k c => s.chFail k.val c.val
        | .lane k c pc n => s.laneMark k.val c.val pc.val n.val) s
      let s := banks.foldl (fun s (e : Fin 4 × Fin 58 × Nat) =>
        let q := e.1.val
        let b := e.2.1.val
        if 56 ≤ b ∧ (List.range 56).all (fun i => physBank (s.cellarSt q).spares i != b) then s.setCellar q { s.cellarSt q with spareBad := setBits (s.cellarSt q).spareBad (b - 56) 1 1 }
        else s) s
      let s := banks.foldl (fun s (e : Fin 4 × Fin 58 × Nat) =>
        match (List.range 56).find? (fun i => physBank (s.cellarSt e.1.val).spares i == e.2.1.val) with
        | some b => s.bankFails e.1.val b e.2.2
        | none => s) s
      ((List.range 4).foldl (fun s q => s.cacheReset q) s).setBoot .training)
/-- QUARTERS_READY. -/
def execQuartersReady (s : State) : Host.Outcome State Fault Refusal :=
  .next (if s.pow.boot ≠ .training then s
    else ((List.range 4).foldl (fun s q =>
      if s.qState q = 5 then s else s.fset (blkQCTL q) F.QCTL.Q_STATUS.STATE 1) s).setBoot .quarters)
/-- The partition of R42: the profile's, or by the links that are up. -/
def State.partition (s : State) (parts : Option (BitVec 4 × BitVec 4)) : Nat × Nat :=
  match parts with
  | some (a, b) => (a.toNat, (b &&& ~~~a).toNat)
  | none =>
    match (s.port 0).link, (s.port 1).link with
    | true, true => (3, 12)
    | true, false => (15, 0)
    | false, true => (0, 15)
    | false, false => (0, 0)
/-- The modes of a profile, as a change that has been committed. -/
def State.profileModes (s : State) (v : Nat) : State :=
  let s := s.modeNextWrite v
  let s := ((s.mode1 F.MODE.MODE_CURRENT.ROUND (bits v 0 2)).mode1 F.MODE.MODE_CURRENT.DETERMINISTIC (bits v 2 1)).mode1
    F.MODE.MODE_CURRENT.SPARSE_DENSE_THRESH (bits v 4 7)
  s.mode1 F.MODE.MODE_EPOCH.EPOCH (s.fget blkMODE F.MODE.MODE_EPOCH.EPOCH + 1)
/-- PROFILE_APPLIED, at COLD and at WARM reset: firmware writes power class, partition, modes and role. -/
def execProfileApplied (cls : Bool) (parts : Option (BitVec 4 × BitVec 4)) (modes : Option (BitVec 11)) (role : Fin 5) (s : State) :
    Host.Outcome State Fault Refusal :=
  .next (if s.pow.boot ≠ .quarters ∧ s.pow.boot ≠ .warm then s
    else
      let own := s.partition parts
      let s := s.fset blkHCTL F.HCTL.PWR_CLASS.CLASS (b2n cls)
      let s := (s.fset (blkJI 0) F.JI.PARTITION.OWNED own.1).fset (blkJI 1) F.JI.PARTITION.OWNED own.2
      let s := match modes with
        | some m => s.profileModes m.toNat
        | none => s
      let r := (s.fset blkGTC F.GTC.ROLE.ROLE role.val).fresh
      let s := r.2.setTrust { r.2.trust with profile := r.1.toNat }
      s.setBoot (if s.pow.boot = .warm then .running else .profile))
/-- CONFIG_READY. -/
def execConfigReady (s : State) : Host.Outcome State Fault Refusal :=
  .next (if s.pow.boot = .profile then s.setBoot .running else s)

/-! ### WARM and MGMT reset (R392, R395) -/

/-- The Cellar banks outside the cache hold nothing that is defined. -/
def State.dropCellar (s : State) : State := { s with mem := s.mem.zero cellarBase 0x4001C0000000 }
/-- WARM: quarters, hubs, ports and GTC, every job without a record; not Silpaot. -/
def State.warmReset (s : State) : State :=
  let s := s.carryHours
  let gone := (List.range 4).filter (fun q => s.qState q == 5)
  let failed := (List.range 24).filter s.stackFailed
  let s := { s.clearWork with jobs := [] }
  let s := (List.range 4).foldl (fun s q => s.resetLogic q) s
  let s := (List.range 4).foldl (fun s q =>
    ((s.softReset (blkQCTL q) (blkQCTL q + 1)).softReset (blkCELLAR q) (blkCELLAR q + 1)).softReset (blkSTACK (6 * q)) (blkSTACK (6 * q) + 6)) s
  let s := [0, 1].foldl (fun (s : State) h =>
    let s := (((s.softReset (blkJI h) (blkJI h + 1)).softReset (blkPERC h) (blkPERC h + 1)).softReset (blkCOLL h) (blkCOLL h + 1)).softReset
      (blkTL (9 * h)) (blkTL (9 * h) + 9)
    s.restartFlash h) s
  let s := (s.softReset blkGTC (blkGTC + 1)).softReset blkMODE (blkMODE + 1)
  let s := gone.foldl (fun s q => s.fset (blkQCTL q) F.QCTL.Q_STATUS.STATE 5) s
  let s := failed.foldl (fun s k =>
    (List.range 16).foldl (fun s ch =>
      if s.fbit (blkSTACK k) F.STACK.CH_STATUS.FAILED (chIx ch) then s.fset (blkSTACK k) F.STACK.CH_STATUS.TRAINED 0 (chIx ch) else s)
      (s.fset (blkSTACK k) F.STACK.STACK_STATUS.STATE 4)) s
  let s := s.wbacks.foldl State.tearWb s
  let s := s.dropCellar
  let s := { s with
    clk := ⟨0, 0, 0, false⟩, fabric := { s.fabric with reqs := [], frames := [] }
    ports := s.ports.map (fun (e : Nat × Port) => (e.1, e.2.kept)), rings := [], oadds := [], cmem := ⟨[], [], []⟩, clines := [], plru := []
    wbacks := [], dets := [], misses := [], bankTrs := [], marches := [], pcs := [], stkSts := [], tports := [], routes := []
    routeN := [], percs := [], colls := [], gtc := GtcSt.init, modeAt := 0, modeAb := 0, thrAt := 0
    pow := { s.pow with boot := .warm, qreset := 0, creset := 0, standbyCache := 0, idleAt := [] } }
  let s := (List.range 4).foldl (fun s q =>
    ((List.range 56).filter (fun b => s.bankOwn q b F.CELLAR.BANK_STATUS.FAILED != 0)).foldl (fun s b =>
      s.bankOut q b) s) s
  let s := (List.range 4).foldl (fun s q => s.cacheReset q) s
  (s.fset blkHCTL F.HCTL.LOST.WARM 1).throttleWindow
/-- A WARM reset that a COLD or another WARM in progress does not absorb; with the reference lost only a COLD reset acts (R24). -/
def State.warm (s : State) : State := if s.pow.boot = .running ∧ !s.clk.mgmtOnly then s.warmReset else s
def execWarmRstN (s : State) : Host.Outcome State Fault Refusal := .next s.warm
/-- MGMT: the management core and the flash managers restart; requests in progress are abandoned, spill commands end with
FL_NOT_READY. -/
def State.mgmt (s : State) : State :=
  if s.pow.mgmtReset || !(s.pow.boot == .running || s.pow.boot == .warm || s.pow.boot == .failed) then s
  else
    let mine := s.cmds.filter (fun (c : Cmd) => (match c.unit with
      | .flash _ => true
      | _ => false) && (c.phase == .queued || c.phase == .active))
    let s := mine.foldl (fun s (c : Cmd) => s.failCmd c.id 0x94 0) s
    let s := (s.restartFlash 0).restartFlash 1
    let s := [0, 1].foldl (fun (s : State) p =>
      ((s.fclear blkSILPAOT F.SILPAOT.REQ_STATUS.BUSY (16 * p)).fclear blkSILPAOT F.SILPAOT.REQ_STATUS.DONE (16 * p)).fclear blkSILPAOT
        F.SILPAOT.REQ_STATUS.REJECT (16 * p) |>.fclear blkSILPAOT F.SILPAOT.REQ_STATUS.RESULT (16 * p)) s
    let s := s.setTrust { s.trust with reqs := [], spdm0 := { s.trust.spdm0 with stage := 0 }, spdm1 := { s.trust.spdm1 with stage := 0 } }
    (s.setPow { s.pow with mgmtReset := true, wdN := 0 }).fset blkHCTL F.HCTL.LOST.MGMT 1
def execSmbusMgmtReset (s : State) : Host.Outcome State Fault Refusal := .next s.mgmt
/-- MGMT_WD_EXPIRE: LIMIT units of 1,048,576 MGMT cycles, 4 of them in 5 ARITH cycles, since the last restart. -/
def execMgmtWdExpire (s : State) : Host.Outcome State Fault Refusal :=
  let l := s.fget blkHCTL F.HCTL.MGMT_WD.LIMIT
  .next (if l ≠ 0 ∧ l * 1048576 * 5 ≤ s.pow.wdN * 4 then s.mgmt else s)
/-- A write of RESET_CMD: COLD and WARM by firmware, MGMT by firmware or a port; any other is an error and does nothing. -/
def State.resetCmd (s : State) (rq : Requester) (v : Nat) : State :=
  let fw := isFw rq
  let port := match rq with
    | .port _ => true
    | _ => false
  if ((bit v 0 || bit v 1) && !fw) || (bit v 2 && !fw && !port) then s.regError blkHCTL F.HCTL.RESET_CMD.COLD.reg true 1
  else if bit v 0 then (if s.pow.boot = .running ∨ s.pow.boot = .warm then s.coldReset 4 0 else s)
  else
    let s := if bit v 1 then s.warm else s
    if bit v 2 then s.mgmt else s
def execCold (rq : Requester) (s : State) : Host.Outcome State Fault Refusal := .next (s.resetCmd rq 1)
def execWarm (rq : Requester) (s : State) : Host.Outcome State Fault Refusal := .next (s.resetCmd rq 2)
def execMgmt (rq : Requester) (s : State) : Host.Outcome State Fault Refusal := .next (s.resetCmd rq 4)
/-- KICK. -/
def State.kick (s : State) : State := s.setPow { s.pow with wdN := 0 }
def execKick (rq : Requester) (s : State) : Host.Outcome State Fault Refusal :=
  .next (s.regGuard rq blkHCTL F.HCTL.MGMT_WD.KICK.reg State.kick)

/-! ### QUARTER and CLUSTER reset (R391, R393, R394) -/

/-- The quarter is withdrawn, in standby, or entering or leaving it. -/
def State.away (s : State) (q : Nat) : Bool := decide (2 ≤ s.qState q)
def State.cmdReject (s : State) (q : Nat) : State := s.fset (blkQCTL q) F.QCTL.Q_STATUS.CMD_REJECT 1
/-- QRESET: its jobs are cancelled. -/
def State.qresetWrite (s : State) (q : Nat) : State :=
  if s.away q then s.cmdReject q
  else if s.pow.qreset.getLsbD q || s.pow.boot != .running then s
  else
    let s := s.endJobsIn q 0x22 none
    s.setPow { s.pow with qreset := s.pow.qreset ||| (1 <<< q) }
def execQreset (q : Fin 4) (rq : Requester) (s : State) : Host.Outcome State Fault Refusal :=
  .next (s.regGuard rq (blkQCTL q.val) F.QCTL.Q_CTL.QRESET.reg (fun s => s.qresetWrite q.val))
/-- A ring staged in quarter `q` ends (R260, R273). -/
def State.unstage (s : State) (q : Nat) : State :=
  [0, 1].foldl (fun (s : State) h =>
    if s.fbit (blkPERC h) F.PERC.RING_CTL.ENABLE && 2 * h + s.fget (blkPERC h) F.PERC.STAGE.QSEL == q then s.stageLost h else s) s
/-- QUARTER_RESET_PROCEED: after its jobs have completed. -/
def State.qresetGo (s : State) (q : Nat) : State :=
  let objs := s.objs.filter (fun (e : Nat × Obj) => e.1 / 65536 == q)
  let s := objs.foldl (fun s (e : Nat × Obj) => s.wakeAll e.1 (e.2.waiters ++ e.2.held) 3 0) s
  let s := ((s.unstage q).modeAcked q).cacheReset q
  let s := s.resetLogic q
  let s := { s with oadds := s.oadds.filter (fun (x : OAdd) => x.q != q), dets := stripKeys s.dets (· == q) }
  let keep : BitVec 4 := ~~~(1 <<< q)
  let clus : BitVec 64 := ~~~(BitVec.ofNat 64 (0xFFFF * 2 ^ (16 * q)))
  (s.setPow { s.pow with qreset := s.pow.qreset &&& keep, creset := s.pow.creset &&& clus }).fset (blkQCTL q) F.QCTL.Q_STATUS.Q_LOST 1
def execQuarterResetProceed (q : Fin 4) (s : State) : Host.Outcome State Fault Refusal :=
  .next (if s.alive && s.pow.qreset.getLsbD q.val && !s.jobs.any (fun (x : Job) => s.jobIn q.val x) then s.qresetGo q.val else s)
/-- CLUSTER_RESET: the jobs of the tasks that run in the named clusters are cancelled. -/
def State.cresetWrite (s : State) (q mask : Nat) : State :=
  if mask = 0 then s
  else if s.away q then s.cmdReject q
  else if s.pow.qreset.getLsbD q || s.pow.boot != .running then s
  else
    let mine (e : Nat × Thread) : Bool := e.1 / 65536 == q && bit mask (e.1 / 4096 % 16) && e.2.st != .free
    let js := ((s.threads.filter mine).map (fun (e : Nat × Thread) => e.2.job)).eraseDups
    let s := js.foldl (fun s j => s.endJob j 0x22 none) s
    s.setPow { s.pow with creset := s.pow.creset ||| BitVec.ofNat 64 (mask * 2 ^ (16 * q)) }
def execClusterReset (q : Fin 4) (mask : BitVec 16) (rq : Requester) (s : State) : Host.Outcome State Fault Refusal :=
  .next (s.regGuard rq (blkQCTL q.val) F.QCTL.CLUSTER_RESET.CLUSTERS.reg (fun s => s.cresetWrite q.val mask.toNat))
/-- The records in the slots of a cluster's cores return to the scheduler. -/
def State.returnSlots (s : State) (cl : Nat) : State :=
  let back := (s.cores.filter (fun (c : Nat × Core) => c.1 / 64 == cl)).flatMap (fun (c : Nat × Core) => c.2.run.toList ++ c.2.next.toList)
  back.foldl (fun s e => (s.dropSlots e).setEntry e { s.entry e with placed := false }) s
/-- No task and no chain of the cluster is left. -/
def State.clusterClear (s : State) (cl : Nat) : Bool :=
  !s.threads.any (fun (e : Nat × Thread) => e.1 / 4096 == cl && e.2.st != .free) &&
    !s.ctxs.any (fun (e : Nat × Ctx) => e.1 / 64 == cl && e.2.st != .free)
def State.clLost (s : State) (cl : Nat) : State :=
  let b := blkQCTL (cl / 16)
  s.fset b F.QCTL.CLUSTER_PWR.CL_LOST (s.fget b F.QCTL.CLUSTER_PWR.CL_LOST ||| 2 ^ (cl % 16))
def OAdd.homedIn (x : OAdd) (cl : Nat) : Bool :=
  match region x.addr with
  | .scratch core => coreCl core == cl
  | _ => false
/-- One cluster is reset. -/
def State.cresetOne (s : State) (cl : Nat) : State :=
  let s := ((s.returnSlots cl).resetCluster cl).clLost cl
  { s with oadds := s.oadds.filter (fun (x : OAdd) => !x.homedIn cl) }
/-- CLUSTER_RESET_PROCEED: after the tasks of all named clusters of the quarter have ended. -/
def State.cresetGo (s : State) (q : Nat) : State :=
  let l := ((List.range 16).map (16 * q + ·)).filter (fun cl => s.pow.creset.getLsbD cl)
  if l.isEmpty || !l.all s.clusterClear then s
  else
    let s := l.foldl (fun s cl => s.cresetOne cl) s
    let keep : BitVec 64 := ~~~(BitVec.ofNat 64 (0xFFFF * 2 ^ (16 * q)))
    s.setPow { s.pow with creset := s.pow.creset &&& keep }
def execClusterResetProceed (q : Fin 4) (s : State) : Host.Outcome State Fault Refusal :=
  .next (if s.alive && s.qUp q.val then s.cresetGo q.val else s)

/-! ### Throttling (R396-R398) -/

/-- THROTTLE_UPDATE: `est` is the estimate of board power. -/
def State.throttle (s : State) (est : Nat) : State :=
  let b := blkHCTL
  let p := s.pow
  let lim := if s.fbit b F.HCTL.PWR_CLASS.CLASS then 2800 else 2200
  let target := lim * (100 - s.fget b F.HCTL.THROTTLE_CTL.MARGIN)
  let tj := s.fget b F.HCTL.THROTTLE_CTL.T_JUNC
  let ts := s.fget b F.HCTL.THROTTLE_CTL.T_STACK
  let hotNow := decide (tj ≤ p.juncWin ∨ ts ≤ p.stackWin)
  let raise := decide (target < est * 100) || hotNow
  let lower := decide (est * 10000 < 97 * target ∧ p.juncWin + 3 ≤ tj ∧ p.stackWin + 3 ≤ ts)
  let l := if raise then min (p.level + 1) 12 else if lower then p.level - 1 else p.level
  let l := max l (s.fget b F.HCTL.THROTTLE_CTL.FLOOR)
  let s := ((s.fset b F.HCTL.PWR_EST.WATTS (min est 65535)).fset b F.HCTL.TEMP.JUNC_MAX (min p.juncWin 255)).fset b F.HCTL.TEMP.STACK_MAX
    (min p.stackWin 255)
  let last (f : Nat → Nat) (n : Nat) : Nat := ((List.range n).map f).foldl max 0
  { s with thrAt := s.now + 1
           pow := { p with level := if p.alertN then l else 12, thermWarn := hotNow, juncWin := last s.dieTemp 6
                           stackWin := last (fun k => s.fget (blkSTACK k) F.STACK.STACK_STATUS.TEMP) 24 } }
def execThrottleUpdate (est : Nat) (s : State) : Host.Outcome State Fault Refusal :=
  .next (if s.now % 14000 = 0 ∧ s.thrAt ≠ s.now + 1 ∧ s.pow.boot ≠ .held ∧ !s.clk.mgmtOnly then s.throttle est else s)
def execPwrAlertNLow (s : State) : Host.Outcome State Fault Refusal :=
  .next (if s.pow.alertN then
    (s.setPow { s.pow with alertN := false, level := 12 }).bump blkHCTL F.HCTL.ALERT_COUNT.COUNT
  else s)
def execPwrAlertNHigh (s : State) : Host.Outcome State Fault Refusal := .next (s.setPow { s.pow with alertN := true })

/-! ### Clusters off and on (R400) -/

/-- The conditions of R400 for powering off. -/
def State.clusterIdle (s : State) (cl : Nat) : Bool :=
  s.clusterClear cl && !s.cores.any (fun (c : Nat × Core) => c.1 / 64 == cl && (c.2.run.isSome || c.2.next.isSome)) &&
    !s.oadds.any (fun (x : OAdd) => x.homedIn cl)
def execClusterPowerOff (cl : Fin 64) (s : State) : Host.Outcome State Fault Refusal :=
  let c := cl.val
  let q := c / 16
  let b := blkQCTL q
  let n := s.fget b F.QCTL.IDLE_LIMIT.LIMIT
  let at_ := Sparse.get 0 s.pow.idleAt c
  .next (if s.alive && s.qUp q && s.fbit b F.QCTL.Q_CTL.CL_OFF_EN && n != 0 && !s.clusterOff c && s.clusterIdle c && at_ != 0 &&
      decide (at_ + n * 65536 ≤ s.clk.arith + 1) && !s.pow.creset.getLsbD c then
    (s.fset b F.QCTL.CLUSTER_PWR.OFF (s.fget b F.QCTL.CLUSTER_PWR.OFF ||| 2 ^ (c % 16))).bump b F.QCTL.CL_OFF_COUNT.COUNT
  else s)
/-- A ready task waits that only cluster `cl` may run, or that no powered cluster of the quarter has a slot for. -/
def State.wantsCluster (s : State) (cl : Nat) : Bool :=
  let q := cl / 16
  let wait := s.tasks.filter (fun (e : Nat × Entry) => e.1 / 16384 == q && s.placeable e.2 &&
    (e.2.trec.place == 0 || e.2.trec.pcore / 64 == cl))
  let slot (core : Nat) : Bool :=
    ((s.core core).run.isNone || (s.core core).next.isNone) && !s.clusterOff (coreCl core)
  wait.any (fun (e : Nat × Entry) => e.2.trec.place != 0) ||
    (!wait.isEmpty && !(List.range 1024).any (fun i => slot (1024 * q + i)))
/-- A fabric access waits for the cluster's scratch; of the engines' accesses the model knows only that they may. -/
def State.reachesCluster (s : State) (cl : Nat) : Bool :=
  s.fabric.reqs.any (fun (r : Req) => r.answer.isNone && match region r.addr with
    | .scratch core => coreCl core == cl
    | _ => false) || !s.ctxs.isEmpty || !s.cmds.isEmpty || s.jobs.any (fun (x : Job) => x.kind == 1 || x.kind == 2)
def execClusterPowerOn (cl : Fin 64) (s : State) : Host.Outcome State Fault Refusal :=
  let c := cl.val
  let b := blkQCTL (c / 16)
  .next (if s.alive && s.qUp (c / 16) && s.clusterOff c && (s.wantsCluster c || s.reachesCluster c) then
    let s := (s.resetCluster c).clLost c
    s.fset b F.QCTL.CLUSTER_PWR.OFF (s.fget b F.QCTL.CLUSTER_PWR.OFF - 2 ^ (c % 16))
  else s)

/-! ### Standby (R401-R403) -/

/-- Firmware or either port. -/
def isHostOrFw : Requester → Bool
  | .firmware => true
  | .port _ => true
  | _ => false
/-- The quarter holds no task, entry, Grinder command or wait. -/
def State.quarterEmpty (s : State) (q : Nat) : Bool :=
  !s.jobs.any (fun (x : Job) => s.jobIn q x) && !s.threads.any (fun (e : Nat × Thread) => e.1 / 65536 == q && e.2.st != .free)
/-- A write of Q_CTL.STANDBY = 1. -/
def State.standbyIn (s : State) (q : Nat) : State :=
  if s.owned q || !s.qUp q || !s.quarterEmpty q || s.pow.qreset.getLsbD q then s.cmdReject q
  else
    let on : BitVec 4 := if s.cacheOn q then 1 <<< q else 0
    let keep : BitVec 4 := ~~~(1 <<< q)
    let s := s.setPow { s.pow with standbyCache := (s.pow.standbyCache &&& keep) ||| on }
    ((s.fset (blkQCTL q) F.QCTL.Q_CTL.STANDBY 1).fset (blkQCTL q) F.QCTL.Q_STATUS.STATE 2).cacheDisable q
/-- A write of Q_CTL.STANDBY. -/
def State.standbyWrite (s : State) (q : Nat) (on : Bool) : State := if on then s.standbyIn q else s.endStandby q
def State.standbyGuard (s : State) (rq : Requester) (q : Nat) (on : Bool) : State :=
  if isHostOrFw rq then s.standbyWrite q on else s.regError (blkQCTL q) F.QCTL.Q_CTL.STANDBY.reg true 1
def execStandbyEnter (q : Fin 4) (rq : Requester) (s : State) : Host.Outcome State Fault Refusal := .next (s.standbyGuard rq q.val true)
def execStandbyExit (q : Fin 4) (rq : Requester) (s : State) : Host.Outcome State Fault Refusal := .next (s.standbyGuard rq q.val false)
/-- Every stack of a quarter in state `st`, but failed ones. -/
def State.stacksTo (s : State) (q st : Nat) : State :=
  (List.range 6).foldl (fun s i =>
    let b := blkSTACK (6 * q + i)
    if s.fget b F.STACK.STACK_STATUS.STATE = 4 then s else s.fset b F.STACK.STACK_STATUS.STATE st) s
/-- STANDBY_ENTRY_DONE: the cache is off, banks that are on are in RETAIN, the stacks in self-refresh. -/
def execStandbyEntryDone (q : Fin 4) (s : State) : Host.Outcome State Fault Refusal :=
  let q := q.val
  .next (if s.alive && s.qState q == 2 && !s.cacheOn q then
    let s := (List.range 56).foldl (fun s b =>
      if s.bankOwn q b F.CELLAR.BANK_STATUS.POWER_STATE = 0 then s.bankSet q b F.CELLAR.BANK_STATUS.POWER_STATE 1 else s) s
    ((s.stacksTo q 2).unstage q).fset (blkQCTL q) F.QCTL.Q_STATUS.STATE 3
  else s)
/-- STANDBY_EXIT_DONE. -/
def State.standbyOut (s : State) (q : Nat) : State :=
  let b := blkQCTL q
  let s := s.cacheOff q
  let s := s.stacksTo q 1
  let s := (List.range 56).foldl (fun s i =>
    s.bankSet q i F.CELLAR.BANK_STATUS.POWER_STATE (s.bankOwn q i F.CELLAR.BANK_OWN.POWER)) s
  let s := s.resetLogic q
  let s := (s.fset b F.QCTL.Q_STATUS.STATE 1).fset b F.QCTL.Q_STATUS.Q_LOST 1
  let s := if s.pow.standbyCache.getLsbD q then s.cacheEnable q else s
  [0, 1].foldl (fun (s : State) p =>
    let x := s.port p
    let keep : BitVec 4 := ~~~(1 <<< q)
    if x.wakeMask.getLsbD q then
      let s := s.setPort p { x with wakeMask := x.wakeMask &&& keep }
      if (s.port p).wakeMask = 0 ∧ x.relMask = 0 then s.partResult p 2 else s
    else s) s
def execStandbyExitDone (q : Fin 4) (s : State) : Host.Outcome State Fault Refusal :=
  .next (if s.alive && s.qState q.val == 4 then s.standbyOut q.val else s)

/-! ### D3hot (R404) -/

def execD3hotEntry (p : Fin 2) (s : State) : Host.Outcome State Fault Refusal :=
  .next (s.setPort p.val { s.port p.val with d3hot := true })
/-- D0_RETURN: completion records that waited are written as far as the rings have room. -/
def execD0Return (p : Fin 2) (s : State) : Host.Outcome State Fault Refusal :=
  let s := s.setPort p.val { s.port p.val with d3hot := false }
  .next ((List.range 64).foldl (fun s r => s.flushRecs p.val r (s.ring p.val r).held.length) s)

end Sys2Proof.Machine
end

