-- ==== Sys2Proof/Machine/RegRead.lean ====
section
/-! DEFINITION. Reading a register (R5-R9): the fields that show other parts of the state, and the 64-bit value of a register. -/

namespace Sys2Proof.Machine

def RingState.code : RingState → Nat
  | .disabled => 0
  | .running => 1
  | .error => 2
  | .draining => 3
def CtxSt.code : CtxSt → Nat
  | .free => 0
  | .owned => 1
  | .active => 2
  | .cancelling => 3
def TState.isParked : TState → Bool
  | .parked _ => true
  | _ => false
/-- The bits `i` of `n` for which `p` holds, as a number. -/
def maskOf (n : Nat) (p : Nat → Bool) : Nat := (List.range n).foldl (fun m i => if p i then m + 2 ^ i else m) 0

/-! ### Fields that show other state -/

/-- CORE_STATE of core `core` (R76). -/
def State.coreView (s : State) (core : Nat) (f : Fld) : Nat :=
  let ths := s.threads.filter (fun (e : Nat × Thread) => e.1 / 64 == core && e.2.st != .free)
  let c := s.core core
  if f = F.CLUS.CORE_STATE.IN_USE then ths.length
  else if f = F.CLUS.CORE_STATE.PARKED then (ths.filter (fun (e : Nat × Thread) => e.2.st.isParked)).length
  else if f = F.CLUS.CORE_STATE.RUN_VALID then b2n c.run.isSome
  else if f = F.CLUS.CORE_STATE.NEXT_VALID then b2n c.next.isSome
  else if f = F.CLUS.CORE_STATE.GATED then b2n c.gated
  else maskOf 4 (fun a => (s.arr (arrKey core a)).bound.isSome)
/-- The context waits for credit, the multicast store or a forwarder. -/
def State.ctxStalls (s : State) (k : Nat) : Bool :=
  let c := s.ctx k
  c.creditWait || (c.st == .active && !c.desc.isEmpty && dKind c.desc == 4 && c.mcHeld == 0) ||
    s.hops.any (fun (x : Hop) => x.ctx == k && (x.st == .credit || x.st == .ready))
/-- CTX_STATE and CTX_DESC of context `k` (R154). -/
def State.ctxView (s : State) (k : Nat) (f : Fld) (stored : Nat) : Nat :=
  let c := s.ctx k
  if f = F.STRM.CTX_STATE.STATE then c.st.code
  else if f = F.STRM.CTX_STATE.NEXT_VALID then b2n c.next.isSome
  else if f = F.STRM.CTX_STATE.CREDIT_WAIT then b2n (s.ctxStalls k)
  else if f = F.STRM.CTX_STATE.OWNER_CORE then (if c.st = .free then 0 else c.owner / 64)
  else if f = F.STRM.CTX_STATE.OWNER_THREAD then (if c.st = .free then 0 else c.owner % 64)
  else if f = F.STRM.CTX_STATE.OWNER_ENDED then b2n c.ownerEnded
  else if f = F.STRM.CTX_STATE.SEGS then c.doneSegs
  else if f = F.STRM.CTX_DESC.ADDR then c.cur.getD 0
  else stored
/-- Entries of quarter `q` in use. -/
def State.entriesOf (s : State) (q : Nat) : List Entry :=
  (s.tasks.filter (fun (e : Nat × Entry) => e.1 / 16384 == q && e.2.used)).map (·.2)
/-- Ready tasks not yet placed, by class and level or group (R170). -/
def State.depth (s : State) (q cls lv : Nat) : Nat :=
  ((s.entriesOf q).filter (fun e => !e.placed && e.readyBy s.clk.arith && e.trec.cls == cls && e.trec.level == lv)).length
def State.schedView (s : State) (q : Nat) (f : Fld) (ix stored : Nat) : Nat :=
  if f = F.TSCHED.SCHED_STATUS.MODE_HOLD then b2n s.inTransition
  else if f = F.TSCHED.SCHED_STATUS.FREE_ENTRIES then 16384 - (s.entriesOf q).length
  else if f = F.TSCHED.SCHED_STATUS.WAITING then ((s.entriesOf q).filter (fun e => e.ready.isNone)).length
  else if f = F.TSCHED.LAT_DEPTH.DEPTH then s.depth q 0 (ix / 8)
  else if f = F.TSCHED.BULK_DEPTH.DEPTH then s.depth q 1 (ix / 8)
  else stored
def State.grindView (s : State) (g : Nat) (f : Fld) (stored : Nat) : Nat :=
  if f = F.GRIND.GR_STATUS.QUEUED then (s.queuedOf (.grind g)).length
  else if f = F.GRIND.GR_STATUS.PARKED then ((s.bagsOf g).filter (·.parked)).length
  else if f = F.GRIND.GR_STATUS.DEFERRED then (s.defers.filter (fun (d : Defer) => d.g == g)).length
  else if f = F.GRIND.GR_STATUS.MIGRATING then (s.moves.filter (fun (m : Move) => m.g == g && m.swapped.isNone)).length
  else if f = F.GRIND.TAB_PENDING.PENDING then s.tabPending g
  else stored
def State.percView (s : State) (h : Nat) (f : Fld) (stored : Nat) : Nat :=
  let act := s.cmds.find? (fun (c : Cmd) => c.unit == .perc h && c.phase != .queued)
  if f = F.PERC.PC_STATUS.QUEUED then (s.queuedOf (.perc h)).length
  else if f = F.PERC.PC_STATUS.ACTIVE then b2n act.isSome
  else if f = F.PERC.PC_STATUS.BLOCKS then (act.map (fun (c : Cmd) => c.cnt % 2048)).getD 0
  else if f = F.PERC.CACHE_HORIZON.GTC then s.cacheHorizon h
  else stored
def State.collView (s : State) (h : Nat) (f : Fld) (stored : Nat) : Nat :=
  if f = F.COLL.CO_STATUS.QUEUED then (s.queuedOf (.coll h)).length
  else if f = F.COLL.CO_STATUS.ACTIVE then (s.coll h).ops.length
  else if f = F.COLL.EARLY_MSGS.COUNT then s.earlyMsgs h
  else stored
/-- The erase counts of the superblocks of present targets that count: all of them, or the good ones. -/
def State.eraseCounts (s : State) (h : Nat) (good : Bool) : List Nat :=
  let x := s.flash h
  ((List.range 32).filter (fun t => s.present h t)).flatMap (fun t =>
    ((List.range x.blocks).filter (fun b => !good || (x.blk t b).st != .bad)).map (fun b => (x.blk t b).erases))
def State.wearView (s : State) (h : Nat) (f : Fld) (stored : Nat) : Nat :=
  if f = F.FM.WEAR_STATUS.PE_MAX then (s.eraseCounts h false).foldl max 0
  else if f = F.FM.WEAR_STATUS.PE_MIN then
    (match s.eraseCounts h true with
      | [] => 0
      | e :: l => l.foldl min e)
  else if f = F.FM.WEAR_STATUS.BAD_BLOCKS then (s.flash h).bad
  else stored
def State.trustView (s : State) (f : Fld) (ix stored : Nat) : Nat :=
  if f = F.SILPAOT.LOG.WORD then slotWord (Sparse.get none s.err.log (ix / 64)) (ix % 64 / 8)
  else if f = F.SILPAOT.JOURNAL.WORD then slotWord (Sparse.get none s.err.journal (ix / 64)) (ix % 64 / 8)
  else if f = F.SILPAOT.LEDGER_LEFT.FLOOR then s.ledgerLeft 1 0
  else if f = F.SILPAOT.LEDGER_LEFT.OWNER then s.ledgerLeft 2 0
  else if f = F.SILPAOT.LEDGER_LEFT.DEBUG then s.ledgerLeft 3 0
  else stored
def State.gtcView (s : State) (f : Fld) (stored : Nat) : Nat :=
  let r := s.route (s.fget blkGTC F.GTC.ROUTE_IDX.INDEX)
  if f = F.GTC.GTC.COUNT then s.now
  else if f = F.GTC.LAUNCH_HELD.COUNT then min s.launchHeldCount 0xFFFF
  else if f = F.GTC.ROUTE_DATA.PORTS then r.ports
  else if f = F.GTC.ROUTE_DATA.HOPS then r.hops
  else if f = F.GTC.ROUTE_DATA.VALID then b2n r.valid
  else stored
def State.ringView (s : State) (p : Nat) (f : Fld) (ix stored : Nat) : Nat :=
  let x := s.ring p (ix / 64)
  if f = F.JI.RING_STATE.STATE then x.state.code
  else if f = F.JI.RING_STATE.CAUSE then x.cause
  else if f = F.JI.RING_STATE.HEAD then x.head
  else stored
/-- What a read of one field returns (Table 0.3); `n` is the block, `ix` the byte offset of an array's element. -/
def State.fieldView (s : State) (k : BlockKind) (n : Nat) (f : Fld) (ix : Nat) : Nat :=
  let v := s.fget n f ix
  let q := n / 0x100
  let h := (n - 0x400) / 0x100
  if f.acc = .wo then 0
  else match k with
    | .clus => if f.reg = F.CLUS.CORE_STATE.IN_USE.reg then s.coreView (1024 * q + 64 * (n % 16) + ix / 8) f else v
    | .strm => if F.STRM.CTX_STATE.STATE.reg ≤ f.reg then s.ctxView (ctxKey (16 * q + n % 16) (ix / 8)) f v else v
    | .tsched => s.schedView q f ix v
    | .sync => if f = F.SYNC.PARKED_WAITS.COUNT then (s.waitRecs q).length else v
    | .grind => s.grindView (4 * q + n % 0x100 - 8) f v
    | .perc => s.percView h f v
    | .coll => s.collView h f v
    | .cellar => if f = F.CELLAR.CACHE_STATUS.CACHE_BANKS then s.cacheBankCount q else v
    | .fm => s.wearView h f v
    | .silpaot => s.trustView f ix v
    | .gtc => s.gtcView f v
    | .ji => s.ringView h f ix v
    | .hctl => if f = F.HCTL.PWR_STATUS.RAILS_GOOD then s.pow.rails.toNat else v
    | _ => v

/-! ### Registers -/

/-- Both views of HCTL name one block (R408). -/
def blockOf (n : Nat) : Nat := if n = 0x500 then 0x400 else n
def isObj (k : BlockKind) (off : Nat) : Bool := k == .sync && decide (F.SYNC.OBJ.TYPE.reg ≤ off)
/-- The value of the register at offset `off` of block `n`; reserved fields read as zero, and so does an offset that the map
does not list (R7). -/
def State.regWord (s : State) (k : BlockKind) (n off : Nat) : Nat :=
  if isObj k off then (s.obj (n / 0x100 * 65536 + (off - F.SYNC.OBJ.TYPE.reg) / 8)).word0
  else (fieldsAt k off).foldl (fun v f => v + s.fieldView k n f (off - f.reg) % 2 ^ f.w * 2 ^ f.lo) 0
/-- An access that R5 accepts: aligned, of 8 bytes, or of 4. -/
def sizeOk (off size : Nat) : Bool := (size == 8 || size == 4) && off % size == 0
def allOnes (size : Nat) : Nat := 2 ^ (8 * size) - 1
/-- A read of a register block: of a block whose registers the spec does not give (MESH, the PCIe ports), a free value. -/
def State.regRead (s : State) (n off size : Nat) : Nat × State :=
  match blockKind n with
  | none => (allOnes size, s.regError blkFAB off false 1)
  | some k =>
    if !sizeOk off size then (allOnes size, s.regError n off false 0)
    else if s.blockGone n then (allOnes size, s.regError n off false 1)
    else if k == .mesh || k == .pcie then
      let r := s.fresh
      (r.1.toNat % 2 ^ (8 * size), r.2)
    else (s.regWord k (blockOf n) (off / 8 * 8) / 2 ^ (8 * (off % 8)) % 2 ^ (8 * size), s)

end Sys2Proof.Machine
end

