-- ==== Sys2Proof/Machine/RegWrite.lean ====
section
/-! DEFINITION. Writing a register (R5-R8): who may write, reserved encodings, the access codes, and the registers whose write
is an action of its own. -/

namespace Sys2Proof.Machine

/-! ### The access codes (R6, R7) -/

/-- A value that is no reserved encoding. -/
def Limit.ok (l : Limit) (v : Nat) : Bool :=
  match l with
  | .any => true
  | .range lo hi => decide (lo ≤ v) && decide (v ≤ hi)
  | .dim => decide (16 ≤ v) && decide (v ≤ 2048) && v % 16 == 0
  | .route => routeMaskOk v
  | .dump => true
/-- The access writes bits of the field; `half` names the 4-byte half written, high when true. -/
def Fld.touched (f : Fld) (half : Option Bool) : Bool :=
  match half with
  | none => true
  | some false => decide (f.lo < 32)
  | some true => decide (32 < f.lo + f.w)
/-- The written bits at their places in the register. -/
def placed (half : Option Bool) (v : Nat) : Nat :=
  match half with
  | none => v
  | some false => v % 2 ^ 32
  | some true => v % 2 ^ 32 * 2 ^ 32
/-- A field takes a write: `w` is the register as the write would leave it, `m` the bits written 1. -/
def State.putFld (s : State) (n ix : Nat) (w m : Nat) (f : Fld) : State :=
  match f.acc with
  | .rw => if f.lim.ok (bits w f.lo f.w) then s.fset n f (bits w f.lo f.w) ix else s
  | .w1c => s.fset n f (s.fget n f ix - (s.fget n f ix &&& bits m f.lo f.w)) ix
  | .w1s => s.fset n f (s.fget n f ix ||| bits m f.lo f.w) ix
  | _ => s

/-! ### Registers with actions -/

/-- One write of a register, with what its rules speak of. -/
structure RegAcc where
  rq   : Requester
  /-- the number used, and the block it names -/
  via  : Nat
  n    : Nat
  off  : Nat
  size : Nat
  half : Option Bool
  v    : Nat
  /-- the register as the write would leave it, the bits written 1, the fields written -/
  w    : Nat
  m    : Nat
  fs   : List Fld
  deriving DecidableEq, Repr

def RegAcc.has (a : RegAcc) (f : Fld) : Bool := a.fs.contains f
/-- Every field but those of `skip` by its access code. -/
def State.regPlain (s : State) (a : RegAcc) (skip : List Fld) : State :=
  (a.fs.filter (fun f => !skip.contains f)).foldl (fun s f => s.putFld a.n (a.off - f.reg) a.w a.m f) s

def State.jiWrite (s : State) (p : Nat) (a : RegAcc) : State :=
  let r := (a.off - 0x1000) / 64
  if a.has F.JI.RING_CTL.ENABLE then s.ctlWrite p r a.w
  else if a.has F.JI.RING_SQ_BASE.BASE then s.baseWrite p r false a.w
  else if a.has F.JI.RING_CQ_BASE.BASE then s.baseWrite p r true a.w
  else if a.has F.JI.PART_REQ.RELEASE then s.partReq p (bits a.m 0 4) (bits a.m 4 4) (bit a.m 8)
  else if a.has F.JI.HEARTBEAT.BEAT then (if bit a.m 0 then s.beat p else s)
  else if a.has F.JI.CANCEL.RING then s.cancelWrite p a.size a.v
  else s.regPlain a []
def State.clusWrite (s : State) (cl : Fin 64) (a : RegAcc) : State :=
  let s := s.regPlain a []
  -- with GATE_ENABLE at 0 no core is gated (R53)
  let s := if a.has F.CLUS.CLUS_CTL.GATE_ENABLE && !bit a.w 0 then
      (List.range 64).foldl (fun s i =>
        let k := cl.val * 64 + i
        if (s.core k).gated then s.touch k else s) s
    else s
  if a.has F.CLUS.CLUS_CTL.ICACHE_INV && bit a.m 1 then s.icacheInvDo cl else s
def State.digestWrite (s : State) (q : Fin 4) (a : RegAcc) : State :=
  if a.has F.DIGEST.DIG_CTL.CLEAR then
    (if bit a.m 9 then s.clearAllDo q else if bit a.m 8 then s.clearSlot q.val (bits a.m 0 6) else s)
  else s.regPlain a []
def State.syncWrite (s : State) (q : Nat) (a : RegAcc) : State :=
  if F.SYNC.OBJ.TYPE.reg ≤ a.off then s.objWrite a.rq (65536 * q + (a.off - F.SYNC.OBJ.TYPE.reg) / 8) a.half a.v
  else if a.has F.SYNC.WD_CTL.RESUME then (if bit a.m 0 then s.wdResume q else s)
  else if a.has F.SYNC.DUMP_BASE.BASE then s.dumpBaseWrite q a.w
  else s.regPlain a []
def State.modeWrite (s : State) (a : RegAcc) : State :=
  if a.has F.MODE.MODE_NEXT.ROUND then s.modeNextWrite a.w
  else if a.has F.MODE.MODE_CMD.COMMIT then s.modeCmd (bit a.m 0) (bit a.m 1)
  else s.regPlain a []
def State.grindWrite (s : State) (g : Fin 16) (a : RegAcc) : State :=
  if a.has F.GRIND.TAB_APPLY.APPLY then
    (if bit a.m 9 then s.applyAllDo g else if bit a.m 8 then s.applyDo g (Fin.ofNat 32 (bits a.m 0 5)) else s)
  else if a.has F.GRIND.SK_CTL.ENABLE || a.has F.GRIND.SK_CTL.SHARD then
    s.skCtlWriteDo g (Fin.ofNat 16 ((a.off - F.GRIND.SK_CTL.ENABLE.reg) / 8)) a.half (BitVec.ofNat 64 a.v)
  else s.regPlain a []
/-- RING_CTL, RING_PORTS and STAGE are not written while the ring is enabled, but to clear ENABLE (R258). -/
def State.percWrite (s : State) (h : Fin 2) (a : RegAcc) : State :=
  let on := s.fbit a.n F.PERC.RING_CTL.ENABLE
  if a.off = F.PERC.RING_CTL.ENABLE.reg then
    (if bit a.w 0 then s.percRingEnableDo h (BitVec.ofNat 64 a.w)
     else if on then s.percRingDisableDo h (BitVec.ofNat 64 a.w) else s.regPlain a [])
  else if a.off = F.PERC.RING_PORTS.SEND.reg ∨ a.off = F.PERC.STAGE.BANK.reg then
    (if on then s.fset a.n F.PERC.RING_STATUS.CFG_REJECT 1 else s.regPlain a [])
  else if a.has F.PERC.KV_CTL.SERVE then s.kvCtlWriteDo h a.rq (BitVec.ofNat 64 a.w)
  else s.regPlain a []
def State.cellarWrite (s : State) (q : Nat) (a : RegAcc) : State :=
  if a.has F.CELLAR.CACHE_CTL.ENABLE then
    let s := s.regPlain a [F.CELLAR.CACHE_CTL.ENABLE]
    if bit a.w 0 then s.cacheEnable q else s.cacheDisable q
  else if a.has F.CELLAR.RANGE_CMD.GO then
    (if bit a.m 8 then s.rangeCmd q (bits a.w 0 2) (bit a.w 2)
     else s.regPlain a (if bits a.w 0 2 = 0 then [F.CELLAR.RANGE_CMD.OP] else []))
  else if a.has F.CELLAR.MARCH_CTL.GO then
    (if bit a.m 8 then s.marchGo q (bits a.w 0 6) (bit a.w 6) else s.regPlain a [])
  else if a.has F.CELLAR.BANK_OWN.MODE then s.bankWrite a.rq q ((a.off - F.CELLAR.BANK_OWN.MODE.reg) / 8) (a.w % 2 ^ 12 + bits a.m 12 1 * 2 ^ 12)
  else if a.has F.CELLAR.SPARE_MAP.SPARE0_USED then s.ledgerChange a.rq a.n a.off a.w
  else s.regPlain a []
def State.stackWrite (s : State) (k : Nat) (a : RegAcc) : State :=
  let ch := (a.off - 0x1000) / 64
  if a.has F.STACK.STACK_CTL.TEST_MODE then
    let on := s.fbit a.n F.STACK.STACK_CTL.TEST_MODE
    let s := s.regPlain a [F.STACK.STACK_CTL.TEST_MODE]
    if bit a.w 24 = on then s else s.testModeWrite k (bit a.w 24)
  else if a.has F.STACK.TRAIN_CTL.RETRAIN then
    (if bit a.m 4 then s.trainCmd k (bits a.w 0 4) else s.regPlain a [])
  else if a.has F.STACK.TG_CTL.GO then
    let s := s.regPlain a []
    if bit a.m 8 then s.tgGo k ch else s
  else if a.fs.any (fun f => f.acc == .lw) then s.ledgerChange a.rq a.n a.off a.w
  else s.regPlain a []
def State.tlWrite (s : State) (t : Fin 18) (a : RegAcc) : State :=
  if a.has F.TL.PORT_CTL.ENABLE then
    let s := s.regPlain a [F.TL.PORT_CTL.ENABLE]
    if bit a.w 0 then s.talienEnableDo t else s.talienDisableDo t
  else s.regPlain a []
def State.gtcWrite (s : State) (a : RegAcc) : State :=
  let w := BitVec.ofNat 64 a.w
  if a.has F.GTC.GTC_CTL.MODE then s.gtcCtlWriteDo w
  else if a.has F.GTC.ROLE.ROLE then s.roleWriteDo a.rq w
  else if a.has F.GTC.ANNOUNCE.GO then (if bit a.m 8 then s.announceDo a.rq (Fin.ofNat 8 (bits a.m 0 3)) else s)
  else if a.has F.GTC.ROUTE_DATA.PORTS then s.routeDataWriteDo a.rq w
  else s.regPlain a []
def State.collWrite (s : State) (h : Fin 2) (a : RegAcc) : State :=
  if a.has F.COLL.LAYOUT_CMD.RESHARD then s.reshardDo h (BitVec.ofNat 64 a.m) else s.regPlain a []
def State.fmWrite (s : State) (h : Nat) (a : RegAcc) : State :=
  if a.has F.FM.FM_CTL.FORMAT then (if bit a.m 0 then s.format h [] else s) else s.regPlain a []
def State.silpaotWrite (s : State) (a : RegAcc) : State :=
  if a.has F.SILPAOT.REQ_ADDR.ADDR then s.reqAddrWrite ((a.off - F.SILPAOT.REQ_ADDR.ADDR.reg) / 16) a.m
  else if a.fs.any (fun f => f.acc == .lw) then s.ledgerChange a.rq a.n a.off a.w
  else s.regPlain a []
/-- Q_CTL: STANDBY is written by firmware or either port (R401), the rest by firmware or the quarter's owner. -/
def State.qctlWrite (s : State) (q : Nat) (a : RegAcc) : State :=
  let own := s.fwOrOwner a.rq q
  if a.has F.QCTL.Q_CTL.STANDBY then
    let rest := bit a.m 0 || bit a.w 2 != s.fbit a.n F.QCTL.Q_CTL.CL_OFF_EN
    if !isHostOrFw a.rq || (rest && !own) then s.regError a.via a.off true 1
    else
      let sb := s.fbit a.n F.QCTL.Q_CTL.STANDBY
      let s := s.regPlain a [F.QCTL.Q_CTL.STANDBY]
      let s := if bit a.w 1 = sb then s else s.standbyWrite q (bit a.w 1)
      if bit a.m 0 then s.qresetWrite q else s
  else if !own then s.regError a.via a.off true 1
  else if a.has F.QCTL.CLUSTER_RESET.CLUSTERS then s.cresetWrite q (bits a.m 0 16)
  else s.regPlain a []
def State.hctlWrite (s : State) (a : RegAcc) : State :=
  if a.has F.HCTL.RESET_CMD.COLD then s.resetCmd a.rq a.m
  else
    let s := s.regPlain a []
    if a.has F.HCTL.MGMT_WD.KICK && bit a.m 16 then s.kick else s

/-! ### The write -/

/-- A register that acts only on an aligned 8-byte write (R45, R208). -/
def wholeOnly (k : BlockKind) (off : Nat) : Bool :=
  (k == .ji && off == F.JI.CANCEL.RING.reg) || (k == .grind && off == F.GRIND.SUBMIT.CMD.reg) ||
  (k == .perc && off == F.PERC.SUBMIT.CMD.reg) || (k == .coll && off == F.COLL.SUBMIT.CMD.reg) ||
  (k == .fm && off == F.FM.SUBMIT.CMD.reg)
def isSubmit (k : BlockKind) (off : Nat) : Bool := wholeOnly k off && k != .ji
def isThreadRq : Requester → Bool
  | .thread _ => true
  | _ => false
/-- The action of an accepted write. -/
def State.regAct (s : State) (k : BlockKind) (a : RegAcc) : State :=
  let q := Fin.ofNat 4 (a.n / 0x100)
  let h := Fin.ofNat 2 ((a.n - 0x400) / 0x100)
  match k with
  | .ji => s.jiWrite h.val a
  | .clus => s.clusWrite (Fin.ofNat 64 (16 * q.val + a.n % 16)) a
  | .digest => s.digestWrite q a
  | .sync => s.syncWrite q.val a
  | .mode => s.modeWrite a
  | .grind => s.grindWrite (Fin.ofNat 16 (4 * q.val + a.n % 0x100 - 8)) a
  | .perc => s.percWrite h a
  | .cellar => s.cellarWrite q.val a
  | .stack => s.stackWrite (6 * q.val + a.n % 0x100 - 0x10) a
  | .tl => s.tlWrite (Fin.ofNat 18 (9 * h.val + a.n % 0x100 - 0x10)) a
  | .gtc => s.gtcWrite a
  | .coll => s.collWrite h a
  | .fm => s.fmWrite h.val a
  | .silpaot => s.silpaotWrite a
  | .qctl => s.qctlWrite q.val a
  | .hctl => s.hctlWrite a
  | _ => s.regPlain a []
/-- A write of `v` by `rq` at offset `off` of block `n` (R5-R8, R27, R379). The registers that task code submits commands to
are the submission rows'; of MESH and the PCIe ports the spec gives no register. -/
def State.regWrite (s : State) (rq : Requester) (n off size v : Nat) : State :=
  match blockKind n with
  | none => s.regError blkFAB off true 1
  | some k =>
    let reg := off / 8 * 8
    let m := blockOf n
    let half := if size = 8 then none else some (off % 8 == 4)
    let a : RegAcc := ⟨rq, n, m, reg, size, half, v, initWord (s.regWord k m reg) half v, placed half v,
      (fieldsAt k reg).filter (fun f => f.touched half)⟩
    if !sizeOk off size then s.regError n off true 0
    else if s.blockGone n then s.regError n off true 1
    else if k != .qctl && !s.mayWrite rq m reg then s.regError n off true 1
    else if wholeOnly k reg && size != 8 then s.regError n off true 0
    else if isSubmit k reg then (if isThreadRq rq then s else s.regError n off true 1)
    else if a.fs.isEmpty && k != .perc then s
    else s.regAct k a
/-- The registers can be reached: the device is out of reset and its clocks run; with MGMT alone, firmware reaches its own and
the clocks' (log entry 67). -/
def State.regsUp (s : State) (rq : Requester) (n : Nat) : Bool :=
  s.regsOn || (s.pow.boot != .held && !s.pow.thermtrip && isFw rq &&
    (blockKind n == some .silpaot || blockKind n == some .hctl || blockKind n == some .clk))
/-- REGISTER_WRITE (R5, R6): `addr` is a device address. A port's write to an unlisted block is discarded and logged (R27,
R30). -/
def execRegisterWrite (rq : Requester) (addr : Word) (size : Nat) (v : Word) (s : State) : Host.Outcome State Fault Refusal :=
  .next (match region addr.toNat with
    | .regs n off =>
      if !s.regsUp rq n then s
      else if (blockKind n).isNone then
        let s := s.fabReject addr.toNat true
        match rq with
        | .port p => s.logAer p.val .discarded
        | _ => s
      else s.regWrite rq n off size v.toNat
    | _ => s)

/-! ### Rows of registers of a quarter -/

/-- ICACHE_INV (R76). -/
def execIcacheInv (cl : Fin 64) (s : State) : Host.Outcome State Fault Refusal :=
  .next (s.inService (blkCLUS cl.val) F.CLUS.CLUS_CTL.ICACHE_INV.reg (fun s => s.icacheInvDo cl))
/-- CLEAR: DIG_CTL with CLEAR = 1 (R99). -/
def execClear (q : Fin 4) (slot : Fin 64) (s : State) : Host.Outcome State Fault Refusal :=
  .next (s.inService (blkDIGEST q.val) F.DIGEST.DIG_CTL.CLEAR.reg (fun s => s.clearDo q slot))
/-- CLEAR_ALL. -/
def execClearAll (q : Fin 4) (s : State) : Host.Outcome State Fault Refusal :=
  .next (s.inService (blkDIGEST q.val) F.DIGEST.DIG_CTL.CLEAR.reg (fun s => s.clearAllDo q))
/-- APPLY: TAB_APPLY with APPLY = 1 (R203). -/
def execApply (g : Fin 16) (t : Fin 32) (s : State) : Host.Outcome State Fault Refusal :=
  .next (s.inService (blkGRIND g.val) F.GRIND.TAB_APPLY.APPLY.reg (fun s => s.applyDo g t))
/-- APPLY_ALL. -/
def execApplyAll (g : Fin 16) (s : State) : Host.Outcome State Fault Refusal :=
  .next (s.inService (blkGRIND g.val) F.GRIND.TAB_APPLY.APPLY.reg (fun s => s.applyAllDo g))
/-- SK_CTL_WRITE (R234); `half` names the 4-byte half written, high when true. -/
def execSkCtlWrite (g u : Fin 16) (half : Option Bool) (v : Word) (s : State) : Host.Outcome State Fault Refusal :=
  .next (s.inService (blkGRIND g.val) (F.GRIND.SK_CTL.ENABLE.reg + 8 * u.val) (fun s => s.skCtlWriteDo g u half v))

end Sys2Proof.Machine
end

