-- ==== Sys2Proof/Machine/Homes.lean ====
section
/-! DEFINITION. The fabric's requests at their homes (R57, R66, R172, R246-R250, R278-R287, R300-R303, R312, R426, R427),
instruction-cache fills (R63), the host's accesses through BAR4 (R30). -/

namespace Sys2Proof.Machine

/-! ### Answers and refusals -/

/-- The request is acknowledged. -/
def State.ack (s : State) (r : Req) : State := s.answerReq r .ack
/-- A home refuses the request: recorded, ADDRESS_FAULT for the task (R75, R281, R402) when the answer has come back; at a
withdrawn quarter its job ends with DEVICE_FAULT (R380). -/
def State.refuseReq (s : State) (r : Req) : State := (s.refusedAt r.addr).answerReq r (.refused 0x04)
/-- A withdrawn quarter's stacks: reads are answered with poison, writes discarded, all counted (R312). -/
def State.lostReq (s : State) (r : Req) : State :=
  let s := s.bump (blkSTACK (stackLoc r.addr).stack) F.STACK.WITHDRAWN_ACCESSES.COUNT
  if r.isSt then s.ack r
  else if r.posted then s.answerReq r (.refused 0x07)
  else s.answerReq r (.data 0 15)

/-! ### Performing -/

/-- An FADD.32 of a task in deterministic mode (R247). -/
def State.isOrdered (s : State) (r : Req) : Bool := r.op == .amo 0 && modeDet (s.thread r.key).mode
/-- The quarter of an address's home. -/
def homeQ (a : Nat) : Nat :=
  match region a with
  | .stack q => q
  | .cellar q _ => q
  | .scratch core => coreQ core
  | _ => 0
/-- The store of the home's quarter holds an ordered add, or refuses it when it is full (R250). -/
def State.holdAdd (s : State) (r : Req) : State :=
  let q := homeQ r.addr
  let t := s.thread r.key
  if 262144 ≤ (s.oadds.filter (fun (x : OAdd) => x.q == q)).length then s.answerReq r (.refused 0x60)
  else { s with oadds := s.oadds ++ [OAdd.mk q r.addr t.argw r.data t.job] }.ack r
/-- The request acts on the cells. A poisoned operand of an AMO stays as it is, and the task ends (R374). -/
def State.act (s : State) (r : Req) : State :=
  match r.op with
  | .st => (s.homePutBad (s.thread r.key).mode r.addr (leBytes r.size r.data) r.bad).ack r
  | .amo fn =>
    if s.readPoison r.addr r.size || r.bad &&& r.cwMask != 0 then
      (if r.posted then s.answerReq r (.refused 0x07) else s.answerReq r (.data 0 r.cwMask))
    else
      let old := s.viewNat r.addr r.size
      let s := s.homePut 0 r.addr (leBytes r.size (amoOp fn old r.data)) false
      if r.posted then s.ack r else s.answerReq r (.data old 0)
  | _ => s.answerReq r (.data (s.viewNat r.addr r.size) (s.readBad r.addr r.size))

/-! ### The stack controllers (R300, R303) -/

def State.pcOf (s : State) (a : Nat) : Pc :=
  let l := stackLoc a
  s.pcSt l.stack l.channel l.pc
/-- A free entry: 64 for reads, of which every class may take all but the 16 kept for the others; 64 for writes. -/
def State.roomAt (s : State) (a : Nat) (write lat : Bool) : Bool :=
  let x := s.pcOf a
  if write then decide ((x.queue.filter (·.write)).length < 64)
  else
    let l := x.queue.filter (fun p => !p.write)
    decide (l.length < 64) && decide ((l.filter (fun p => p.lat == lat)).length < 48)
/-- A queued write covers the block. -/
def State.queuedWrite (s : State) (a : Nat) : Bool :=
  (s.pcOf a).queue.any (fun p => p.write && decide (p.addr / 64 ≤ a / 64) && decide (a / 64 ≤ (p.addr + p.n - 1) / 64))
/-- What the codewords of a read are found to be when they come from the stack: the symbol in error, or none for more. -/
def State.foundAt (s : State) (a n : Nat) : List (Nat × Option Nat) :=
  (cws a n).filterMap (fun c => match s.mem.cw c with
    | .one sym => some (c, some sym)
    | .bad => some (c, none)
    | _ => none)
/-- A request reaches its stack controller: it takes effect in the order of arrival (R300); what it returns comes with
STACK_READ_DATA, unless a queued write of its block has it. -/
def State.atController (s : State) (r : Req) : State :=
  let a := r.addr
  let n := r.size
  let lat := r.cls == Cls.lat
  if s.inPc r.id then s
  else if r.posted then
    if s.roomAt a true lat then
      ((s.applyAdds a n).addQueue ⟨.req r.id, a, n, true, lat, s.clk.arith, 0, 0, []⟩).act r
    else s
  else if s.queuedWrite a then (s.applyAdds a n).act r
  else if s.roomAt a false lat then
    let s := s.applyAdds a n
    let bad := s.readBad a n ||| (if r.isAmo then r.bad &&& r.cwMask else 0)
    let old := s.viewNat a n
    let s := s.addQueue ⟨.req r.id, a, n, false, lat, s.clk.arith, old, bad, s.foundAt a n⟩
    match r.op with
    | .amo fn => if bad ≠ 0 then s else s.homePut 0 a (leBytes n (amoOp fn old r.data)) false
    | _ => s
  else s

/-- A read of a stream or Grinder at its home, on behalf of `who`: in the stacks under the controller's own home it waits for its data
with the rest of the queue; elsewhere it is performed. -/
def State.engAccess (s : State) (id : Nat) (who : Who) (a n : Nat) (lat : Bool) : State :=
  let direct := match region a with
    | .stack q => !s.cacheOn q && s.qState q != 5
    | _ => false
  if !direct then
    let s := s.homeTouch who a n false
    s.engAnswer id (readCodes s a n)
  else if s.inPc id then s
  else if s.queuedWrite a then
    let s := s.applyAdds a n
    s.engAnswer id (readCodes s a n)
  else if s.roomAt a false lat then
    let s := s.applyAdds a n
    let l := readCodes s a n
    s.addQueue ⟨.eng id, a, n, false, lat, s.clk.arith, leNat (l.flatMap (fun c => leBytes 16 c.v)), s.readBad a n, s.foundAt a n⟩
  else s
/-- A stream's read at its home. -/
def State.strmHome (s : State) (id : Nat) : State :=
  match s.strmAtHome id with
  | none => s
  | some (k, r) =>
    if s.ctxRefused k r.addr r.n false then (s.engineReject r.addr false).strmAnswer k r []
    else s.engAccess id (.ctx k) r.addr r.n (dLat (s.ctx k).desc)
/-- A Grinder's request at its home, in the name of the Grinder that owns a CAVE bank (R217). -/
def State.grindHome (s : State) (id : Nat) : State :=
  match s.grindAtHome id with
  | none => s
  | some (g, r) =>
    match s.rowWho g r.addr with
    | none => s.grindAnswer g r []
    | some w =>
      match s.spanAdm w r.addr r.n false with
      | .wait => s
      | .refuse => (s.engineReject r.addr false).grindAnswer g r []
      | _ => s.engAccess id w r.addr r.n true

/-! ### The Cellar cache (R285-R287) -/

/-- The bank of a line's set. -/
def State.bankOfLine (s : State) (line : Nat) : Nat := s.setOf line / 8192 % 64
/-- A miss is counted; a write's detector follows it. -/
def State.countMiss (s : State) (q : Nat) (r : Req) : State :=
  let who : Who := .thread r.key
  let s := if r.isSt then s.setDet q (Det.step (s.det q who) who (r.addr / 64) (r.addr % 64 == 0 && r.size == 64)) else s
  s.bump (blkCELLAR q) F.CELLAR.CACHE_MISSES.COUNT
/-- A request to the stacks of quarter `q` whose cache is its home. -/
def State.atCache (s : State) (q : Nat) (r : Req) : State :=
  let line := r.addr / 256
  let b := blkCELLAR q
  let byp := r.isSt && s.bypasses q (.thread r.key) (r.addr / 64)
  if s.inPc r.id || s.misses.any (fun (m : Miss) => m.req == r.id) then s
  else if s.holdsLine line then (s.homeTouch (.thread r.key) r.addr r.size r.isSt).act r
  else if s.wbacks.any (fun (x : WBack) => x.line == line) then
    -- served from the eviction buffer; a write waits until it has been acknowledged
    (if r.isSt || r.isAmo then s else ((s.applyAdds r.addr r.size).bump b F.CELLAR.CACHE_HITS.COUNT).act r)
  else if s.fbit b F.CELLAR.CACHE_STATUS.DISABLING || byp then
    (if s.roomAt r.addr r.posted (r.cls == Cls.lat) then
      let s := s.countMiss q r
      let s := if byp && !s.fbit b F.CELLAR.CACHE_STATUS.DISABLING then s.bump b F.CELLAR.NOALLOC_WRITES.COUNT else s
      s.atController r
    else s)
  else if s.misses.any (fun (m : Miss) => m.line == line) || !s.roomAt r.addr false (r.cls == Cls.lat) then s
  else
    let s := s.countMiss q r
    ({ s with misses := s.misses ++ [Miss.mk r.id line false] }).addQueue
      ⟨.fill r.id line, 256 * line, 256, false, r.cls == Cls.lat, s.clk.arith, 0, 0, []⟩

/-! ### Device memory -/

/-- A thread's request at its home in device memory. -/
def State.devAccess (s : State) (r : Req) : State :=
  match s.admission (.thread r.key) r.addr r.size (r.isSt || r.isAmo) r.isAmo with
  | .wait => s
  | .refuse => s.refuseReq r
  | .lost => s.lostReq r
  | .go =>
    if s.isOrdered r then s.holdAdd r
    else match region r.addr with
      | .stack q => if s.cacheOn q then s.atCache q r else s.atController r
      | _ => (s.homeTouch (.thread r.key) r.addr r.size r.isSt).act r
/-- The misses of a request, dropped. -/
def State.dropMiss (s : State) (id : Nat) : State := { s with misses := s.misses.filter (fun (m : Miss) => m.req != id) }
/-- The set of the line has an invalid way, or a clean victim, or its bank's eviction buffer has room. -/
def State.canAlloc (s : State) (line : Nat) : Bool :=
  let set := s.setOf line
  (List.range 16).any (fun w => (s.way set w).line == 0) ||
    !(s.way set (plruVictim (Sparse.get 0 s.plru set))).dirty || decide ((s.evb (lineQ line) (s.bankOfLine line)).length < 32)
/-- CACHE_MISS_FILL: the line takes its way and the request is performed on it. -/
def execCacheMissFill (id : Nat) (s : State) : Host.Outcome State Fault Refusal :=
  .next (match s.misses.find? (fun (m : Miss) => m.req == id && m.ready) with
    | none => s
    | some m =>
      if !s.alive then s
      else match s.req? id with
        | none => s.dropMiss id
        | some r =>
          let q := lineQ m.line
          match s.admission (.thread r.key) r.addr r.size (r.isSt || r.isAmo) r.isAmo with
          | .refuse => (s.dropMiss id).refuseReq r
          | .lost => (s.dropMiss id).lostReq r
          | .wait => s
          | .go =>
            if !s.cacheOn q || s.fbit (blkCELLAR q) F.CELLAR.CACHE_STATUS.DISABLING then (s.dropMiss id).atController r
            else if s.holdsLine m.line then ((s.dropMiss id).applyAdds r.addr r.size).act r
            else if !s.canAlloc m.line then s
            else (((s.dropMiss id).allocLine m.line).applyAdds r.addr r.size).act r)

/-! ### Register blocks and host windows -/

/-- A thread's access at a register block. A store to a GRIND block of a withdrawn quarter is refused (R380). -/
def State.regAccess (s : State) (r : Req) (n off : Nat) : State :=
  let k := r.key
  -- a write of an object that stands before a frozen table is not performed, nor acknowledged (R172, R181)
  let obj := match blockKind n with
    | some .sync => decide (F.SYNC.OBJ.TYPE.reg ≤ off)
    | _ => false
  match r.op with
  | .st =>
    if (submitUnit r.addr).isSome && r.size == 8 then s
    else if obj && s.objWaits (65536 * (n / 0x100) + (off - F.SYNC.OBJ.TYPE.reg) / 8) then s
    else
      let rq : Requester := .thread ⟨Fin.ofNat 4096 (k / 64), Fin.ofNat 64 (k % 64)⟩
      let s := s.regWrite rq n off r.size r.data
      if s.goneWindow r.addr then s.answerReq r (.refused 0x04) else s.ack r
  | _ =>
    let v := s.regRead n off r.size
    v.2.answerReq r (.data v.1 0)
/-- A thread's access through the window of port `p`: a load waits for the host's answer; a store is acknowledged when the
port accepts it, and discarded with the link down. In D3hot it waits (R404). -/
def State.winAccess (s : State) (r : Req) (p : Nat) : State :=
  match r.op with
  | .st =>
    if (s.port p).d3hot then s
    else if (s.port p).link then { s with host := (cwParts r.addr r.size).foldl (fun m (c : Nat × Nat × Nat) =>
      m.writeP c.1 (((leBytes r.size r.data).drop (c.1 - r.addr)).take c.2.1) (bit r.bad c.2.2)) s.host }.ack r
    else s.ack r
  | _ =>
    if s.hostReads.any (fun (h : HostRead) => h.for_ == .request r.id) then s
    else
      let (id, s) := s.takeSeq
      { s with hostReads := s.hostReads ++ [HostRead.mk id p (.request r.id) r.addr r.size] }
/-- A request that has reached its home and has no answer. -/
def State.arrived (s : State) (id : Nat) : Option Req :=
  match s.req? id with
  | some r => if s.alive && s.landed id && r.answer.isNone then some r else none
  | none => none
/-- The home has taken the request in: it stands in a controller's queue, waits for its line or for the host's answer, or is held
at a queue of commands. -/
def State.takenIn (s : State) (id : Nat) : Bool :=
  s.inPc id || s.misses.any (fun (m : Miss) => m.req == id) || s.heldSubs.any (fun h => h.2 == id) ||
    s.hostReads.any (fun (h : HostRead) => h.for_ == .request id)
/-- No earlier request of the same core still stands before the same home: a bank, a scratch, a pseudo-channel, a block, a port
(R17). -/
def State.inOrder (s : State) (r : Req) : Bool :=
  !s.fabric.reqs.any (fun x => decide (x.id < r.id) && x.answer.isNone && x.key / 64 == r.key / 64 &&
    homeIface x.addr == homeIface r.addr && !s.takenIn x.id)
/-- HOME_ACCESS: the request that the flit `id` carries is performed at its home: a thread's, a stream's read, a Grinder's. -/
def execHomeAccess (id : Nat) (s : State) : Host.Outcome State Fault Refusal :=
  .next (match s.arrived id with
    | none => (s.strmHome id).grindHome id
    | some r =>
      if r.isAmo || !s.inOrder r then s
      else match region r.addr with
        | .regs n off => s.regAccess r n off
        | .host p => s.winAccess r p
        | _ => s.devAccess r)
/-- AMO_AT_HOME. -/
def execAmoAtHome (id : Nat) (s : State) : Host.Outcome State Fault Refusal :=
  .next (match s.arrived id with
    | none => s
    | some r => if r.isAmo && s.inOrder r then s.devAccess r else s)

/-! ### BAR2 and BAR4 (R27, R30) -/

/-- What an inbound read brings. -/
def State.barAnswer (s : State) (p : Nat) (a : Answer) : State := s.setPort p { s.port p with bar4 := some a }
/-- An access that the port turns away: a read completes with UR, a write is discarded; logged under AER. -/
def State.bar4Refuse (s : State) (p : Nat) (write : Bool) : State :=
  (if write then s else s.barAnswer p (.refused 0)).barRefuse p write
def State.bar4Data (s : State) (p v : Nat) (poison : Bool) : State := s.barAnswer p (.data v (b2n poison))
/-- An access at a device address: memory, a register, a host window; none where it has to wait. A register block whose number is
not listed reads all ones and ignores writes (R27), which R30 logs. What the host of a window holds, the device does not know: a
read through it brings a free value. -/
def State.bar4At (s : State) (p : Nat) (x : Inbound) : Option State :=
  let who : Who := .port p
  let a := x.addr
  let n := x.size
  let one := sameSpan a (a + n - 1) || (match region a, region (a + n - 1) with
    | .regs m _, .regs m' _ => m == m'
    | .host i, .host j => i == j
    | _, _ => false)
  if unlisted a then
    let s := (s.fabReject a x.write).barRefuse p x.write
    some (if x.write then s else s.bar4Data p (2 ^ (8 * n) - 1) false)
  else if !mapped a false || !mapped (a + n - 1) false then
    some ((s.fabReject (if mapped a false then a + n - 1 else a) x.write).bar4Refuse p x.write)
  else if !one then some (s.bar4Refuse p x.write)
  else match region a with
    | .regs m off =>
      if !s.regsUp (.port (Fin.ofNat 2 p)) m then some s
      else if x.write then some (s.regWrite (.port (Fin.ofNat 2 p)) m off n x.v)
      else
        let r := s.regRead m off n
        some (r.2.bar4Data p r.1 false)
    | .host i =>
      if x.write then some (if (s.port i).link then { s with host := s.host.write a (leBytes n x.v) } else s)
      else
        let r := s.fresh
        some (r.2.bar4Data p (r.1.toNat % 2 ^ (8 * n)) false)
    | _ =>
      match s.spanAdm who a n x.write with
      | .wait => none
      | .refuse =>
        some ((if x.write then s.spanRefuseW who 0 a (leBytes n x.v) else s.spanRefuseR who a n).bar4Refuse p x.write)
      | _ =>
        if x.write then some (s.spanWrite who 0 a (leBytes n x.v))
        else
          let s := s.spanTouch who a n
          some (s.bar4Data p (s.viewNat a n) ((blocksOf a n).any (fun b => s.readPoison b.1 b.2)))
/-- BAR4_APERTURE_ACCESS: `size` bytes at `off` of the aperture, or, in BAR2, of the register region, as the port's host reads or
writes them. One that has to wait holds those that come after it. -/
def execBar4ApertureAccess (p : Fin 2) (write : Bool) (off : BarOff) (size : Nat) (v : Nat) (s : State) :
    Host.Outcome State Fault Refusal :=
  let bar2 := off.isBar2
  let off := off.off
  let base := if bar2 then regsBase else s.fget (blkJI p.val) F.JI.APERTURE_BASE.BASE * 2 ^ 32
  let x : Inbound := ⟨write, base + off.toNat, size, v % 2 ^ (8 * size)⟩
  .next (if !(s.port p.val).link || (s.port p.val).d3hot || size = 0 || !(if bar2 then s.regsOn else s.alive) then s
    else if 2 ^ 32 < off.toNat + size then s.bar4Refuse p.val write
    else
      let wait := s.setPort p.val { s.port p.val with inq := (s.port p.val).inq ++ [x] }
      if s.inboundWaits p.val then wait else (s.bar4At p.val x).getD wait)
/-- The oldest access that waits at a port is tried again. -/
def State.tickInbound (s : State) (p : Nat) : State :=
  match (s.port p).inq with
  | [] => s
  | x :: l => if s.inboundHeld p || !s.alive then s else ((s.setPort p { s.port p with inq := l }).bar4At p x).getD s

end Sys2Proof.Machine
end

