-- ==== Sys2Proof/Machine/Dispatch.lean ====
section
/-! DEFINITION. One arm for every command: its meaning, or a refusal by name. -/

namespace Sys2Proof.Machine

def exec (i : Instr) (s : State) : Host.Outcome State Fault Refusal :=
  match i with
  | .registerWrite rq addr size v => Sys2Proof.Machine.execRegisterWrite rq addr size v s
  | .ledgerChange rq blk off v => Sys2Proof.Machine.execLedgerChange rq blk off v s
  | .flitHop id hdr payload => Sys2Proof.Machine.execFlitHop id hdr payload s
  | .bridgeFailed b => Sys2Proof.Machine.execBridgeFailed b s
  | .throttleWindow => Sys2Proof.Machine.execThrottleWindow s
  | .refclkLost => Sys2Proof.Machine.execRefclkLost s
  | .pcieLinkTraining p rates widths => Sys2Proof.Machine.execPcieLinkTraining p rates widths s
  | .pcieLinkDown p => Sys2Proof.Machine.execPcieLinkDown p s
  | .bar4ApertureAccess p write off size v => Sys2Proof.Machine.execBar4ApertureAccess p write off size v s
  | .sqTail p r v => Sys2Proof.Machine.execSqTail p r v s
  | .cqHead p r v => Sys2Proof.Machine.execCqHead p r v s
  | .ringBaseWrite p r cq v => Sys2Proof.Machine.execRingBaseWrite p r cq v s
  | .ringEnable p r v => Sys2Proof.Machine.execRingEnable p r v s
  | .ringDisable p r v => Sys2Proof.Machine.execRingDisable p r v s
  | .ringDrainDone p r => Sys2Proof.Machine.execRingDrainDone p r s
  | .submissionFetch p r => Sys2Proof.Machine.execSubmissionFetch p r s
  | .submissionBlockReturn p r words ep => Sys2Proof.Machine.execSubmissionBlockReturn p r words ep s
  | .seqReread p r => Sys2Proof.Machine.execSeqReread p r s
  | .run j => Sys2Proof.Machine.execRun j s
  | .rootLoad j => Sys2Proof.Machine.execRootLoad j s
  | .rootsEligible j => Sys2Proof.Machine.execRootsEligible j s
  | .copyIn j => Sys2Proof.Machine.execCopyIn j s
  | .copyOut j => Sys2Proof.Machine.execCopyOut j s
  | .fence j => Sys2Proof.Machine.execFence j s
  | .jobComplete j => Sys2Proof.Machine.execJobComplete j s
  | .coalTimerExpire p r => Sys2Proof.Machine.execCoalTimerExpire p r s
  | .hostReadCompletion id data ep => Sys2Proof.Machine.execHostReadCompletion id data ep s
  | .hostReadFailure id => Sys2Proof.Machine.execHostReadFailure id s
  | .release p mask => Sys2Proof.Machine.execRelease p mask s
  | .partDone p => Sys2Proof.Machine.execPartDone p s
  | .acquire p mask => Sys2Proof.Machine.execAcquire p mask s
  | .takeover p mask => Sys2Proof.Machine.execTakeover p mask s
  | .heartbeat p => Sys2Proof.Machine.execHeartbeat p s
  | .heartbeatTimeout p => Sys2Proof.Machine.execHeartbeatTimeout p s
  | .linkLossTimeout p => Sys2Proof.Machine.execLinkLossTimeout p s
  | .portReset p by_ => Sys2Proof.Machine.execPortReset p by_ s
  | .cancel p size v => Sys2Proof.Machine.execCancel p size v s
  | .add t g rd rs1 rs2 => Sys2Proof.Machine.execAdd t g rd rs1 rs2 s
  | .sub t g rd rs1 rs2 => Sys2Proof.Machine.execSub t g rd rs1 rs2 s
  | .and t g rd rs1 rs2 => Sys2Proof.Machine.execAnd t g rd rs1 rs2 s
  | .or t g rd rs1 rs2 => Sys2Proof.Machine.execOr t g rd rs1 rs2 s
  | .xor t g rd rs1 rs2 => Sys2Proof.Machine.execXor t g rd rs1 rs2 s
  | .shl t g rd rs1 rs2 => Sys2Proof.Machine.execShl t g rd rs1 rs2 s
  | .shr t g rd rs1 rs2 => Sys2Proof.Machine.execShr t g rd rs1 rs2 s
  | .sra t g rd rs1 rs2 => Sys2Proof.Machine.execSra t g rd rs1 rs2 s
  | .mul t g rd rs1 rs2 => Sys2Proof.Machine.execMul t g rd rs1 rs2 s
  | .mulhs t g rd rs1 rs2 => Sys2Proof.Machine.execMulhs t g rd rs1 rs2 s
  | .mulhu t g rd rs1 rs2 => Sys2Proof.Machine.execMulhu t g rd rs1 rs2 s
  | .min t g rd rs1 rs2 => Sys2Proof.Machine.execMin t g rd rs1 rs2 s
  | .max t g rd rs1 rs2 => Sys2Proof.Machine.execMax t g rd rs1 rs2 s
  | .minu t g rd rs1 rs2 => Sys2Proof.Machine.execMinu t g rd rs1 rs2 s
  | .maxu t g rd rs1 rs2 => Sys2Proof.Machine.execMaxu t g rd rs1 rs2 s
  | .sel t g rd rs1 rs2 => Sys2Proof.Machine.execSel t g rd rs1 rs2 s
  | .addi t g rd rs1 imm => Sys2Proof.Machine.execAddi t g rd rs1 imm s
  | .andi t g rd rs1 imm => Sys2Proof.Machine.execAndi t g rd rs1 imm s
  | .ori t g rd rs1 imm => Sys2Proof.Machine.execOri t g rd rs1 imm s
  | .xori t g rd rs1 imm => Sys2Proof.Machine.execXori t g rd rs1 imm s
  | .shli t g rd rs1 imm => Sys2Proof.Machine.execShli t g rd rs1 imm s
  | .shri t g rd rs1 imm => Sys2Proof.Machine.execShri t g rd rs1 imm s
  | .srai t g rd rs1 imm => Sys2Proof.Machine.execSrai t g rd rs1 imm s
  | .movw t rd hw keep imm => Sys2Proof.Machine.execMovw t rd hw keep imm s
  | .cmpEq t g pd rs1 rs2 => Sys2Proof.Machine.execCmpEq t g pd rs1 rs2 s
  | .cmpNe t g pd rs1 rs2 => Sys2Proof.Machine.execCmpNe t g pd rs1 rs2 s
  | .cmpLt t g pd rs1 rs2 => Sys2Proof.Machine.execCmpLt t g pd rs1 rs2 s
  | .cmpLtu t g pd rs1 rs2 => Sys2Proof.Machine.execCmpLtu t g pd rs1 rs2 s
  | .cmpGe t g pd rs1 rs2 => Sys2Proof.Machine.execCmpGe t g pd rs1 rs2 s
  | .cmpGeu t g pd rs1 rs2 => Sys2Proof.Machine.execCmpGeu t g pd rs1 rs2 s
  | .plogAnd t g pd ps1 ps2 => Sys2Proof.Machine.execPlogAnd t g pd ps1 ps2 s
  | .plogOr t g pd ps1 ps2 => Sys2Proof.Machine.execPlogOr t g pd ps1 ps2 s
  | .plogXor t g pd ps1 ps2 => Sys2Proof.Machine.execPlogXor t g pd ps1 ps2 s
  | .plogAndn t g pd ps1 ps2 => Sys2Proof.Machine.execPlogAndn t g pd ps1 ps2 s
  | .br t g disp => Sys2Proof.Machine.execBr t g disp s
  | .call t g disp => Sys2Proof.Machine.execCall t g disp s
  | .jr t g rd rs1 => Sys2Proof.Machine.execJr t g rd rs1 s
  | .rdsys t g rd sel => Sys2Proof.Machine.execRdsys t g rd sel s
  | .yield t g => Sys2Proof.Machine.execYield t g s
  | .yieldExpire t => Sys2Proof.Machine.execYieldExpire t s
  | .taskEnd t g => Sys2Proof.Machine.execTaskEnd t g s
  | .taskEndReport t => Sys2Proof.Machine.execTaskEndReport t s
  | .nop t g => Sys2Proof.Machine.execNop t g s
  | .ld t g rd rb sz sx imm => Sys2Proof.Machine.execLd t g rd rb sz sx imm s
  | .st t g rs rb sz imm => Sys2Proof.Machine.execSt t g rs rb sz imm s
  | .amoFadd32 t g rd rs1 rs2 => Sys2Proof.Machine.execAmoFadd32 t g rd rs1 rs2 s
  | .amoFmin32 t g rd rs1 rs2 => Sys2Proof.Machine.execAmoFmin32 t g rd rs1 rs2 s
  | .amoFmax32 t g rd rs1 rs2 => Sys2Proof.Machine.execAmoFmax32 t g rd rs1 rs2 s
  | .amoOr32 t g rd rs1 rs2 => Sys2Proof.Machine.execAmoOr32 t g rd rs1 rs2 s
  | .amoOr64 t g rd rs1 rs2 => Sys2Proof.Machine.execAmoOr64 t g rd rs1 rs2 s
  | .illegalInstr t w => Sys2Proof.Machine.execIllegalInstr t w s
  | .threadFreeAfterAbort t => Sys2Proof.Machine.execThreadFreeAfterAbort t s
  | .icacheFill t => Sys2Proof.Machine.execIcacheFill t s
  | .loadReturn t => Sys2Proof.Machine.execLoadReturn t s
  | .amoReturn t => Sys2Proof.Machine.execAmoReturn t s
  | .taskStart core => Sys2Proof.Machine.execTaskStart core s
  | .coreGate core => Sys2Proof.Machine.execCoreGate core s
  | .icacheInv cl => Sys2Proof.Machine.execIcacheInv cl s
  | .tmma t g xa xb a start => Sys2Proof.Machine.execTmma t g xa xb a start s
  | .tsmma t g xa xb a start => Sys2Proof.Machine.execTsmma t g xa xb a start s
  | .tdrain t g xa xb a => Sys2Proof.Machine.execTdrain t g xa xb a s
  | .arrayQueueHead core a ce bad => Sys2Proof.Machine.execArrayQueueHead core a ce bad s
  | .segmentBoundary core a => Sys2Proof.Machine.execSegmentBoundary core a s
  | .shadowMove core a => Sys2Proof.Machine.execShadowMove core a s
  | .drainComplete core a => Sys2Proof.Machine.execDrainComplete core a s
  | .vfma t g xd xa xb xc => Sys2Proof.Machine.execVfma t g xd xa xb xc s
  | .vexp t g xd xa => Sys2Proof.Machine.execVexp t g xd xa s
  | .vrcp t g xd xa => Sys2Proof.Machine.execVrcp t g xd xa s
  | .vrsq t g xd xa => Sys2Proof.Machine.execVrsq t g xd xa s
  | .vmax t g xd xa xb => Sys2Proof.Machine.execVmax t g xd xa xb s
  | .vsum t g xd xa => Sys2Proof.Machine.execVsum t g xd xa s
  | .vsoft t g xd xa xb xc => Sys2Proof.Machine.execVsoft t g xd xa xb xc s
  | .arraySteal core a => Sys2Proof.Machine.execArraySteal core a s
  | .clear q slot => Sys2Proof.Machine.execClear q slot s
  | .clearAll q => Sys2Proof.Machine.execClearAll q s
  | .compressCsr c x => Sys2Proof.Machine.execCompressCsr c x s
  | .compressK8 c x => Sys2Proof.Machine.execCompressK8 c x s
  | .fixMask c x => Sys2Proof.Machine.execFixMask c x s
  | .audit c x => Sys2Proof.Machine.execAudit c x s
  | .transpose c x => Sys2Proof.Machine.execTranspose c x s
  | .strmGo t g xd xa xb => Sys2Proof.Machine.execStrmGo t g xd xa xb s
  | .strmWait t g xd xa => Sys2Proof.Machine.execStrmWait t g xd xa s
  | .descriptorBlockRead c x => Sys2Proof.Machine.execDescriptorBlockRead c x s
  | .linear c x => Sys2Proof.Machine.execLinear c x s
  | .strided c x => Sys2Proof.Machine.execStrided c x s
  | .indexed c x => Sys2Proof.Machine.execIndexed c x s
  | .bitmap c x => Sys2Proof.Machine.execBitmap c x s
  | .multicast c x => Sys2Proof.Machine.execMulticast c x s
  | .relay c x => Sys2Proof.Machine.execRelay c x s
  | .streamRequestSlot c => Sys2Proof.Machine.execStreamRequestSlot c s
  | .streamReadReturn c x j => Sys2Proof.Machine.execStreamReadReturn c x j s
  | .creditWaitGranted c x => Sys2Proof.Machine.execCreditWaitGranted c x s
  | .segmentWritten c x r => Sys2Proof.Machine.execSegmentWritten c x r s
  | .mcStoreEntry c x => Sys2Proof.Machine.execMcStoreEntry c x s
  | .relayHop c x seg mem => Sys2Proof.Machine.execRelayHop c x seg mem s
  | .relayHopDone c x seg mem => Sys2Proof.Machine.execRelayHopDone c x seg mem s
  | .engineSignalAnswer c x => Sys2Proof.Machine.execEngineSignalAnswer c x s
  | .descriptorComplete c x => Sys2Proof.Machine.execDescriptorComplete c x s
  | .contextFree c x => Sys2Proof.Machine.execContextFree c x s
  | .taskSpawn t g xd xa => Sys2Proof.Machine.execTaskSpawn t g xd xa s
  | .spawnRecordReturn t => Sys2Proof.Machine.execSpawnRecordReturn t s
  | .spawnAccept q => Sys2Proof.Machine.execSpawnAccept q s
  | .spawnHandleArrival t => Sys2Proof.Machine.execSpawnHandleArrival t s
  | .taskFlag t g xa xb => Sys2Proof.Machine.execTaskFlag t g xa xb s
  | .flagArrival q => Sys2Proof.Machine.execFlagArrival q s
  | .taskPlacement cl => Sys2Proof.Machine.execTaskPlacement cl s
  | .latWindowReset => Sys2Proof.Machine.execLatWindowReset s
  | .syncSig t g xa xb => Sys2Proof.Machine.execSyncSig t g xa xb s
  | .syncWait t g xd xa xb => Sys2Proof.Machine.execSyncWait t g xd xa xb s
  | .syncBar t g xd xa => Sys2Proof.Machine.execSyncBar t g xd xa s
  | .syncOperation j => Sys2Proof.Machine.execSyncOperation j s
  | .barrierChainedCompletion q n => Sys2Proof.Machine.execBarrierChainedCompletion q n s
  | .grantingPass q n => Sys2Proof.Machine.execGrantingPass q n s
  | .wakeArrival j => Sys2Proof.Machine.execWakeArrival j s
  | .objWrite q n half v => Sys2Proof.Machine.execObjWrite q n half v s
  | .modeNextWrite rq v => Sys2Proof.Machine.execModeNextWrite rq v s
  | .commit rq => Sys2Proof.Machine.execCommit rq s
  | .modeAbort rq => Sys2Proof.Machine.execModeAbort rq s
  | .modeAck u => Sys2Proof.Machine.execModeAck u s
  | .watchdogCheck q => Sys2Proof.Machine.execWatchdogCheck q s
  | .cuppingDumpDone q => Sys2Proof.Machine.execCuppingDumpDone q s
  | .resume q => Sys2Proof.Machine.execResume q s
  | .dumpBaseWrite q rq v => Sys2Proof.Machine.execDumpBaseWrite q rq v s
  | .grindSubmit id => Sys2Proof.Machine.execGrindSubmit id s
  | .grindQueueRoom id => Sys2Proof.Machine.execGrindQueueRoom id s
  | .lookup g => Sys2Proof.Machine.execLookup g s
  | .bagBegin id => Sys2Proof.Machine.execBagBegin id s
  | .entryReadReturn id b => Sys2Proof.Machine.execEntryReadReturn id b s
  | .rowReadReturn id b p => Sys2Proof.Machine.execRowReadReturn id b p s
  | .deferredRowArrival id b res => Sys2Proof.Machine.execDeferredRowArrival id b res s
  | .bagResume id b => Sys2Proof.Machine.execBagResume id b s
  | .update g => Sys2Proof.Machine.execUpdate g s
  | .updateRow id => Sys2Proof.Machine.execUpdateRow id s
  | .migrate g => Sys2Proof.Machine.execMigrate g s
  | .replace g => Sys2Proof.Machine.execReplace g s
  | .moveRecordBegin id res => Sys2Proof.Machine.execMoveRecordBegin id res s
  | .rowSwap id r => Sys2Proof.Machine.execRowSwap id r s
  | .snapshot g => Sys2Proof.Machine.execSnapshot g s
  | .horizonPublish => Sys2Proof.Machine.execHorizonPublish s
  | .grindComplete id => Sys2Proof.Machine.execGrindComplete id s
  | .apply g t => Sys2Proof.Machine.execApply g t s
  | .applyAll g => Sys2Proof.Machine.execApplyAll g s
  | .skCtlWrite g u half v => Sys2Proof.Machine.execSkCtlWrite g u half v s
  | .homeAccess id => Sys2Proof.Machine.execHomeAccess id s
  | .amoAtHome id => Sys2Proof.Machine.execAmoAtHome id s
  | .submit id => Sys2Proof.Machine.execSubmit id s
  | .circulate h => Sys2Proof.Machine.execCirculate h s
  | .accum h => Sys2Proof.Machine.execAccum h s
  | .kvGet h => Sys2Proof.Machine.execKvGet h s
  | .kvPut h => Sys2Proof.Machine.execKvPut h s
  | .percRingEnable h v => Sys2Proof.Machine.execPercRingEnable h v s
  | .percRingDisable h => Sys2Proof.Machine.execPercRingDisable h s
  | .ringHello h j ringId n pos cnt => Sys2Proof.Machine.execRingHello h j ringId n pos cnt s
  | .ringHelloAck h j => Sys2Proof.Machine.execRingHelloAck h j s
  | .ringSeg t seq op bytes origin seg => Sys2Proof.Machine.execRingSeg t seq op bytes origin seg s
  | .blockLanded h => Sys2Proof.Machine.execBlockLanded h s
  | .passComplete id => Sys2Proof.Machine.execPassComplete id s
  | .ringStall h => Sys2Proof.Machine.execRingStall h s
  | .abort t => Sys2Proof.Machine.execAbort t s
  | .kvReq t put block len tag res => Sys2Proof.Machine.execKvReq t put block len tag res s
  | .kvData t put off tag => Sys2Proof.Machine.execKvData t put off tag s
  | .kvAck t status => Sys2Proof.Machine.execKvAck t status s
  | .kvCtlWrite h rq v => Sys2Proof.Machine.execKvCtlWrite h rq v s
  | .bankOwnWrite q b rq v => Sys2Proof.Machine.execBankOwnWrite q b rq v s
  | .bankTransitionDone q b => Sys2Proof.Machine.execBankTransitionDone q b s
  | .cacheEnable q => Sys2Proof.Machine.execCacheEnable q s
  | .cacheDisable q => Sys2Proof.Machine.execCacheDisable q s
  | .cacheDisableDone q => Sys2Proof.Machine.execCacheDisableDone q s
  | .cacheMissFill id => Sys2Proof.Machine.execCacheMissFill id s
  | .writebackAck q line => Sys2Proof.Machine.execWritebackAck q line s
  | .invalidate q all => Sys2Proof.Machine.execInvalidate q all s
  | .clean q all => Sys2Proof.Machine.execClean q all s
  | .flush q all => Sys2Proof.Machine.execFlush q all s
  | .rangeDone q => Sys2Proof.Machine.execRangeDone q s
  | .marchTest q bank preserve => Sys2Proof.Machine.execMarchTest q bank preserve s
  | .marchDone q fails first => Sys2Proof.Machine.execMarchDone q fails first s
  | .stackCommandIssue k ch pc => Sys2Proof.Machine.execStackCommandIssue k ch pc s
  | .stackReadData k ch pc => Sys2Proof.Machine.execStackReadData k ch pc s
  | .caParityError k ch => Sys2Proof.Machine.execCaParityError k ch s
  | .refreshDue k ch pc bank => Sys2Proof.Machine.execRefreshDue k ch pc bank s
  | .stackTempReading k t => Sys2Proof.Machine.execStackTempReading k t s
  | .latShareWindow k => Sys2Proof.Machine.execLatShareWindow k s
  | .scrubRead k => Sys2Proof.Machine.execScrubRead k s
  | .laneFailing k ch pc lane => Sys2Proof.Machine.execLaneFailing k ch pc lane s
  | .retrain k ch => Sys2Proof.Machine.execRetrain k ch s
  | .retrainDone k ch ok bad => Sys2Proof.Machine.execRetrainDone k ch ok bad s
  | .testModeWrite k on => Sys2Proof.Machine.execTestModeWrite k on s
  | .trafficGenGo k ch => Sys2Proof.Machine.execTrafficGenGo k ch s
  | .trafficGenDone k ch errs lanes => Sys2Proof.Machine.execTrafficGenDone k ch errs lanes s
  | .talienEnable t => Sys2Proof.Machine.execTalienEnable t s
  | .talienDisable t => Sys2Proof.Machine.execTalienDisable t s
  | .talienTrainingDone t partner pass => Sys2Proof.Machine.execTalienTrainingDone t partner pass s
  | .trainingRetry t => Sys2Proof.Machine.execTrainingRetry t s
  | .hello t => Sys2Proof.Machine.execHello t s
  | .helloAck t => Sys2Proof.Machine.execHelloAck t s
  | .frameReceived t f eighth => Sys2Proof.Machine.execFrameReceived t f eighth s
  | .replayTimeout t => Sys2Proof.Machine.execReplayTimeout t s
  | .recoveryEntry t => Sys2Proof.Machine.execRecoveryEntry t s
  | .recoveryDone t ok => Sys2Proof.Machine.execRecoveryDone t ok s
  | .laneLockLost t l => Sys2Proof.Machine.execLaneLockLost t l s
  | .laneWindow t => Sys2Proof.Machine.execLaneWindow t s
  | .repairReq t => Sys2Proof.Machine.execRepairReq t s
  | .repairAck t => Sys2Proof.Machine.execRepairAck t s
  | .gtcSyncSend => Sys2Proof.Machine.execGtcSyncSend s
  | .gtcSync t => Sys2Proof.Machine.execGtcSync t s
  | .delayReq t => Sys2Proof.Machine.execDelayReq t s
  | .delayResp t => Sys2Proof.Machine.execDelayResp t s
  | .gtcSlew => Sys2Proof.Machine.execGtcSlew s
  | .holdover => Sys2Proof.Machine.execHoldover s
  | .gtcCtlWrite v => Sys2Proof.Machine.execGtcCtlWrite v s
  | .launchRelease j => Sys2Proof.Machine.execLaunchRelease j s
  | .collData t hd => Sys2Proof.Machine.execCollData t hd s
  | .collReady t chan seq count layout => Sys2Proof.Machine.execCollReady t chan seq count layout s
  | .coAbort t op gid seq mism => Sys2Proof.Machine.execCoAbort t op gid seq mism s
  | .collSubmit id => Sys2Proof.Machine.execCollSubmit id s
  | .reduceScatter h => Sys2Proof.Machine.execReduceScatter h s
  | .allgather h => Sys2Proof.Machine.execAllgather h s
  | .allreduce h => Sys2Proof.Machine.execAllreduce h s
  | .send h => Sys2Proof.Machine.execSend h s
  | .recv h => Sys2Proof.Machine.execRecv h s
  | .collComplete id => Sys2Proof.Machine.execCollComplete id s
  | .coStall id => Sys2Proof.Machine.execCoStall id s
  | .reshard h v => Sys2Proof.Machine.execReshard h v s
  | .announce rq j => Sys2Proof.Machine.execAnnounce rq j s
  | .aliasClaim t => Sys2Proof.Machine.execAliasClaim t s
  | .routeDataWrite rq v => Sys2Proof.Machine.execRouteDataWrite rq v s
  | .roleWrite rq v => Sys2Proof.Machine.execRoleWrite rq v s
  | .flashSubmit id => Sys2Proof.Machine.execFlashSubmit id s
  | .read h => Sys2Proof.Machine.execRead h s
  | .write h => Sys2Proof.Machine.execWrite h s
  | .trim h => Sys2Proof.Machine.execTrim h s
  | .flashPageReadDone h id k res => Sys2Proof.Machine.execFlashPageReadDone h id k res s
  | .flashPageCommit h id k fail => Sys2Proof.Machine.execFlashPageCommit h id k fail s
  | .flashCmdComplete id => Sys2Proof.Machine.execFlashCmdComplete id s
  | .gcCollect h x => Sys2Proof.Machine.execGcCollect h x s
  | .staticWearLevel h x => Sys2Proof.Machine.execStaticWearLevel h x s
  | .retentionScrub h res => Sys2Proof.Machine.execRetentionScrub h res s
  | .targetFailed h x => Sys2Proof.Machine.execTargetFailed h x s
  | .format h rq marked => Sys2Proof.Machine.execFormat h rq marked s
  | .flashMapRebuilt h present ok blocks pages => Sys2Proof.Machine.execFlashMapRebuilt h present ok blocks pages s
  | .errorReport n => Sys2Proof.Machine.execErrorReport n s
  | .sensorReading die sensor temp => Sys2Proof.Machine.execSensorReading die sensor temp s
  | .railOutOfTolerance rail beyond => Sys2Proof.Machine.execRailOutOfTolerance rail beyond s
  | .pwrGoodLow => Sys2Proof.Machine.execPwrGoodLow s
  | .coldRstNLow => Sys2Proof.Machine.execColdRstNLow s
  | .coldResetRelease refOk => Sys2Proof.Machine.execColdResetRelease refOk s
  | .ledgerRead => Sys2Proof.Machine.execLedgerRead s
  | .firmwareVerified => Sys2Proof.Machine.execFirmwareVerified s
  | .stacksTrained failed banks => Sys2Proof.Machine.execStacksTrained failed banks s
  | .quartersReady => Sys2Proof.Machine.execQuartersReady s
  | .profileApplied cls parts modes role => Sys2Proof.Machine.execProfileApplied cls parts modes role s
  | .configReady => Sys2Proof.Machine.execConfigReady s
  | .warmRstN => Sys2Proof.Machine.execWarmRstN s
  | .cold rq => Sys2Proof.Machine.execCold rq s
  | .warm rq => Sys2Proof.Machine.execWarm rq s
  | .mgmt rq => Sys2Proof.Machine.execMgmt rq s
  | .smbusMgmtReset => Sys2Proof.Machine.execSmbusMgmtReset s
  | .mgmtWdExpire => Sys2Proof.Machine.execMgmtWdExpire s
  | .kick rq => Sys2Proof.Machine.execKick rq s
  | .qreset q rq => Sys2Proof.Machine.execQreset q rq s
  | .quarterResetProceed q => Sys2Proof.Machine.execQuarterResetProceed q s
  | .clusterReset q mask rq => Sys2Proof.Machine.execClusterReset q mask rq s
  | .clusterResetProceed q => Sys2Proof.Machine.execClusterResetProceed q s
  | .throttleUpdate est => Sys2Proof.Machine.execThrottleUpdate est s
  | .pwrAlertNLow => Sys2Proof.Machine.execPwrAlertNLow s
  | .pwrAlertNHigh => Sys2Proof.Machine.execPwrAlertNHigh s
  | .clusterPowerOff cl => Sys2Proof.Machine.execClusterPowerOff cl s
  | .clusterPowerOn cl => Sys2Proof.Machine.execClusterPowerOn cl s
  | .standbyEnter q rq => Sys2Proof.Machine.execStandbyEnter q rq s
  | .standbyEntryDone q => Sys2Proof.Machine.execStandbyEntryDone q s
  | .standbyExit q rq => Sys2Proof.Machine.execStandbyExit q rq s
  | .standbyExitDone q => Sys2Proof.Machine.execStandbyExitDone q s
  | .d3hotEntry p => Sys2Proof.Machine.execD3hotEntry p s
  | .d0Return p => Sys2Proof.Machine.execD0Return p s
  | .reqAddrWrite p rq v => Sys2Proof.Machine.execReqAddrWrite p rq v s
  | .fwUpdate sig images => Sys2Proof.Machine.execFwUpdate sig images s
  | .raiseFloor sig => Sys2Proof.Machine.execRaiseFloor sig s
  | .ownerKey sig => Sys2Proof.Machine.execOwnerKey sig s
  | .debug sig => Sys2Proof.Machine.execDebug sig s
  | .getVersion p => Sys2Proof.Machine.execGetVersion p s
  | .getCapabilities p => Sys2Proof.Machine.execGetCapabilities p s
  | .negotiateAlgorithms p offered => Sys2Proof.Machine.execNegotiateAlgorithms p offered s
  | .getDigests p => Sys2Proof.Machine.execGetDigests p s
  | .getCertificate p slot off len => Sys2Proof.Machine.execGetCertificate p slot off len s
  | .challenge p slot nonce => Sys2Proof.Machine.execChallenge p slot nonce s
  | .getMeasurements p index signed nonce => Sys2Proof.Machine.execGetMeasurements p index signed nonce s
  | .vectorOpComplete core => Sys2Proof.Machine.execVectorOpComplete core s
  | .flashEraseDone h x b fail => Sys2Proof.Machine.execFlashEraseDone h x b fail s
  | .frameTransmit t eighth => Sys2Proof.Machine.execFrameTransmit t eighth s

end Sys2Proof.Machine
end

