-- ==== Sys2Proof/Machine/Tick.lean ====
section
/-! DEFINITION. One ARITH cycle: what happens at every cycle whatever is commanded (log entry 23). The clocks' rates are
R20's; the counters of cycles are those of R53, R163, R165, R166, R170 and of the stalls. -/

namespace Sys2Proof.Machine

/-- Rising edges of FABRIC, and of FLASH, in ARITH cycle `a` (R21): root cycles 8a to 8a + 7, one edge in five. -/
def fabricEdges (a : Nat) : Nat := (8 * a + 12) / 5 - (8 * a + 4) / 5
def State.bumpIf (s : State) (c : Bool) (blk : Nat) (f : Fld) (n : Nat) : State := if c then s.bump blk f 0 n else s
/-- The hardware threads that hold tasks. -/
def State.liveThreads (s : State) : List (Nat × Thread) := s.threads.filter (fun (e : Nat × Thread) => e.2.st != .free)
/-- Thread time of quarter `q` (R163, R165), and the turn of its clusters (R166). -/
def State.tickSched (s : State) (live : List (Nat × Thread)) (q : Nat) : State :=
  let mine := live.filter (fun e => e.1 / 65536 == q)
  let s := s.bumpIf (mine.any (fun e => e.2.cls == 0)) (blkTSCHED q) F.TSCHED.LAT_USED.COUNT
    (mine.filter (fun e => e.2.cls == 0)).length
  let s := (List.range 8).foldl (fun (s : State) g =>
    let n := (mine.filter (fun e => e.2.cls != 0 && e.2.level == g)).length
    if n = 0 then s else s.setDeficit q g (s.deficit q g - n)) s
  let x := s.sched q
  s.setSched q { x with placed := 0 }
/-- The cluster that a quarter's placements begin at moves on in every ARITH cycle after its release (R166). -/
def State.tickFirst (s : State) (q : Nat) : State :=
  if s.qState q = 0 then s
  else
    let x := s.sched q
    s.setSched q { x with first := (x.first + 1) % 16 }
/-- Threads that miss their instruction park (R50); busy and gated cycles of the cores (R53, R170). -/
def State.tickCores (s : State) (live : List (Nat × Thread)) : State :=
  let s := live.foldl (fun (s : State) e => s.fetchMiss e.1) s
  let s := ((live.map (fun e => e.1 / 64)).eraseDups).foldl (fun (s : State) core =>
    s.bump (blkTSCHED (coreQ core)) F.TSCHED.CORE_BUSY.CYCLES (8 * (core % 1024))) s
  s.cores.foldl (fun (s : State) (e : Nat × Core) =>
    if e.2.gated then s.bump (blkCLUS (coreCl e.1)) F.CLUS.GATED_CYCLES.CYCLES (8 * (e.1 % 64))
    else if s.coreIdle e.1 then s else s.setCore e.1 { e.2 with busyAt := s.clk.arith }) s
/-- Fetch is stopped at port `p` while a running ring has entries (R40). -/
def State.fetchStalls (s : State) (p : Nat) : Bool :=
  s.fetchFull p && (List.range 64).any (fun r => (s.ring p r).state == .running && (s.ring p r).tail != (s.ring p r).head)
/-- The stalls that are counted in FABRIC cycles, `n` of them in this cycle; GC_STALLS in FLASH cycles. -/
def State.tickStalls (s : State) (n : Nat) : State :=
  let s := [0, 1].foldl (fun (s : State) p => s.bumpIf (s.fetchStalls p) (blkJI p) F.JI.FETCH_STALLS.CYCLES n) s
  let s := s.ctxs.foldl (fun (s : State) (e : Nat × Ctx) =>
    let s := s.bumpIf e.2.creditWait (blkSTRM (e.1 / 64)) F.STRM.CREDIT_WAITS.CYCLES n
    s.bumpIf (e.2.st == .active && !e.2.desc.isEmpty && dKind e.2.desc == 4 && e.2.mcHeld == 0) (blkSTRM (e.1 / 64))
      F.STRM.MC_WAITS.CYCLES n) s
  let s := (List.range 16).foldl (fun (s : State) g =>
    let s := s.bumpIf (s.heldSubs.any (fun h => h.1 == .grind g)) (blkGRIND g) F.GRIND.SUBMIT_STALLS.CYCLES n
    s.bumpIf (decide (4096 ≤ (s.defers.filter (fun (d : Defer) => d.g == g)).length)) (blkGRIND g) F.GRIND.DEFER_STALLS.CYCLES n) s
  let s := [0, 1].foldl (fun (s : State) h =>
    let pass := (s.ringPass h).isSome
    let s := s.bumpIf (pass && (s.sendPorts h).any (fun t =>
      (s.tport t).tx.any (fun (b : Nat × WireBlk) => b.1 == 0) && (s.tport t).credit[0] == 0)) (blkPERC h) F.PERC.SEND_STALLS.CYCLES n
    let s := s.bumpIf (s.ringSt h == 2 && decide (s.stageCap h ≤ (s.perc h).staged.length)) (blkPERC h) F.PERC.LAND_STALLS.CYCLES n
    s.bumpIf (s.cmds.any (fun (c : Cmd) => c.unit == .flash h && c.phase == .active && c.op == 2 && !c.open_.isEmpty) &&
      (s.turnTgt h).any (fun x => decide ((s.flash h).freeBlks x ≤ 2))) (blkFM h) F.FM.GC_STALLS.COUNT n) s
  [0, 1, 2, 3].foldl (fun (s : State) q =>
    s.bumpIf (s.misses.any (fun (m : Miss) => m.ready && lineQ m.line == q && !s.canAlloc m.line)) (blkCELLAR q)
      F.CELLAR.EVB_WAITS.COUNT n) s
/-- Since when each cluster has been idle (R400). -/
def State.tickIdle (s : State) : State :=
  let at_ := (List.range 64).foldl (fun (m : Sparse Nat) c =>
    if !s.clusterIdle c then Sparse.put 0 m c 0
    else if Sparse.get 0 m c = 0 then Sparse.put 0 m c (s.clk.arith + 1) else m) s.pow.idleAt
  { s with pow := { s.pow with idleAt := at_ } }
/-- The global time counter ticks, with the increment that a step adds or withholds (R329). -/
def State.tickGtc (s : State) : State :=
  { s with gtc := { s.gtc with count := (((s.gtc.count : Int) + 1 + s.gtc.adj).toNat) % 2 ^ 64, adj := 0 } }
/-- One ARITH cycle. In COLD reset nothing is clocked; with the reference lost MGMT alone runs (R24). -/
def State.tick (s : State) : State :=
  if s.pow.boot = .held then s
  else
    let s := { s with pow := { s.pow with wdN := s.pow.wdN + 1 } }
    if s.clk.mgmtOnly then s
    else
      let s := s.throttleWindow
      let live := s.liveThreads
      let s := if s.alive then
          (([0, 1, 2, 3].foldl (fun (s : State) q => s.tickSched live q) s).tickCores live).tickStalls (fabricEdges s.clk.arith)
        else s
      let s := [0, 1, 2, 3].foldl (fun (s : State) q => s.tickFirst q) s
      let s := if s.alive then ((s.tickGrind).tickInbound 0).tickInbound 1 else s
      let s := ((s.tickSync).tickStreams).tickJobs
      let s := (s.tickIdle).tickGtc
      let s := if s.alive then (List.range 24).foldl State.latWindow s else s
      ({ s with clk := { s.clk with arith := s.clk.arith + 1 } }).tickMode

end Sys2Proof.Machine
end

