-- ==== Sys2Proof/Safety.lean ====
section
/-! DEFINITION. What counts as a safe run, and the words in which statements about the machine are made: who issues, what
an effect leaves as it was. -/

namespace Sys2Proof.Machine

/-- A step is safe when it answers a next state: it neither faults nor is refused. -/
def SafeStep (s : State) : Prop := ∃ s', step s = .next s'

/-- The instruction at `t`'s program counter is `i` (R60), R49 lets `t` issue at `s`, and the predicate that guard field `g` names lets
it execute (R61). -/
abbrev Issues (s : State) (t : Tid) (i : Instr) (g : BitVec 4) : Prop :=
  s.fetches t i = true ∧ s.canIssue t = true ∧ (s.thread t.key).guard g = true

/-- The core of `t` after `t` has issued in this cycle; nothing else of a core changes with an issue. -/
def IssuedCore (s s' : State) (t : Tid) : Prop :=
  s'.core t.core.val = { s.core t.core.val with last := t.th.val, issued := s.clk.arith + 1, busyAt := s.clk.arith, gated := false } ∧
  ∀ c, c ≠ t.core.val → s'.core c = s.core c

/-- Apart from thread `t` and its core, everything is as it was: memory, every register of every block, every other thread,
every unit. -/
def OnlyThread (s s' : State) (t : Tid) : Prop :=
  s' = { s with threads := s'.threads, cores := s'.cores } ∧ (∀ k, k ≠ t.key → s'.thread k = s.thread k) ∧ IssuedCore s s' t

/-- Of thread `t` itself only the registers, predicates, program counter and the time of its last issue may differ. -/
def SameTask (s s' : State) (t : Tid) : Prop :=
  s'.thread t.key = { s.thread t.key with
    x := (s'.thread t.key).x, p := (s'.thread t.key).p, pc := (s'.thread t.key).pc, parkedAt := s.clk.arith }

/-- Instruction of `t` done: rd holds `v` (X0 stays zero, Table 3.1), every other scalar register and every predicate is as it was,
the program counter is at the next instruction. -/
def Wrote (s s' : State) (t : Tid) (rd : BitVec 5) (v : Word) : Prop :=
  (∀ r, (s'.thread t.key).getX r = if r = rd ∧ rd ≠ 0 then v else (s.thread t.key).getX r) ∧
  (∀ p, (s'.thread t.key).getP p = (s.thread t.key).getP p) ∧
  (s'.thread t.key).pc = (s.thread t.key).pc + 4 ∧ SameTask s s' t ∧ OnlyThread s s' t

/-- The same for a predicate destination (P0 stays true). -/
def WroteP (s s' : State) (t : Tid) (pd : BitVec 3) (b : Bool) : Prop :=
  (∀ p, (s'.thread t.key).getP p = if p = pd ∧ pd ≠ 0 then b else (s.thread t.key).getP p) ∧
  (∀ r, (s'.thread t.key).getX r = (s.thread t.key).getX r) ∧
  (s'.thread t.key).pc = (s.thread t.key).pc + 4 ∧ SameTask s s' t ∧ OnlyThread s s' t

/-- A branch of `t`: the program counter is `target`, register `rd` holds the return address, the rest is as it was. -/
def Jumped (s s' : State) (t : Tid) (rd : BitVec 5) (target : Word) : Prop :=
  (s'.thread t.key).pc = target ∧
  (∀ r, (s'.thread t.key).getX r = if r = rd ∧ rd ≠ 0 then (s.thread t.key).pc + 4 else (s.thread t.key).getX r) ∧
  (∀ p, (s'.thread t.key).getP p = (s.thread t.key).getP p) ∧ SameTask s s' t ∧ OnlyThread s s' t

/-- No byte of device memory, no poison mark and no register field differs. -/
def MemSame (s s' : State) : Prop := s'.mem = s.mem ∧ s'.cmem = s.cmem ∧ s'.regs = s.regs

/-- Every byte of memory outside `[a, a + n)` reads as before. -/
def BytesOutside (m m' : Mem) (a n : Nat) : Prop := ∀ b, b < a ∨ a + n ≤ b → m'.byte b = m.byte b

/-- The stacks are plainly readable and writable: the device serves work, every quarter is READY and not in test mode, no cache is on,
no ordered add is held, no codeword is poison or has a bad symbol. -/
abbrev Plain (s : State) : Prop :=
  s.alive = true ∧ (∀ q, q < 4 → s.qState q = 1 ∧ s.testMode q = false ∧ s.cacheOn q = false) ∧ s.oadds = [] ∧ s.clines = [] ∧
  s.mem.poison = [] ∧ s.mem.upset = []

/-- `[a, a + n)` lies in the stack region. -/
abbrev InStacks (a n : Nat) : Prop := a + n ≤ 0x024000000000

/-- The command `c` at the head of unit `u`'s queue can be read, with words `w`; `s1` is the state after the read. -/
abbrev Begins (s : State) (u : EUnit) (c : Cmd) (w : List Nat) (s1 : State) : Prop :=
  s.alive = true ∧ (s.queuedOf u).head? = some c ∧ s.cmd? c.id = some c ∧ c.addr % 64 = 0 ∧ c.addr < 2 ^ 49 ∧ u.readsFrom c.addr = true ∧
  s.spanAdm u.who c.addr 64 false = .go ∧ s1 = s.spanTouch u.who c.addr 64 ∧ s1.readPoison c.addr 64 = false ∧
  w = qwords 8 (s1.viewNat c.addr 64)

/-- A whole message of kind `kind` for this device stands at the head of VC `vc` of port `t`: header `h` with its fields `i`, payload `l`;
`out`: it taken out. -/
abbrev Arrives (s : State) (t vc kind h : Nat) (i : MsgInfo) (l : List WireBlk) (out : State) : Prop :=
  s.alive = true ∧ s.tlTakes t = true ∧ (s.tport t).head vc = some (h, i, l) ∧ hdrKind h = kind ∧
  (hdrDst h = 0xFFFF ∨ hdrDst h ∈ s.numbers) ∧ out = s.takeRx t vc (l.length + 1)

/-- Port `t` has received a control of kind `kind`, the first of them `c`; `s1`: it taken out. -/
abbrev Told (s : State) (t kind : Nat) (c : Ctrl) (s1 : State) : Prop := s.alive = true ∧ s.takeCtl t kind = some (c, s1)

/-- Every memory of the machine is in canonical form: the device's, the held cache lines', the host's, and what a write-back on its way
stands for. -/
def State.memsOk (s : State) : Bool := s.mem.wf && s.cmem.wf && s.host.wf && s.wbacks.all (fun x => x.old.wf)

/-- R8, R420: no kind of change in the Ledger has been made more often than the part's life allows. -/
def LedgerOk (s : State) : Prop := ∀ kind index, 1 ≤ kind → kind ≤ 6 → s.ledgerUsed kind index ≤ ledgerLimit kind

/-- Command `id` has ended on a fault: its record will carry `code`. -/
def Failed (s : State) (id code : Nat) : Prop := ∃ x, s.cmd? id = some x ∧ x.status = code ∧ x.phase = .ending ∧ x.errRef.isSome = true

end Sys2Proof.Machine
end

