-- ==== Sys2Proof/WellFormed.lean ====
section
/-! DEFINITION. Well-formed commands: the limits that the spec sets on what a command carries and that its types do not
say. A command that breaks one describes nothing that can happen to the device. -/

namespace Sys2Proof

/-- A register access, or a store of a core, moves 1 to 64 bytes, a power of two (R5, R57). -/
def accessOk (n : Nat) : Bool := [1, 2, 4, 8, 16, 32, 64].contains n
/-- A mask of the 36 symbols of a codeword (R54). -/
def maskOk (m : Nat) : Bool := decide (m < 2 ^ 36)
/-- A job's port, its ring and its count (R31, R32). -/
def JobId.ok (j : JobId) : Bool := decide (j.port < 2) && decide (j.ring < 64)
/-- The fields of a COLL_DATA header (R334, Table 14.6). -/
def CollHdr.ok (h : CollHdr) : Bool := decide (h.gid < 2 ^ 16) && decide (h.seq < 2 ^ 32) && decide (h.crc < 2 ^ 64)
/-- What a header carries by kind, within the widths of its fields (R263, R275, R334). -/
def MsgInfo.ok (i : MsgInfo) : Bool :=
  match i with
  | .none => true
  | .seg seq op bytes origin _ => decide (seq < 2 ^ 32) && decide (op < 16) && decide (bytes < 2 ^ 40) && decide (origin < 2 ^ 11)
  | .coll hd => hd.ok
  | .coAbort _ gid seq _ => decide (gid < 2 ^ 16) && decide (seq < 2 ^ 32)
  | .kvReq _ block len _ => decide (block < 2 ^ 40) && decide (len < 2 ^ 40)
  | .kvData _ off _ => decide (off < 2 ^ 40)
  | .kvAck status _ => decide (status < 4)
/-- An access to a doorbell page: at most 512 bytes, with its data (R33). -/
def DbAccess.ok {n : Nat} (x : DbAccess n) : Bool := decide (1 ≤ x.size ∧ x.size ≤ 512) && decide (x.v < 2 ^ (8 * x.size))
/-- A payload block: 64 bytes and a poison bit for each codeword (R317); only a header carries fields. -/
def WireBlk.ok (b : WireBlk) : Bool :=
  decide (b.data < 2 ^ 512) && decide (b.poison < 16) && b.info.ok && (b.som || b.info == .none)
/-- A frame (Tables 14.1 and 14.2): positions of its 1,792 bytes, three credits, at most 25 blocks, each on a virtual channel. -/
def WireFrame.ok (f : WireFrame) : Bool :=
  f.errs.all (fun j => decide (j < 1792)) && f.errs.eraseDups.length == f.errs.length && decide (f.fseq < 2 ^ 16) && decide (f.ack < 2 ^ 16) && f.credits.length == 3 &&
    f.credits.all (fun c => decide (c < 2 ^ 16)) && decide (f.ctrl < 256) && decide (f.cdata < 2 ^ 152) &&
    decide (f.blks.length ≤ 25) && f.blks.all (fun e => decide (e.1 < 3) && e.2.ok)

/-- The limits, command by command. -/
def Instr.wf (i : Instr) : Bool :=
  match i with
  | .registerWrite _ _ size v => accessOk size && decide (v.toNat < 2 ^ (8 * size))
  | .ledgerChange _ _ _ _ => true
  | .flitHop _ hdr payload => maskOk hdr && decide (payload.length ≤ 4) && payload.all maskOk
  | .bridgeFailed _ => true
  | .throttleWindow => true
  | .refclkLost => true
  | .pcieLinkTraining _ _ _ => true
  | .pcieLinkDown _ => true
  | .bar4ApertureAccess _ _ _ size v => decide (1 ≤ size ∧ size ≤ 512) && decide (v < 2 ^ (8 * size))
  | .sqTail _ _ x => x.ok
  | .cqHead _ _ x => x.ok
  | .ringBaseWrite _ _ _ _ => true
  | .ringEnable _ _ _ => true
  | .ringDisable _ _ _ => true
  | .ringDrainDone _ _ => true
  | .submissionFetch _ _ => true
  | .submissionBlockReturn _ _ words _ => words.length == 64
  | .seqReread _ _ => true
  | .run j => j.ok
  | .rootLoad j => j.ok
  | .rootsEligible j => j.ok
  | .copyIn j => j.ok
  | .copyOut j => j.ok
  | .fence j => j.ok
  | .jobComplete j => j.ok
  | .coalTimerExpire _ _ => true
  | .hostReadCompletion _ data _ => decide (data < 2 ^ 4096)
  | .hostReadFailure _ => true
  | .release _ _ => true
  | .partDone _ => true
  | .acquire _ _ => true
  | .takeover _ _ => true
  | .heartbeat _ => true
  | .heartbeatTimeout _ => true
  | .linkLossTimeout _ => true
  | .portReset _ _ => true
  | .cancel _ size v => (size == 4 || size == 8) && decide (v.toNat < 2 ^ (8 * size))
  | .add _ _ _ _ _ => true
  | .sub _ _ _ _ _ => true
  | .and _ _ _ _ _ => true
  | .or _ _ _ _ _ => true
  | .xor _ _ _ _ _ => true
  | .shl _ _ _ _ _ => true
  | .shr _ _ _ _ _ => true
  | .sra _ _ _ _ _ => true
  | .mul _ _ _ _ _ => true
  | .mulhs _ _ _ _ _ => true
  | .mulhu _ _ _ _ _ => true
  | .min _ _ _ _ _ => true
  | .max _ _ _ _ _ => true
  | .minu _ _ _ _ _ => true
  | .maxu _ _ _ _ _ => true
  | .sel _ _ _ _ _ => true
  | .addi _ _ _ _ _ => true
  | .andi _ _ _ _ _ => true
  | .ori _ _ _ _ _ => true
  | .xori _ _ _ _ _ => true
  | .shli _ _ _ _ _ => true
  | .shri _ _ _ _ _ => true
  | .srai _ _ _ _ _ => true
  | .movw _ _ _ _ _ => true
  | .cmpEq _ _ _ _ _ => true
  | .cmpNe _ _ _ _ _ => true
  | .cmpLt _ _ _ _ _ => true
  | .cmpLtu _ _ _ _ _ => true
  | .cmpGe _ _ _ _ _ => true
  | .cmpGeu _ _ _ _ _ => true
  | .plogAnd _ _ _ _ _ => true
  | .plogOr _ _ _ _ _ => true
  | .plogXor _ _ _ _ _ => true
  | .plogAndn _ _ _ _ _ => true
  | .br _ _ _ => true
  | .call _ _ _ => true
  | .jr _ _ _ _ => true
  | .rdsys _ _ _ _ => true
  | .yield _ _ => true
  | .yieldExpire _ => true
  | .taskEnd _ _ => true
  | .taskEndReport _ => true
  | .nop _ _ => true
  | .ld _ _ _ _ _ _ _ => true
  | .st _ _ _ _ _ _ => true
  | .amoFadd32 _ _ _ _ _ => true
  | .amoFmin32 _ _ _ _ _ => true
  | .amoFmax32 _ _ _ _ _ => true
  | .amoOr32 _ _ _ _ _ => true
  | .amoOr64 _ _ _ _ _ => true
  | .illegalInstr _ w => Machine.classify w != .legal
  | .threadFreeAfterAbort _ => true
  | .icacheFill _ => true
  | .loadReturn _ => true
  | .amoReturn _ => true
  | .taskStart _ => true
  | .coreGate _ => true
  | .icacheInv _ => true
  | .tmma _ _ _ _ _ _ => true
  | .tsmma _ _ _ _ _ _ => true
  | .tdrain _ _ _ _ _ => true
  | .arrayQueueHead _ _ ce _ => decide (ce < 2 ^ 36)
  | .segmentBoundary _ _ => true
  | .shadowMove _ _ => true
  | .drainComplete _ _ => true
  | .vfma _ _ _ _ _ _ => true
  | .vexp _ _ _ _ => true
  | .vrcp _ _ _ _ => true
  | .vrsq _ _ _ _ => true
  | .vmax _ _ _ _ _ => true
  | .vsum _ _ _ _ => true
  | .vsoft _ _ _ _ _ _ => true
  | .arraySteal _ _ => true
  | .clear _ _ => true
  | .clearAll _ => true
  | .compressCsr _ _ => true
  | .compressK8 _ _ => true
  | .fixMask _ _ => true
  | .audit _ _ => true
  | .transpose _ _ => true
  | .strmGo _ _ _ _ _ => true
  | .strmWait _ _ _ _ => true
  | .descriptorBlockRead _ _ => true
  | .linear _ _ => true
  | .strided _ _ => true
  | .indexed _ _ => true
  | .bitmap _ _ => true
  | .multicast _ _ => true
  | .relay _ _ => true
  | .streamRequestSlot _ => true
  | .streamReadReturn _ _ _ => true
  | .creditWaitGranted _ _ => true
  | .segmentWritten _ _ _ => true
  | .mcStoreEntry _ _ => true
  | .relayHop _ _ _ _ => true
  | .relayHopDone _ _ _ _ => true
  | .engineSignalAnswer _ _ => true
  | .descriptorComplete _ _ => true
  | .contextFree _ _ => true
  | .taskSpawn _ _ _ _ => true
  | .spawnRecordReturn _ => true
  | .spawnAccept _ => true
  | .spawnHandleArrival _ => true
  | .taskFlag _ _ _ _ => true
  | .flagArrival _ => true
  | .taskPlacement _ => true
  | .latWindowReset => true
  | .syncSig _ _ _ _ => true
  | .syncWait _ _ _ _ _ => true
  | .syncBar _ _ _ _ => true
  | .syncOperation _ => true
  | .barrierChainedCompletion _ _ => true
  | .grantingPass _ _ => true
  | .wakeArrival _ => true
  | .objWrite _ _ _ _ => true
  | .modeNextWrite _ _ => true
  | .commit _ => true
  | .modeAbort _ => true
  | .modeAck _ => true
  | .watchdogCheck _ => true
  | .cuppingDumpDone _ => true
  | .resume _ => true
  | .dumpBaseWrite _ _ _ => true
  | .grindSubmit _ => true
  | .grindQueueRoom _ => true
  | .lookup _ => true
  | .bagBegin _ => true
  | .entryReadReturn _ _ => true
  | .rowReadReturn _ _ _ => true
  | .deferredRowArrival _ _ _ => true
  | .bagResume _ _ => true
  | .update _ => true
  | .updateRow _ => true
  | .migrate _ => true
  | .replace _ => true
  | .moveRecordBegin _ _ => true
  | .rowSwap _ _ => true
  | .snapshot _ => true
  | .horizonPublish => true
  | .grindComplete _ => true
  | .apply _ _ => true
  | .applyAll _ => true
  | .skCtlWrite _ _ _ _ => true
  | .homeAccess _ => true
  | .amoAtHome _ => true
  | .submit _ => true
  | .circulate _ => true
  | .accum _ => true
  | .kvGet _ => true
  | .kvPut _ => true
  | .percRingEnable _ _ => true
  | .percRingDisable _ => true
  | .ringHello _ _ ringId n pos cnt => decide (ringId < 2 ^ 16) && decide (n < 2 ^ 16) && decide (pos < 2 ^ 16) && decide (cnt ≤ 9)
  | .ringHelloAck _ _ => true
  | .ringSeg _ seq op bytes origin seg => (MsgInfo.seg seq op bytes origin seg).ok
  | .blockLanded _ => true
  | .passComplete _ => true
  | .ringStall _ => true
  | .abort _ => true
  | .kvReq _ put block len tag _ => (MsgInfo.kvReq put block len tag).ok
  | .kvData _ put off tag => (MsgInfo.kvData put off tag).ok
  | .kvAck _ status => (MsgInfo.kvAck status 0).ok
  | .kvCtlWrite _ _ _ => true
  | .bankOwnWrite _ _ _ _ => true
  | .bankTransitionDone _ _ => true
  | .cacheEnable _ => true
  | .cacheDisable _ => true
  | .cacheDisableDone _ => true
  | .cacheMissFill _ => true
  | .writebackAck _ line => decide (line < 2 ^ 42)
  | .invalidate _ _ => true
  | .clean _ _ => true
  | .flush _ _ => true
  | .rangeDone _ => true
  | .marchTest _ _ _ => true
  | .marchDone _ _ _ => true
  | .stackCommandIssue _ _ _ => true
  | .stackReadData _ _ _ => true
  | .caParityError _ _ => true
  | .refreshDue _ _ _ _ => true
  | .stackTempReading _ _ => true
  | .latShareWindow _ => true
  | .scrubRead _ => true
  | .laneFailing _ _ _ _ => true
  | .retrain _ _ => true
  | .retrainDone _ _ _ bad => decide (bad.length ≤ 74)
  | .testModeWrite _ _ => true
  | .trafficGenGo _ _ => true
  | .trafficGenDone _ _ _ _ => true
  | .talienEnable _ => true
  | .talienDisable _ => true
  | .talienTrainingDone _ _ _ => true
  | .trainingRetry _ => true
  | .hello _ => true
  | .helloAck _ => true
  | .frameReceived _ f _ => f.ok
  | .replayTimeout _ => true
  | .recoveryEntry _ => true
  | .recoveryDone _ _ => true
  | .laneLockLost _ _ => true
  | .laneWindow _ => true
  | .repairReq _ => true
  | .repairAck _ => true
  | .gtcSyncSend => true
  | .gtcSync _ => true
  | .delayReq _ => true
  | .delayResp _ => true
  | .gtcSlew => true
  | .holdover => true
  | .gtcCtlWrite _ => true
  | .launchRelease _ => true
  | .collData _ hd => hd.ok
  | .collReady _ chan seq _ _ => decide (chan < 2 ^ 16) && decide (seq < 2 ^ 32)
  | .coAbort _ op gid seq mism => (MsgInfo.coAbort op gid seq mism).ok
  | .collSubmit _ => true
  | .reduceScatter _ => true
  | .allgather _ => true
  | .allreduce _ => true
  | .send _ => true
  | .recv _ => true
  | .collComplete _ => true
  | .coStall _ => true
  | .reshard _ _ => true
  | .announce _ _ => true
  | .aliasClaim _ => true
  | .routeDataWrite _ _ => true
  | .roleWrite _ _ => true
  | .flashSubmit _ => true
  | .read _ => true
  | .write _ => true
  | .trim _ => true
  | .flashPageReadDone _ _ _ res => res.length == 16
  | .flashPageCommit _ _ _ _ => true
  | .flashCmdComplete _ => true
  | .gcCollect _ _ => true
  | .staticWearLevel _ _ => true
  | .retentionScrub _ _ => true
  | .targetFailed _ _ => true
  | .format _ _ marked => marked.eraseDups.length == marked.length
  | .flashMapRebuilt _ present ok _ _ => (~~~ok ||| present) == BitVec.allOnes 32
  | .errorReport _ => true
  | .sensorReading _ _ _ => true
  | .railOutOfTolerance _ _ => true
  | .pwrGoodLow => true
  | .coldRstNLow => true
  | .coldResetRelease _ => true
  | .ledgerRead => true
  | .firmwareVerified => true
  | .stacksTrained failed _ => failed.eraseDups.length == failed.length
  | .quartersReady => true
  | .profileApplied _ _ _ _ => true
  | .configReady => true
  | .warmRstN => true
  | .cold _ => true
  | .warm _ => true
  | .mgmt _ => true
  | .smbusMgmtReset => true
  | .mgmtWdExpire => true
  | .kick _ => true
  | .qreset _ _ => true
  | .quarterResetProceed _ => true
  | .clusterReset _ _ _ => true
  | .clusterResetProceed _ => true
  | .throttleUpdate _ => true
  | .pwrAlertNLow => true
  | .pwrAlertNHigh => true
  | .clusterPowerOff _ => true
  | .clusterPowerOn _ => true
  | .standbyEnter _ _ => true
  | .standbyEntryDone _ => true
  | .standbyExit _ _ => true
  | .standbyExitDone _ => true
  | .d3hotEntry _ => true
  | .d0Return _ => true
  | .reqAddrWrite _ _ _ => true
  | .fwUpdate _ _ => true
  | .raiseFloor _ => true
  | .ownerKey _ => true
  | .debug _ => true
  | .getVersion _ => true
  | .getCapabilities _ => true
  | .negotiateAlgorithms _ _ => true
  | .getDigests _ => true
  | .getCertificate _ _ _ _ => true
  | .challenge _ _ _ => true
  | .getMeasurements _ _ _ _ => true
  | .vectorOpComplete _ => true
  | .flashEraseDone _ _ _ _ => true
  | .frameTransmit _ _ => true

end Sys2Proof
end

