-- ==== Sys2Proof/Certificates/Slice0/Obligations.lean ====
section
/-! DEFINITION. The statements for the provers, by family of commands. Each docstring names the rules it rests on. -/

open Sys2Proof Sys2Proof.Machine

/-! ### Threads: scalar operations (chapter 3) -/

/-- R64, Table 3.6: the two-register operations write their result to rd, wrapping without a flag, shift amounts taken from the
low 6 bits of rs2; SEL chooses by the predicate of its guard field and always executes (R61). The frame is that of `Wrote`.
R64, Table 3.6: the immediate operations; ORI alone extends its immediate with zeros; MOVW, which has no guard, puts its
immediate into one halfword of rd and keeps or clears the other three. -/
def Obligations.ScalarResults : Prop :=
  (∀ (t : Tid) (g : BitVec 4) (rd rs1 rs2 : BitVec 5) (s : State),
     let a := (s.thread t.key).getX rs1
     let b := (s.thread t.key).getX rs2
     (∀ e ∈ ([
       (.add t g rd rs1 rs2, a + b), (.sub t g rd rs1 rs2, a - b), (.and t g rd rs1 rs2, a &&& b),
       (.or t g rd rs1 rs2, a ||| b), (.xor t g rd rs1 rs2, a ^^^ b),
       (.shl t g rd rs1 rs2, a <<< (b.toNat % 64)), (.shr t g rd rs1 rs2, a >>> (b.toNat % 64)),
       (.sra t g rd rs1 rs2, a.sshiftRight (b.toNat % 64)), (.mul t g rd rs1 rs2, a * b),
       (.mulhs t g rd rs1 rs2, BitVec.ofInt 64 (a.toInt * b.toInt / 2 ^ 64)),
       (.mulhu t g rd rs1 rs2, BitVec.ofNat 64 (a.toNat * b.toNat / 2 ^ 64)),
       (.min t g rd rs1 rs2, if a.toInt < b.toInt then a else b), (.max t g rd rs1 rs2, if a.toInt < b.toInt then b else a),
       (.minu t g rd rs1 rs2, if a.toNat < b.toNat then a else b), (.maxu t g rd rs1 rs2, if a.toNat < b.toNat then b else a)] :
         List (Instr × Word)),
       Issues s t e.1 g → ∃ s', exec e.1 s = .next s' ∧ Wrote s s' t rd e.2) ∧
     (Issues s t (.sel t g rd rs1 rs2) 0 → ∃ s', exec (.sel t g rd rs1 rs2) s = .next s' ∧
       Wrote s s' t rd (if (s.thread t.key).guard g then a else b))) ∧
  (∀ (t : Tid) (g : BitVec 4) (rd rs1 : BitVec 5) (i : BitVec 12) (n : BitVec 6) (s : State),
     let a := (s.thread t.key).getX rs1
     (∀ e ∈ ([
       (.addi t g rd rs1 i, a + i.signExtend 64), (.andi t g rd rs1 i, a &&& i.signExtend 64),
       (.ori t g rd rs1 i, a ||| i.zeroExtend 64), (.xori t g rd rs1 i, a ^^^ i.signExtend 64),
       (.shli t g rd rs1 n, a <<< n.toNat), (.shri t g rd rs1 n, a >>> n.toNat), (.srai t g rd rs1 n, a.sshiftRight n.toNat)] :
         List (Instr × Word)),
       Issues s t e.1 g → ∃ s', exec e.1 s = .next s' ∧ Wrote s s' t rd e.2) ∧
     (∀ (hw : BitVec 2) (keep : Bool) (imm : BitVec 16), Issues s t (.movw t rd hw keep imm) 0 →
       ∃ s' v, exec (.movw t rd hw keep imm) s = .next s' ∧ Wrote s s' t rd v ∧
         ∀ j : Fin 4, v.extractLsb' (16 * j.val) 16 =
           if j.val = hw.toNat then imm else if keep then ((s.thread t.key).getX rd).extractLsb' (16 * j.val) 16 else 0))

/-- R64, Table 3.6: the comparisons, signed and unsigned, and the predicate operations write one predicate and nothing else.
R64, R65: branches, calls and jumps of `t` to an aligned target, NOP, RDSYS (Table 3.7), YIELD for 16 ARITH cycles and its end. The
displacement of BR and CALL counts instructions, in two's complement (log entry 10: the model's reading).
R61: an instruction whose guard is false is a no-op of one issue cycle, whatever its operands; R49: a thread that may not
issue in this cycle is left alone. -/
def Obligations.PredicatesAndControl : Prop :=
  (∀ (t : Tid) (g : BitVec 4) (pd ps1 ps2 : BitVec 3) (rs1 rs2 : BitVec 5) (s : State),
     let a := (s.thread t.key).getX rs1
     let b := (s.thread t.key).getX rs2
     let p := (s.thread t.key).getP ps1
     let q := (s.thread t.key).getP ps2
     ∀ e ∈ ([
       (.cmpEq t g pd rs1 rs2, decide (a = b)), (.cmpNe t g pd rs1 rs2, decide (a ≠ b)),
       (.cmpLt t g pd rs1 rs2, decide (a.toInt < b.toInt)), (.cmpGe t g pd rs1 rs2, decide (b.toInt ≤ a.toInt)),
       (.cmpLtu t g pd rs1 rs2, decide (a.toNat < b.toNat)), (.cmpGeu t g pd rs1 rs2, decide (b.toNat ≤ a.toNat)),
       (.plogAnd t g pd ps1 ps2, p && q), (.plogOr t g pd ps1 ps2, p || q), (.plogXor t g pd ps1 ps2, Bool.xor p q),
       (.plogAndn t g pd ps1 ps2, p && !q)] : List (Instr × Bool)),
       Issues s t e.1 g → ∃ s', exec e.1 s = .next s' ∧ WroteP s s' t pd e.2) ∧
  (∀ (t : Tid) (g : BitVec 4) (rd rs1 : BitVec 5) (d : BitVec 22) (s : State),
     let th := s.thread t.key
     (
       (Issues s t (.br t g d) g → ∃ s', exec (.br t g d) s = .next s' ∧ Jumped s s' t 0 (th.pc + BitVec.ofInt 64 (4 * d.toInt))) ∧
       (Issues s t (.call t g d) g → ∃ s', exec (.call t g d) s = .next s' ∧ Jumped s s' t 31 (th.pc + BitVec.ofInt 64 (4 * d.toInt))) ∧
       ((th.getX rs1).toNat % 4 = 0 → Issues s t (.jr t g rd rs1) g → ∃ s', exec (.jr t g rd rs1) s = .next s' ∧ Jumped s s' t rd (th.getX rs1)) ∧
       (Issues s t (.nop t g) g → ∃ s', exec (.nop t g) s = .next s' ∧ Jumped s s' t 0 (th.pc + 4)) ∧
       (∀ e ∈ ([(0, s.gtc.count), (1, t.core.val * 64 + t.th.val), (2, th.recAddr), (3, th.epoch), (4, s.clk.arith - th.started)] :
           List (Fin 5 × Nat)),
         Issues s t (.rdsys t g rd e.1) g → ∃ s', exec (.rdsys t g rd e.1) s = .next s' ∧ Wrote s s' t rd (BitVec.ofNat 64 e.2)) ∧
       (Issues s t (.yield t g) g → ∃ s', exec (.yield t g) s = .next s' ∧ OnlyThread s s' t ∧
         s'.thread t.key = { th with st := .stalled (s.clk.arith + 16), pc := th.pc + 4, parkedAt := s.clk.arith })) ∧
     (∀ u, th.st = .stalled u → u ≤ s.clk.arith → ∃ s', exec (.yieldExpire t) s = .next s' ∧
       s'.thread t.key = { th with st := .ready, parkedAt := s.clk.arith } ∧ (∀ k, k ≠ t.key → s'.thread k = s.thread k) ∧
       s' = { s with threads := s'.threads, cores := s'.cores })) ∧
  (∀ (t : Tid) (g : BitVec 4) (r1 r2 r3 r4 : BitVec 5) (p1 p2 p3 : BitVec 3) (i9 : BitVec 9) (i12 : BitVec 12) (d : BitVec 22)
     (sz : BitVec 2) (sx : Bool) (sel : Fin 5) (a : Fin 4) (s : State),
     ∀ c ∈ ([.add t g r1 r2 r3, .mulhs t g r1 r2 r3, .sra t g r1 r2 r3, .addi t g r1 r2 i12, .cmpLt t g p1 r2 r3, .plogXor t g p1 p2 p3,
       .br t g d, .call t g d, .jr t g r1 r2, .rdsys t g r1 sel, .yield t g, .nop t g, .taskEnd t g, .ld t g r1 r2 sz sx i9,
       .st t g r1 r2 sz i9, .amoFadd32 t g r1 r2 r3, .amoOr64 t g r1 r2 r3, .tmma t g r1 r2 a sx, .tsmma t g r1 r2 a sx,
       .tdrain t g r1 r2 a, .vfma t g r1 r2 r3 r4, .vsoft t g r1 r2 r3 r4, .strmGo t g r1 r2 r3, .strmWait t g r1 r2,
       .taskSpawn t g r1 r2, .taskFlag t g r1 r2, .syncSig t g r1 r2, .syncWait t g r1 r2 r3, .syncBar t g r1 r2] : List Instr),
       (s.fetches t c = true → s.canIssue t = true → (s.thread t.key).guard g = false →
         ∃ s', exec c s = .next s' ∧ Jumped s s' t 0 ((s.thread t.key).pc + 4)) ∧
       (s.canIssue t = false → (s.thread t.key).st ≠ .held → exec c s = .next s))

/-! ### Threads: memory, atomics, tasks (chapter 3) -/

/-- R57, R58, R64: a load or store of bytes of the core's own scratch that nothing of the thread holds back (R73), and that no
held ordered add meets (R248), completes in its issue. A load leaves all of memory as it was and writes rd alone; a store writes the
bytes [a, a + n), a being rb + imm9 × n as the meaning computes it, and no other byte, and no register.
R15, R50, R57: an access outside the core's own scratch goes out in one request, or in two when it crosses a 64 B block, at the byte
address rb + imm9 × n; its class is MGMT for a register and LAT
else; a load parks its thread, a store does not; no byte of memory and no register field changes. -/
def Obligations.LoadsAndStores : Prop :=
  (∀ (t : Tid) (g : BitVec 4) (rd rb : BitVec 5) (sz : BitVec 2) (sx : Bool) (imm : BitVec 9) (s : State),
     let k := t.key
     let n := 2 ^ sz.toNat
     let a := (memAddr ((s.thread k).getX rb) imm sz).toNat
     region a = .scratch t.core.val → passesScratch a n = false →
     (∀ x ∈ s.oadds, x.addr + 4 ≤ a / 16 * 16 ∨ (a + n + 15) / 16 * 16 ≤ x.addr) →
     (Issues s t (.ld t g rd rb sz sx imm) g → s.heldScratch k (a % 0x40000) n false = false → s.heldFabric k a n false = false → s.mem.poisoned a n = false →
       ∃ s', exec (.ld t g rd rb sz sx imm) s = .next s' ∧ s'.mem = s.mem ∧
         (∀ r, (s'.thread k).getX r = if r = rd ∧ rd ≠ 0 then
           (if sx then BitVec.ofInt 64 (sextInt (8 * n) (s.mem.readNat a n)) else BitVec.ofNat 64 (s.mem.readNat a n))
           else (s.thread k).getX r) ∧
         (∀ p, (s'.thread k).getP p = (s.thread k).getP p) ∧
         (s'.thread k).pc = (s.thread k).pc + 4 ∧ SameTask s s' t ∧ (∀ j, j ≠ k → s'.thread j = s.thread j) ∧ IssuedCore s s' t ∧
         s' = { s with threads := s'.threads, cores := s'.cores, regs := s'.regs, err := s'.err }) ∧
     (Issues s t (.st t g rd rb sz imm) g → s.heldScratch k (a % 0x40000) n true = false → s.heldFabric k a n true = false →
       ∃ s', exec (.st t g rd rb sz imm) s = .next s' ∧ s'.mem.readNat a n = ((s.thread k).getX rd).toNat % 2 ^ (8 * n) ∧
         BytesOutside s.mem s'.mem a n ∧ (s'.thread k) = { s.thread k with pc := (s.thread k).pc + 4, parkedAt := s.clk.arith } ∧
         (∀ j, j ≠ k → s'.thread j = s.thread j) ∧ IssuedCore s s' t ∧
         s' = { s with threads := s'.threads, cores := s'.cores, regs := s'.regs, err := s'.err, mem := s'.mem })) ∧
  (∀ (t : Tid) (g : BitVec 4) (rd rb : BitVec 5) (sz : BitVec 2) (sx : Bool) (imm : BitVec 9) (s : State),
     let k := t.key
     let n := 2 ^ sz.toNat
     let a := (memAddr ((s.thread k).getX rb) imm sz).toNat
     let v := ((s.thread k).getX rd).toNat
     let n1 := 64 - a % 64
     let out (s' : State) (l : List Req) := s'.fabric.reqs = s.fabric.reqs ++ l ∧ s'.fabric.flits = s.fabric.flits ++ (l.map (fun r =>
         (⟨r.id, r.cls, threadIface k, homeNode r.addr, (threadIface k).node, route (threadIface k).node (homeNode r.addr), false⟩ :
           Flit))).filter (fun x => !x.hops.isEmpty) ∧
       ∀ r ∈ l, r.who = .thread k ∧ r.job = (s.thread k).job ∧ r.answer = none ∧ r.bad = 0 ∧ r.cls = threadCls r.addr
     passesScratch a n = false → unlisted a = false → rejectedAt a n false = none → region a ≠ .scratch t.core.val →
     (Issues s t (.ld t g rd rb sz sx imm) g → s.heldFabric k a n false = false → ∃ s' l, exec (.ld t g rd rb sz sx imm) s = .next s' ∧ out s' l ∧
       l.map (fun r => (r.op, r.addr, r.size, r.off)) =
         (if splits a n then [(ReqOp.ld, a, n1, 0), (ReqOp.ld, a + n1, n - n1, n1)] else [(ReqOp.ld, a, n, 0)]) ∧
       s'.thread k = { s.thread k with st := .parked (.load rd.toNat sx n), pc := (s.thread k).pc + 4, parkedAt := s.clk.arith } ∧
       (∀ j, j ≠ k → s'.thread j = s.thread j) ∧ IssuedCore s s' t ∧
       s' = { s with threads := s'.threads, cores := s'.cores, fabric := s'.fabric }) ∧
     (Issues s t (.st t g rd rb sz imm) g → s.heldFabric k a n true = false → (grindQ a).any (fun q => !bit (s.qmaskOf (s.thread k).job) q) = false →
       ((submitUnit a).isSome && n == 8 && s.unacked k) = false → ∃ s' l, exec (.st t g rd rb sz imm) s = .next s' ∧ out s' l ∧
       l.map (fun r => (r.op, r.addr, r.size, r.data)) =
         (if splits a n then [(ReqOp.st, a, n1, v % 2 ^ (8 * n) % 2 ^ (8 * n1)), (ReqOp.st, a + n1, n - n1, v % 2 ^ (8 * n) / 2 ^ (8 * n1))]
          else [(ReqOp.st, a, n, v % 2 ^ (8 * n))]) ∧
       s'.thread k = { s.thread k with pc := (s.thread k).pc + 4, parkedAt := s.clk.arith } ∧
       (∀ j, j ≠ k → s'.thread j = s.thread j) ∧ IssuedCore s s' t ∧
       s' = { s with threads := s'.threads, cores := s'.cores, fabric := s'.fabric }))

/-- R50, R66: an atomic goes to its operand's home with the low bytes of rs2; with a destination other than X0 the thread parks
until the old value returns.
R50, R57, R66: once every answer of a parked load or atomic has come and none is a refusal or poison, the register holds the value,
cut and extended as the instruction says, and the thread is READY; nothing else of the thread, and no other thread, changes. -/
def Obligations.AtomicsAndAnswers : Prop :=
  (∀ (t : Tid) (g : BitVec 4) (rd rs1 rs2 : BitVec 5) (s : State),
     let k := t.key
     let a := ((s.thread k).getX rs1).toNat
     let v := ((s.thread k).getX rs2).toNat
     ∀ e ∈ ([(.amoFadd32 t g rd rs1 rs2, 0, 4), (.amoFmin32 t g rd rs1 rs2, 1, 4), (.amoFmax32 t g rd rs1 rs2, 2, 4),
         (.amoOr32 t g rd rs1 rs2, 3, 4), (.amoOr64 t g rd rs1 rs2, 4, 8)] : List (Instr × Nat × Nat)),
       Issues s t e.1 g → a % e.2.2 = 0 → (e.2.1 = 0 → modeDet (s.thread k).mode = true → rd = 0) → rejectedAt a e.2.2 true = none →
       (region a = .scratch t.core.val → s.heldScratch k (a % 0x40000) e.2.2 true = false) → s.heldFabric k a e.2.2 true = false →
       ∃ s' r, exec e.1 s = .next s' ∧ s'.fabric.reqs = s.fabric.reqs ++ [r] ∧ r.op = .amo e.2.1 ∧ r.addr = a ∧ r.size = e.2.2 ∧
         r.data = v % 2 ^ (8 * e.2.2) ∧ r.rd = rd.toNat ∧ r.who = .thread k ∧ r.answer = none ∧
         s'.thread k = { s.thread k with
           st := if rd = 0 then (s.thread k).st else .parked (.amo rd.toNat), pc := (s.thread k).pc + 4, parkedAt := s.clk.arith } ∧
         (∀ j, j ≠ k → s'.thread j = s.thread j) ∧ IssuedCore s s' t ∧
         s' = { s with threads := s'.threads, cores := s'.cores, fabric := s'.fabric }) ∧
  (∀ (t : Tid) (s : State) (rd n v : Nat) (sx : Bool), rd < 32 →
     let k := t.key
     let other (s' : State) := (∀ p, (s'.thread k).getP p = (s.thread k).getP p) ∧ (s'.thread k).pc = (s.thread k).pc ∧
       (s'.thread k).st = .ready ∧ (∀ j, j ≠ k → s'.thread j = s.thread j) ∧
       s' = { s with threads := s'.threads, cores := s'.cores, fabric := s'.fabric }
     ((s.thread k).st = .parked (.load rd sx n) →
       (∀ r ∈ s.reqsOf k Req.isLd, s.answered r = true) → gather (s.reqsOf k Req.isLd) = .value v →
       ∃ s', exec (.loadReturn t) s = .next s' ∧ other s' ∧ s'.reqsOf k Req.isLd = [] ∧
         ∀ r, (s'.thread k).getX r = if r.toNat = rd ∧ rd ≠ 0 then loadExt n v sx else (s.thread k).getX r) ∧
     ((s.thread k).st = .parked (.amo rd) →
       (∀ r ∈ s.reqsOf k (fun r => r.isAmo && r.rd != 0), s.answered r = true) →
       gather (s.reqsOf k (fun r => r.isAmo && r.rd != 0)) = .value v →
       ∃ s', exec (.amoReturn t) s = .next s' ∧ other s' ∧
         ∀ r, (s'.thread k).getX r = if r.toNat = rd ∧ rd ≠ 0 then BitVec.ofNat 64 v else (s.thread k).getX r))

/-- R51, R62: TASK.END stops the thread's issue; when its work has taken effect the thread becomes FREE, its end counted and its
successor flagged (R160); an illegal word whose guard does not turn it off aborts the task; an aborted thread whose requests have
all been answered becomes FREE. -/
def Obligations.TaskEnds : Prop :=
  ∀ (t : Tid) (g : BitVec 4) (w : BitVec 32) (s : State),
    let k := t.key
    (Issues s t (.taskEnd t g) g → ∃ s', exec (.taskEnd t g) s = .next s' ∧ OnlyThread s s' t ∧
      s'.thread k = { s.thread k with st := .ending, parkedAt := s.clk.arith }) ∧
    ((s.thread k).st = .ending → s.drained k = true → ∃ s', exec (.taskEndReport t) s = .next s' ∧
      s'.thread k = Thread.init ∧ s'.mem = s.mem ∧ s'.fabric.reqs = s.fabric.reqs ∧
      s'.flagMsgs = s.flagMsgs ++ (if (s.thread k).succH = 0 then [] else
        [⟨s.fabric.nextId, none, (s.thread k).job, (s.thread k).succH, (s.thread k).succF⟩])) ∧
    ((s.thread k).st = .stopped → (∀ r ∈ s.reqsOf k (fun _ => true), s.answered r = true) →
      ∃ s', exec (.threadFreeAfterAbort t) s = .next s' ∧ s'.thread k = Thread.init ∧ s'.reqsOf k (fun _ => true) = [] ∧
        (∀ j, j ≠ k → s'.thread j = s.thread j) ∧ s' = { s with threads := s'.threads, fabric := s'.fabric }) ∧
    ((∀ g', classify w = .illegal (some g') → (s.thread k).guard g' = true) → classify w ≠ .legal → s.instrWord k = w → s.canIssue t = true →
      ∃ s', exec (.illegalInstr t w) s = .next s' ∧ s' = (s.markIssue t).coreFaultAt k 0x01 (s.thread k).pc.toNat (s.thread k).pc.toNat ∧
        (s'.thread k).st = .stopped)

/-- R48, R52: the task in RUN starts on the core's lowest FREE thread: its registers are those of R48 and no other, its entry is
free again with the next generation (R155), and NEXT has moved into RUN. -/
def Obligations.TaskStarts : Prop :=
  ∀ (core : Fin 4096) (e i : Nat) (s : State), s.alive = true → (s.core core.val).run = some e → s.freeThread core.val = some i →
    let k := core.val * 64 + i
    let r := (s.entry e).trec
    ∃ s', exec (.taskStart core) s = .next s' ∧
      (s'.thread k).st = .ready ∧ (s'.thread k).pc = BitVec.ofNat 64 r.entry ∧
      (s'.thread k).getX 1 = BitVec.ofNat 64 (s.entry e).addr ∧
      (∀ j, s.job? (s.entry e).job = some j → (s'.thread k).getX 2 = BitVec.ofNat 64 j.arg) ∧
      (s'.thread k).getX 3 = BitVec.ofNat 64 r.argw ∧ (∀ x, x ≠ 1 → x ≠ 2 → x ≠ 3 → (s'.thread k).getX x = 0) ∧
      (∀ p, (s'.thread k).getP p = decide (p = 0)) ∧ (s'.thread k).job = (s.entry e).job ∧
      s'.entry e = (s.entry e).freed ∧ (s'.core core.val).run = (s.core core.val).next ∧ (s'.core core.val).next = none ∧
      (∀ j, j ≠ k → s'.thread j = s.thread j) ∧ s'.mem = s.mem

/-- R50, R53, R63, R76: an idle core gates after 8 ARITH cycles; once both halves of its line have come, none refused or poison, the line
stands in the core's cache and the parked thread is READY; ICACHE_INV empties the caches of one cluster, and lines that are on their way
will be invalid. -/
def Obligations.CoreCaches : Prop :=
  ∀ (s : State),
    (∀ core : Fin 4096, s.fbit (blkCLUS (coreCl core.val)) F.CLUS.CLUS_CTL.GATE_ENABLE = true → s.coreIdle core.val = true →
      (s.core core.val).busyAt + 8 < s.clk.arith → ∃ s', exec (.coreGate core) s = .next s' ∧ (s'.core core.val).gated = true ∧
      s' = { s with cores := s'.cores } ∧ ∀ c, c ≠ core.val → s'.core c = s.core c) ∧
    (∀ (t : Tid) (v : Nat), (s.thread t.key).st = .parked .fetch → (∀ r ∈ s.reqsOf t.key Req.isFetch, s.answered r = true) →
      gatherLine (s.reqsOf t.key Req.isFetch) = some (v, 0) → t.key ∉ (s.core t.core.val).stale →
      ∃ s', exec (.icacheFill t) s = .next s' ∧ (s'.core t.core.val).fetched (s.thread t.key).pc.toNat = true ∧
        s'.thread t.key = { s.thread t.key with st := .ready, parkedAt := s.clk.arith } ∧ s'.reqsOf t.key Req.isFetch = [] ∧
        (∀ k, k ≠ t.key → s'.thread k = s.thread k) ∧ s'.mem = s.mem ∧ s'.regs = s.regs) ∧
    (∀ cl : Fin 64, s.blockGone (blkCLUS cl.val) = false → ∃ s', exec (.icacheInv cl) s = .next s' ∧
      s' = { s with cores := s'.cores } ∧
      (∀ c, coreCl c = cl.val → s'.core c = { s.core c with
          icache := [], icPoison := [],
          stale := ((List.range 64).map (64 * c + ·)).filter (fun k => (s.thread k).st == .parked .fetch) }) ∧
      (∀ c, coreCl c ≠ cl.val → s'.core c = s.core c))

/-! ### Arrays and the vector unit (chapters 3 to 5) -/

/-- R70: TMMA and TSMMA enter the array's queue of four with their two descriptors, START binding a free array to the thread; TDRAIN
enters it and unbinds; the thread goes on and no memory or register field changes. A full queue, and with START another thread's
binding, parks the thread at the same instruction. -/
def Obligations.TileIssue : Prop :=
  ∀ (t : Tid) (g : BitVec 4) (xa xb : BitVec 5) (a : Fin 4) (start : Bool) (s : State),
    let k := t.key
    let th := s.thread k
    let ak := arrKey t.core.val a.val
    let x := s.arr ak
    let queued (s' : State) (kind : TileKind) (st : Bool) (b : Option Nat) (q : List TileOp) : Prop :=
      (∃ o, s'.arr ak = { x with queue := q ++ [o], bound := b } ∧ o.kind = kind ∧ o.core = t.core.val ∧ o.thread = k ∧
        o.job = th.job ∧ o.a = (th.getX xa).toNat ∧ o.b = (th.getX xb).toNat ∧ o.start = st ∧ o.mode = th.mode ∧ o.done = 0 ∧
        o.pc = th.pc.toNat) ∧
      s'.thread k = { th with pc := th.pc + 4, parkedAt := s.clk.arith } ∧ (∀ j, j ≠ ak → s'.arr j = s.arr j) ∧
      s' = { s with threads := s'.threads, cores := s'.cores, arrs := s'.arrs, fabric := s'.fabric }
    let parked (s' : State) (p : Park) : Prop :=
      s'.thread k = { th with st := .parked p, parkedAt := s.clk.arith } ∧ OnlyThread s s' t
    (∀ e ∈ ([(.tmma t g xa xb a start, .mma), (.tsmma t g xa xb a start, .smma)] : List (Instr × TileKind)), Issues s t e.1 g →
      (x.bound = (if start then none else some k) → x.queue.length < 4 → ∃ s', exec e.1 s = .next s' ∧ queued s' e.2 start (some k) x.queue) ∧
      (start = true → ∀ j, j ≠ k → x.bound = some j → ∃ s', exec e.1 s = .next s' ∧ parked s' (.arrayBound a.val)) ∧
      (x.bound = (if start then none else some k) → 4 ≤ x.queue.length → ∃ s', exec e.1 s = .next s' ∧ parked s' (.arrayFull a.val)) ∧
      (start = true → x.bound = some k → x.restart.queue.length < 4 → ∃ s' o, exec e.1 s = .next s' ∧
        s'.arr ak = { x.restart with queue := x.restart.queue ++ [o], bound := some k } ∧ o.kind = e.2 ∧ o.start = true ∧
        (s'.thread k).pc = th.pc + 4)) ∧
    (Issues s t (.tdrain t g xa xb a) g → (odDen (th.getX xa).toNat = true → xb ≠ 31) → x.bound = some k → x.queue.length < 4 →
      ∃ s' o, exec (.tdrain t g xa xb a) s = .next s' ∧ s'.arr ak = { x with queue := x.queue ++ [o], bound := none } ∧
        o.kind = .drain ∧ o.a = (th.getX xa).toNat ∧ o.b = (th.getX xb).toNat ∧ o.b2 = (th.getX (xb + 1)).toNat ∧
        (s'.thread k).pc = th.pc + 4 ∧ s'.mem = s.mem ∧ s'.regs = s.regs)

/-- R68, R83: a well-formed TMMA with START at the head of its queue, its operands sound and in no earlier operation's way, leaves
in cell (i, j) the accumulation of the products of line i and line j in increasing k, and leaves the queue; it writes no memory. -/
def Obligations.TileProducts : Prop :=
  ∀ (core : Fin 4096) (a : Fin 4) (o : TileOp) (rest : List TileOp) (s : State),
    let ak := arrKey core.val a.val
    (s.arr ak).queue = o :: rest → s.enabled = true → s.headFree (s.pendTile o) = true → s.oadds = [] →
    o.kind = .mma → o.start = true → o.done = 0 → mmaOk o = true →
    (∀ c ∈ opCws s o, s.mem.cw c ≠ .bad ∧ s.mem.cw c ≠ .poison) →
    ∃ s', exec (.arrayQueueHead core a 0 false) s = .next s' ∧ (s'.arr ak).queue = rest ∧ s'.mem = s.mem ∧
      (s'.arr ak).live = some o.thread ∧
      ∀ n, n < 64 → (s'.arr ak).cell n =
        (List.range (tdK o.a)).foldl (fun c t => c.take (opProd s o (n / 8) (n % 8) t)) Cell.zero

/-- R86, R89, R91, R92, R122: a full segment is folded into its cells; a checked TDRAIN moves the accumulation to a free shadow set;
the shadow set writes its eight rows and no other byte; an idle array takes a whole waiting accumulation of its octet.
R97, R98, R99, R102: CLEAR zeroes one digest slot of a quarter in service but for the contributions of its own CTRL cycle, CLEAR_ALL all
64, and no other register of any block. -/
def Obligations.ArraysAndDigests : Prop :=
  (∀ (core : Fin 4096) (a : Fin 4) (o : TileOp) (rest : List TileOp) (s : State), s.enabled = true →
     let ak := arrKey core.val a.val
     let x := s.arr ak
     (x.queue = o :: rest → x.segCount = 2 ^ 20 → o.kind ≠ .drain → (o.start = false ∨ o.done ≠ 0) → tdFmt o.b ≠ 5 →
       ∃ s', exec (.segmentBoundary core a) s = .next s' ∧ (s'.arr ak).segCount = 0 ∧ (s'.arr ak).segs = x.segs + 1 ∧
         (∀ n, n < 64 → (s'.arr ak).cell n = { x.cell n with seg := (x.cell n).fold (modeRound o.mode), m := 0, e := 0 }) ∧
         s' = { s with arrs := s'.arrs } ∧ ∀ j, j ≠ ak → s'.arr j = s.arr j) ∧
     (x.queue = o :: rest → o.kind = .drain → o.done = 1 → x.shadow = none →
       ∃ s' sh, exec (.shadowMove core a) s = .next s' ∧ (s'.arr ak).shadow = some sh ∧ sh.op = o ∧ (s'.arr ak).queue = rest ∧
         (s'.arr ak).live = none ∧ (s'.arr ak).cells = [] ∧ sh.out.length = 64 ∧ s'.mem = s.mem ∧
         ∀ n, n < 64 → sh.out.getD n 0 = if tdFmt o.a = 8 then (BitVec.ofInt 32 (x.cell n).i32).toNat
           else (x.cell n).result (modeRound o.mode) x.segs) ∧
     (∀ sh, x.shadow = some sh → s.oadds = [] → ∃ s', exec (.drainComplete core a) s = .next s' ∧ (s'.arr ak).shadow = none ∧
       (s'.arr ak).queue = x.queue ∧
       (let base := scratchAddr sh.op.core (tdOffset sh.op.a)
        let w := (pad16 (rowBytes (tdFmt sh.op.a) sh.outs 7)).length
        s'.mem.read (base + 7 * tdStride sh.op.a * 16) w = pad16 (rowBytes (tdFmt sh.op.a) sh.outs 7) ∧
        ∀ b, (∀ i, i < 8 → b < base + i * tdStride sh.op.a * 16 ∨
           base + i * tdStride sh.op.a * 16 + (pad16 (rowBytes (tdFmt sh.op.a) sh.outs i)).length ≤ b) → s'.mem.byte b = s.mem.byte b)) ∧
     (s.fbit (blkPRESS (coreCl core.val)) F.PRESS.PRESS_CTL.STEAL_ENABLE = true → x.queue = [] → x.live = none →
       x.busyAt + s.fget (blkPRESS (coreCl core.val)) F.PRESS.PRESS_CTL.STEAL_IDLE < s.clk.arith →
       (∃ i, i < 32 ∧ core.val / 8 * 8 + i / 4 ≠ core.val ∧
         (wholeAcc (s.arr (arrKey (core.val / 8 * 8 + i / 4) (i % 4))).queue).isSome = true) →
       ∃ s' c va pre acc post, exec (.arraySteal core a) s = .next s' ∧ c ≠ core.val ∧ c / 8 = core.val / 8 ∧ va < 4 ∧
         wholeAcc (s.arr (arrKey c va)).queue = some (pre, acc, post) ∧ (s'.arr ak).queue = acc ∧
         (s'.arr (arrKey c va)).queue = pre ++ post ∧ s'.mem = s.mem)) ∧
  (∀ (q : Fin 4) (slot i : Fin 64) (s : State), s.qState q.val = 1 →
     let b := blkDIGEST q.val
     let cleared (s' : State) (j : Nat) : Prop :=
       let d := Sparse.get DigNew.init s.digNew (64 * q.val + j)
       s'.fget b F.DIGEST.DIGEST.VALUE (16 * j) = (if d.at_ = s.ctrl + 1 then d.v % 2 ^ F.DIGEST.DIGEST.VALUE.w else 0) ∧
       s'.fget b F.DIGEST.DCOUNT.COUNT (16 * j) = (if d.at_ = s.ctrl + 1 then d.n % 2 ^ F.DIGEST.DCOUNT.COUNT.w else 0)
     (∃ s', exec (.clear q slot) s = .next s' ∧ cleared s' slot.val ∧ s' = { s with regs := s'.regs } ∧
       (i ≠ slot → s'.fget b F.DIGEST.DIGEST.VALUE (16 * i.val) = s.fget b F.DIGEST.DIGEST.VALUE (16 * i.val) ∧
         s'.fget b F.DIGEST.DCOUNT.COUNT (16 * i.val) = s.fget b F.DIGEST.DCOUNT.COUNT (16 * i.val))) ∧
     (∃ s', exec (.clearAll q) s = .next s' ∧ cleared s' i.val ∧ s' = { s with regs := s'.regs }))

/-- R50, R71, R72: a vector instruction enters its core's queue of eight with the values of its registers, or parks its thread when the
queue is full.
R71, R94: the one-row FMA, maximum and assists at the head of the vector queue write 32 lanes, each its operation of the same
lane of the sources, under the task's rounding mode, and no other byte; the entry leaves the queue. -/
def Obligations.VectorOperations : Prop :=
  (∀ (t : Tid) (g : BitVec 4) (xd xa xb xc : BitVec 5) (s : State),
     let th := s.thread t.key
     let r (i : BitVec 5) := (th.getX i).toNat
     ∀ e ∈ ([(.vfma t g xd xa xb xc, .fma, r xb, r xc), (.vexp t g xd xa, .exp, 0, 0), (.vrcp t g xd xa, .rcp, 0, 0),
         (.vrsq t g xd xa, .rsq, 0, 0), (.vmax t g xd xa xb, .max, r xb, 0), (.vsum t g xd xa, .sum, 0, 0),
         (.vsoft t g xd xa xb xc, .soft, r xb, r xc)] : List (Instr × VecKind × Nat × Nat)), Issues s t e.1 g →
       ((s.vec t.core.val).length < 8 → ∃ s' o, exec e.1 s = .next s' ∧ s'.vec t.core.val = s.vec t.core.val ++ [o] ∧ o.kind = e.2.1 ∧
         o.thread = t.key ∧ o.d = r xd ∧ o.a = r xa ∧ o.b = e.2.2.1 ∧ o.c = e.2.2.2 ∧ o.mode = th.mode ∧
         s'.thread t.key = { th with pc := th.pc + 4, parkedAt := s.clk.arith } ∧
         s' = { s with threads := s'.threads, cores := s'.cores, vecs := s'.vecs, fabric := s'.fabric }) ∧
       (8 ≤ (s.vec t.core.val).length → ∃ s', exec e.1 s = .next s' ∧ OnlyThread s s' t ∧
         s'.thread t.key = { th with st := .parked .vecFull, parkedAt := s.clk.arith })) ∧
  (∀ (core : Fin 4096) (o : VecOp) (rest : List VecOp) (s : State),
     s.vec core.val = o :: rest → s.enabled = true → s.headFree o.pend = true → o.ok = true → s.oadds = [] →
     (∀ c ∈ o.cwsOf core.val, s.mem.cw c ≠ .bad ∧ s.mem.cw c ≠ .poison) →
     o.kind ≠ .sum → o.kind ≠ .soft → vCount o.d = 1 →
     let at_ := scratchAddr core.val (vOff o.d)
     ∃ s', exec (.vectorOpComplete core) s = .next s' ∧ s'.vec core.val = rest ∧ BytesOutside s.mem s'.mem at_ 128 ∧
       s'.mem.read at_ 128 = (List.range 32).flatMap (fun j => leBytes 4 (
         let a := vLane s core.val o.a 0 j
         let b := vLane s core.val o.b 0 j
         let c := vLane s core.val o.c 0 j
         match o.kind with
         | .fma => fma32 (modeRound o.mode) a b c
         | .exp => vexp a
         | .rcp => vrcp a
         | .rsq => vrsq a
         | .max => max32 a b
         | .sum => a
         | .soft => a)))

/-! ### Stream engines (chapter 6) -/

/-- R126, R127: STRM.GO arms a free context, or the thread's own that holds no chain (status 0), queues a second chain in NEXT
(status 1), turns a third away (status 2) and leaves another thread's context alone (status 3); STRM.WAIT answers at once where the context
is not the thread's (2) or holds no chain, and else parks. Of threads of one cycle that find a context free the lowest becomes its owner,
whichever came first. The thread's earlier writes are acknowledged (R73).
R129, R131: the block of a context's next descriptor is read at its home; each kind of descriptor that passes the checks becomes
current, and no other context changes. -/
def Obligations.StreamsBegin : Prop :=
  (∀ (t : Tid) (g : BitVec 4) (xd xa xb : BitVec 5) (s : State),
     let k := t.key
     let th := s.thread k
     let a := (th.getX xa).toNat
     let addr := (th.getX xb).toNat
     let ck := ctxKey (coreCl t.core.val) a
     let c := s.ctx ck
     let status (s' : State) (v : Nat) : Prop := (∀ r, (s'.thread k).getX r = if r = xd ∧ xd ≠ 0 then BitVec.ofNat 64 v else th.getX r) ∧
       (s'.thread k).pc = th.pc + 4 ∧ (s'.thread k).st = .ready ∧ s'.mem = s.mem ∧ ∀ j, j ≠ ck → s'.ctx j = s.ctx j
     a < 64 →
     (Issues s t (.strmGo t g xd xa xb) g → s.unacked k = false → addr % 64 = 0 → addr < 2 ^ 48 →
       (c.st = .free → ∃ s', exec (.strmGo t g xd xa xb) s = .next s' ∧ status s' 0 ∧ (s'.ctx ck).st = .active ∧
         (s'.ctx ck).owner = k ∧ (s'.ctx ck).cur = some addr ∧ (s'.ctx ck).next = none ∧ (s'.ctx ck).job = th.job) ∧
       (c.st = .owned → c.owner = k → c.ownerEnded = false → ∃ s', exec (.strmGo t g xd xa xb) s = .next s' ∧ status s' 0 ∧
         (s'.ctx ck).st = .active ∧ (s'.ctx ck).cur = some addr) ∧
       (∀ k' x', c.st = .active → c.go = some (s.clk.arith, k', x') → k < k' → ∃ s', exec (.strmGo t g xd xa xb) s = .next s' ∧ status s' 0 ∧
         (s'.ctx ck).owner = k ∧ (s'.ctx ck).cur = some addr ∧ (s'.thread k').getX x' = if x' = 0 then 0 else 3) ∧
       (c.st = .active → c.go = none → c.owner = k → c.ownerEnded = false → c.next = none → ∃ s', exec (.strmGo t g xd xa xb) s = .next s' ∧
         status s' 1 ∧ s'.ctx ck = { c with next := some addr }) ∧
       (c.st = .active → c.go = none → c.owner = k → c.ownerEnded = false → c.next ≠ none → ∃ s', exec (.strmGo t g xd xa xb) s = .next s' ∧
         status s' 2 ∧ s'.ctx ck = c) ∧
       (c.st ≠ .free → c.go = none → c.owner ≠ k → ∃ s', exec (.strmGo t g xd xa xb) s = .next s' ∧ status s' 3 ∧ s'.ctx ck = c)) ∧
     (Issues s t (.strmWait t g xd xa) g →
       (c.st = .free ∨ c.owner ≠ k ∨ c.ownerEnded = true → ∃ s', exec (.strmWait t g xd xa) s = .next s' ∧ status s' 2 ∧ s'.ctx ck = c) ∧
       (c.st = .owned → c.owner = k → c.ownerEnded = false → ∃ s', exec (.strmWait t g xd xa) s = .next s' ∧
         status s' (if c.shed then 1 else 0)) ∧
       (c.st = .active → c.owner = k → c.ownerEnded = false → ∃ s', exec (.strmWait t g xd xa) s = .next s' ∧ OnlyThread s s' t ∧
         s'.thread k = { th with st := .parked (.strm a xd.toNat), pc := th.pc + 4, parkedAt := s.clk.arith }))) ∧
  (∀ (c x : Fin 64) (a : Nat) (s : State),
     let k := ctxKey c.val x.val
     let z := s.ctx k
     let d := wordsOf (z.codesAt a)
     let blk := a / 512 * 512
     s.alive = true → z.st = .active → z.cur = some a → z.desc = [] →
     (z.blkAt ≠ some blk → s.ctxWaits k blk 512 false = false → s.ctxRefused k blk 512 false = false →
       ∃ s', exec (.descriptorBlockRead c x) s = .next s' ∧ (s'.ctx k).blkAt = some blk ∧ (s'.ctx k).blk.length = 32 ∧
         (s'.ctx k).desc = [] ∧ ∀ j, j ≠ k → s'.ctx j = s.ctx j) ∧
     (z.blkAt = some blk → (z.codesAt a).any (·.poison) = false → s.descFault k d = none →
       (dListLen d = 0 ∨ s.ctxWaits k (dListAddr d) (4 * dListLen d) false = false) →
       ∀ e ∈ ([(.linear c x, 0), (.strided c x, 1), (.indexed c x, 2), (.bitmap c x, 3), (.multicast c x, 4), (.relay c x, 5)] :
         List (Instr × Nat)), dKind d = e.2 → ∃ s', exec e.1 s = .next s' ∧ (s'.ctx k).desc = d ∧ (s'.ctx k).pos = 0 ∧
           (s'.ctx k).reads = [] ∧ (s'.ctx k).segs = 0 ∧ (s'.ctx k).t0 = s.gtc.count ∧ (s'.ctx k).st = .active ∧
           (e.2 = 4 → z.mcHeld = 0 → s.mcUsed c.val + 4 * dSeg d ≤ 0x40000 → (s'.ctx k).mcHeld = 4 * dSeg d) ∧
           ∀ j, j ≠ k → s'.ctx j = s.ctx j))

/-- R114 to R119: each Press operation, once the input of its descriptor has been fed to it whole, holds as its output the one that the
rules of the operation give for those bytes, in codewords; an output that falls back to dense form is made in its second reading; where
slots of a K_OF_8 tile name one position twice, TRANSPOSE takes one of them (log entry 15: which one is open). -/
def Obligations.PressOperations : Prop :=
  ∀ (c x : Fin 64) (s : State),
    let k := ctxKey c.val x.val
    let z := s.ctx k
    let w := dW z.desc 4
    let bs := (z.pin.flatMap (fun e => leBytes 16 e.2.v)).toArray
    let rd (o n : Nat) : Nat := leNat ((List.range n).map (fun i => bs.getD (o + i) 0))
    s.alive = true → s.pressFed k = true → pressLen rd w = some (dLen z.desc) →
    ∀ e ∈ ([(.compressCsr c x, 1), (.compressK8 c x, 2), (.fixMask c x, 3), (.audit c x, 4), (.transpose c x, 5)] : List (Instr × Nat)),
      ppOp w = e.2 → z.again = true ∨ (∀ pick, (pressRun rd w (dLen z.desc) pick).tiles.any (·.2.2) = false) → ∃ s' pick,
        exec e.1 s = .next s' ∧
        (let o := (pressRun rd w (dLen z.desc) pick).out
         s'.ctx k = { z with pressed := some o.length, pin := [], tiles := (s'.ctx k).tiles,
                             out := (List.range ((o.length + 15) / 16)).map (fun i => Code.mk (leNat ((o.drop (16 * i)).take 16)) false) }) ∧
        s'.mem = s.mem ∧ ∀ j, j ≠ k → s'.ctx j = s.ctx j

/-- R132 to R139, R146: a LINEAR context with nothing before it in its cluster takes the request slot for its next piece, which leaves for
its home; a piece whose data has come back is delivered, taken off the list and its bytes counted; a granted credit is held; a written
segment of a plain copy is counted; an answered signal is no longer awaited.
R130, R148, R152: a descriptor whose work is done and that names no record and no signal gives way to the next of its chain; a
cancelled context whose requests are all answered becomes FREE. -/
def Obligations.StreamsMove : Prop :=
  (∀ (c x : Fin 64) (s : State),
     let k := ctxKey c.val x.val
     let z := s.ctx k
     let d := z.desc
     s.alive = true → z.st = .active → d ≠ [] →
     (dKind d = 0 → dPress d = false → dRing d = false → z.pos < dLen d → z.reads.length < 64 → z.creditWait = false →
       inDevMem (dSrc d + z.pos) = true → s.outstanding c.val < 1024 → (∀ y : Fin 64, y ≠ x → s.ctx (ctxKey c.val y.val) = Ctx.init) →
       ∃ s' r, exec (.streamRequestSlot c) s = .next s' ∧ (s'.ctx k).reads = z.reads ++ [r] ∧ r.addr = dSrc d + z.pos ∧ r.pos = z.pos ∧
         0 < r.n ∧ r.n ≤ 64 ∧ r.kind = .src ∧ r.data = none ∧ (s'.ctx k).pos = z.pos + r.n ∧
         (homeNode r.addr ≠ clusterNode c.val → ⟨r.flit, strmCls (dLat d), strmIface c.val, homeNode r.addr, clusterNode c.val,
           route (clusterNode c.val) (homeNode r.addr), false⟩ ∈ s'.fabric.flits) ∧ s'.mem = s.mem ∧ s'.regs = s.regs) ∧
     (∀ r ∈ z.reads, ∀ l, z.reads.find? (fun y => y.id == r.id) = some r → r.data = some l → l ≠ [] → s.landed r.flit = true →
       r.kind = .src → dKind d = 0 → dPress d = false → s.destWaits k (z.dst r.pos) r.n = false →
       s.ctxRefused k (z.dst r.pos) r.n true = false →
       ∃ s', exec (.streamReadReturn c x r.id) s = .next s' ∧ (s'.ctx k).reads = z.reads.filter (fun y => y.id != r.id) ∧
         (s'.ctx k).acked = z.acked + r.n ∧ ∀ j, j ≠ k → s'.ctx j = s.ctx j) ∧
     (∀ w, s.wakes.find? (s.wakeOf k false) = some w → w.who = .ctx k → w.status = 0 → ∃ s', exec (.creditWaitGranted c x) s = .next s' ∧
       (s'.ctx k).credits = z.credits + 1 ∧ (s'.ctx k).creditWait = false ∧ s'.wakes = s.wakes.erase w ∧ s'.mem = s.mem) ∧
     (∀ w, s.wakes.find? (s.wakeOf k true) = some w → w.status = 0 → z.doneSent = false → ∃ s', exec (.engineSignalAnswer c x) s = .next s' ∧
       s'.ctx k = { z with sigs := z.sigs - 1 } ∧ s'.wakes = s.wakes.erase w ∧ s'.mem = s.mem) ∧
     (dKind d ≠ 4 → dKind d ≠ 5 → dPress d = false → dDen d = false → dRing d = false → s.segReady k = true →
       ∃ s', exec (.segmentWritten c x 0) s = .next s' ∧ s'.ctx k = { z with segs := z.segs + 1, outs := (s'.ctx k).outs } ∧ s'.mem = s.mem ∧
         ∀ j, j ≠ k → s'.ctx j = s.ctx j)) ∧
  (∀ (c x : Fin 64) (s : State),
     let k := ctxKey c.val x.val
     let z := s.ctx k
     let d := z.desc
     (s.alive = true → s.descReady k = true → dCpl d = 0 → dDoneEn d = false → z.recv = [] →
       ∃ s', exec (.descriptorComplete c x) s = .next s' ∧ s'.mem = s.mem ∧ (s'.ctx k).desc = [] ∧
         (dChain d = true → (s'.ctx k).cur = z.cur.map (· + 64)) ∧
         (dChain d = false → ∀ n, z.next = some n → (s'.ctx k).cur = some n ∧ (s'.ctx k).next = none) ∧
         (dChain d = false → z.next = none → z.ownerEnded = true → s'.ctx k = Ctx.init)) ∧
     (z.st = .cancelling → z.reads = [] → (∀ h ∈ s.hops, h.ctx ≠ k) → s.reportWaits z.errRef = false →
       (dCpl d = 0 ∨ s.destWaits k (dCpl d) 32 = false) → (∀ m ∈ s.syncMsgs, m.who ≠ .ctx k) → ∃ s', exec (.contextFree c x) s = .next s' ∧ s'.ctx k = Ctx.init ∧
         ∀ j, j ≠ k → s'.ctx j = s.ctx j))

/-- R143, R144: with room held, the next segment of a multicast is let into the store, to be read; a relay hop that holds its credit takes
a forwarder when fewer than eight of its engine's are in use; a hop that may move has its segment written in the next member, whose count and
DATA signal follow. -/
def Obligations.MulticastAndRelay : Prop :=
  ∀ (c x : Fin 64) (s : State),
    let k := ctxKey c.val x.val
    let z := s.ctx k
    let d := z.desc
    s.alive = true → z.st = .active → d ≠ [] →
    (dKind d = 4 → z.mcHeld ≠ 0 → z.mcIn < segCount d (dLen d) → z.store = [] →
      ∃ s', exec (.mcStoreEntry c x) s = .next s' ∧ s'.ctx k = { z with
          store := [(z.mcIn, List.replicate (segLen d (dLen d) z.mcIn / 16) none)], mcIn := z.mcIn + 1 } ∧
        s' = { s with ctxs := s'.ctxs } ∧ ∀ j, j ≠ k → s'.ctx j = s.ctx j) ∧
    (∀ h, s.hops.find? (fun y => y.ctx == k && y.seg == h.seg && y.mem == h.mem && y.st == .ready) = some h →
      (s.hops.filter (fun y => y.st == .moving && s.hopCl y == s.hopCl h)).length < 8 →
      ∃ s', exec (.relayHop c x h.seg h.mem) s = .next s' ∧ s' = { s with hops := s'.hops } ∧
        { h with st := .moving } ∈ s'.hops ∧ s'.hops.length = s.hops.length) ∧
    (∀ h, s.hops.find? (fun y => y.ctx == k && y.seg == h.seg && y.mem == h.mem && y.st == .moving) = some h → h.ctx = k →
      (∀ y ∈ s.hops, y.ctx = k → y.mem = h.mem → h.seg ≤ y.seg) →
      (let n := segLen d (dLen d) h.seg
       let src := z.memAddr h.seg h.mem
       let dst := z.memAddr h.seg (h.mem + 1)
       s.ctxWaits k src n false = false ∧ s.destWaits k dst n = false ∧
       s.ctxRefused k src n false = false ∧ s.ctxRefused k dst n true = false) →
      ∃ s', exec (.relayHopDone c x h.seg h.mem) s = .next s' ∧ s'.ctx k = { z with
          sigs := z.sigs + 1
          recv := z.recv.modify (h.mem + 1) (fun r => { r with segs := r.segs + 1 }) } ∧ h ∉ s'.hops ∧
        (∃ id, ⟨id, .ctx k, dDataObj d + (h.mem + 1), .sig 1 true, none⟩ ∈ s'.syncMsgs) ∧ ∀ j, j ≠ k → s'.ctx j = s.ctx j)

/-! ### Tasks and the scheduler (chapter 7) -/

/-- R157, R158: TASK.SPAWN sends for its record and parks; a record that passes the checks waits at the scheduler of its quarter; of the spawns of
earlier cycles the first takes the lowest free entry, ready at once when its flags cover MASK; the handle returns to xd.
R159, R163, R166: TASK.FLAG sends its bits; at the scheduler they are ORed into the entry that the handle names, which becomes
ready when they cover MASK, and bits for another task or quarter are counted and dropped; the chosen task takes its core's RUN or NEXT slot; the
latency time of all four quarters returns to 0 at each window's start. -/
def Obligations.SpawnsFlagsAndPlacement : Prop :=
  ((∀ (t : Tid) (g : BitVec 4) (xd xa : BitVec 5) (s : State), Issues s t (.taskSpawn t g xd xa) g → s.unacked t.key = false →
     let k := t.key
     let a := ((s.thread k).getX xa).toNat
     a % 64 = 0 → bit a 48 = false → rejectedAt a 64 false = none → ∃ s' r, exec (.taskSpawn t g xd xa) s = .next s' ∧
       s'.fabric.reqs = s.fabric.reqs ++ [r] ∧ r.op = .spawn ∧ r.addr = a ∧ r.size = 64 ∧ r.who = .thread k ∧
       s'.spawns = s.spawns ++ [⟨k, 0, (s.thread k).job, a, .reading, 0⟩] ∧
       s'.thread k = { s.thread k with st := .parked (.spawn xd.toNat), pc := (s.thread k).pc + 4, parkedAt := s.clk.arith } ∧
       s' = { s with threads := s'.threads, cores := s'.cores, fabric := s'.fabric, spawns := s'.spawns }) ∧
   (∀ (t : Tid) (x : Spawn) (v : Nat) (s : State), s.reqsOf t.key Req.isSpawn ≠ [] →
     (∀ r ∈ s.reqsOf t.key Req.isSpawn, s.answered r = true) → gather (s.reqsOf t.key Req.isSpawn) = .value v →
     s.spawns.find? (fun y => y.thread == t.key) = some x → recOk v (s.qmaskOf x.job) false = true → s.qState (taskRec v).q ≠ 5 →
     ∃ s', exec (.spawnRecordReturn t) s = .next s' ∧ s'.threads = s.threads ∧ s'.mem = s.mem ∧
       { x with q := (taskRec v).q, phase := .waiting (taskRec v), parkedAt := s.clk.arith } ∈ s'.spawns ∧
       s'.reqsOf t.key Req.isSpawn = []) ∧
   (∀ (q : Fin 4) (x : Spawn) (r : TaskRec) (e : Nat) (s : State), s.alive = true → s.qUp q.val = true →
     s.waitingSpawn q.val = some (x, r) → x.parkedAt < s.clk.arith → s.freeEntry? q.val = some e → ∃ s' en, exec (.spawnAccept q) s = .next s' ∧
       s'.entry (entryKey q.val e) = en ∧ en.used = true ∧ en.trec = r ∧ en.job = x.job ∧ en.addr = x.addr ∧ en.flags = r.flags ∧
       en.gen = (s.entry (entryKey q.val e)).gen ∧ (en.ready.isSome = decide (r.flags &&& r.mask = r.mask)) ∧
       { x with phase := .accepted (handleOf q.val (s.entry (entryKey q.val e)).gen e) } ∈ s'.spawns ∧
       s' = { s with tasks := s'.tasks, spawns := s'.spawns } ∧ ∀ j, j ≠ entryKey q.val e → s'.entry j = s.entry j) ∧
   (∀ (t : Tid) (x : Spawn) (rd h : Nat) (s : State), rd < 32 → (s.thread t.key).st = .parked (.spawn rd) →
     s.spawns.find? (fun y => y.thread == t.key) = some x → x.phase = .accepted h → ∃ s', exec (.spawnHandleArrival t) s = .next s' ∧
       (s'.thread t.key).st = .ready ∧ (∀ r, (s'.thread t.key).getX r = if r.toNat = rd ∧ rd ≠ 0 then BitVec.ofNat 64 h
         else (s.thread t.key).getX r) ∧ (∀ y ∈ s'.spawns, y.thread ≠ t.key) ∧ (∀ j, j ≠ t.key → s'.thread j = s.thread j) ∧
       s'.mem = s.mem ∧ s'.regs = s.regs)) ∧
  ((∀ (t : Tid) (g : BitVec 4) (xa xb : BitVec 5) (s : State), Issues s t (.taskFlag t g xa xb) g → s.unacked t.key = false →
     let th := s.thread t.key
     (th.getX xa).toNat < 2 ^ 32 → (th.getX xb).toNat < 2 ^ 32 → ∃ s', exec (.taskFlag t g xa xb) s = .next s' ∧
       s'.flagMsgs = s.flagMsgs ++ [⟨s.fabric.nextId, some t.key, th.job, (th.getX xa).toNat, (th.getX xb).toNat⟩] ∧
       s'.thread t.key = { th with pc := th.pc + 4, parkedAt := s.clk.arith } ∧
       s' = { s with threads := s'.threads, cores := s'.cores, flagMsgs := s'.flagMsgs, fabric := s'.fabric }) ∧
   (∀ (q : Fin 4) (m : FlagMsg) (s : State), s.alive = true → s.qUp q.val = true →
     s.flagMsgs.find? (fun x => x.handle / 2 ^ 30 == q.val && s.landed x.id) = some m →
     let k := entryKey q.val (m.handle % 16384)
     let e := s.entry k
     let f := e.flags ||| m.flags
     (bit (s.qmaskOf m.job) q.val = true → e.used = true → e.job = m.job → e.gen = bits m.handle 14 16 →
       ∃ s', exec (.flagArrival q) s = .next s' ∧ s'.flagMsgs = s.flagMsgs.erase m ∧ (s'.entry k).flags = f ∧
         (s'.entry k).trec = e.trec ∧ (e.ready = none → ((s'.entry k).ready.isSome = decide (f &&& e.trec.mask = e.trec.mask))) ∧
         s' = { s with tasks := s'.tasks, flagMsgs := s'.flagMsgs } ∧ ∀ j, j ≠ k → s'.entry j = s.entry j) ∧
     ((e.used = false ∨ e.job ≠ m.job ∨ e.gen ≠ bits m.handle 14 16) → ∃ s', exec (.flagArrival q) s = .next s' ∧
       s'.tasks = s.tasks ∧ s'.fget (blkTSCHED q.val) F.TSCHED.FLAG_REJECTS.COUNT =
         min (s.fget (blkTSCHED q.val) F.TSCHED.FLAG_REJECTS.COUNT + 1) (2 ^ F.TSCHED.FLAG_REJECTS.COUNT.w - 1))) ∧
   (∀ (cl : Fin 64) (core e : Nat) (run : Bool) (s : State), s.mayPlace cl.val = true → s.turnOf cl.val = true →
     s.slotCore cl.val = some (core, run) → (s.choose core).2 = some e → ∃ s', exec (.taskPlacement cl) s = .next s' ∧
       (if run then (s'.core core).run = some e ∧ (s'.core core).next = (s.core core).next
         else (s'.core core).next = some e ∧ (s'.core core).run = (s.core core).run) ∧
       s'.entry e = { s.entry e with placed := true } ∧ s'.threads = s.threads ∧ s'.mem = s.mem) ∧
   (∀ s : State, s.gtc.count % 89600 = 0 → ∃ s', exec .latWindowReset s = .next s' ∧ s' = { s with regs := s'.regs } ∧
     ∀ q : Fin 4, s'.fget (blkTSCHED q.val) F.TSCHED.LAT_USED.COUNT = 0))

/-! ### Synchronisation (chapter 8) -/

/-- R179, R180, R184, R185, R188: the three instructions on a well-formed reference to a quarter of the job send one operation to the table that
holds the object; WAIT and BAR park their thread, SIG does not; a SIG of any value is a release: it has its issue slot and is held until the thread's
earlier writes are acknowledged.
R181, R184, R185, R188, R189: what an operation of a thread, next in its object's order, does at a COUNTER that is not FAULTED and at a BARRIER's present generation. A sum that
leaves 32 bits faults the object, wakes its waiters with the cause and leaves its count; any other sum is kept, less what the waiters at the head of the
queue take of it at once; a wait that the count satisfies takes it, else it queues; the arrival that completes a
generation flips it. -/
def Obligations.SyncOperations : Prop :=
  (∀ (t : Tid) (g : BitVec 4) (xd xa xb : BitVec 5) (s : State),
     let k := t.key
     let th := s.thread k
     let a := (th.getX xa).toNat
     let v := (th.getX xb).toNat
     let sent (s' : State) (op : SyncOp) : Prop := s'.syncMsgs = s.syncMsgs ++ [⟨s.fabric.nextId, .thread k, a % 2 ^ 18, op, none⟩] ∧
       s' = { s with threads := s'.threads, cores := s'.cores, syncMsgs := s'.syncMsgs, fabric := s'.fabric } ∧ (∀ j, j ≠ k → s'.thread j = s.thread j)
     s.refOk k a = true →
     (Issues s t (.syncSig t g xa xb) g → sextInt 32 v = sextInt 64 v → s.unacked k = false → ∃ s', exec (.syncSig t g xa xb) s = .next s' ∧
       sent s' (.sig (sextInt 64 v) (bit a 18)) ∧ s'.thread k = { th with pc := th.pc + 4, parkedAt := s.clk.arith }) ∧
     (Issues s t (.syncSig t g xa xb) g → s.unacked k = true → ∃ s', exec (.syncSig t g xa xb) s = .next s' ∧ OnlyThread s s' t ∧
       s'.thread k = { th with st := .held, parkedAt := s.clk.arith }) ∧
     (Issues s t (.syncWait t g xd xa xb) g → v < 2 ^ 32 → ∃ s', exec (.syncWait t g xd xa xb) s = .next s' ∧ sent s' (.wait v) ∧
       s'.thread k = { th with st := .parked (.sync (a % 2 ^ 18) xd.toNat), pc := th.pc + 4, parkedAt := s.clk.arith }) ∧
     (Issues s t (.syncBar t g xd xa) g → s.unacked k = false → ∃ s', exec (.syncBar t g xd xa) s = .next s' ∧ sent s' (.bar (bit a 18)) ∧
       s'.thread k = { th with st := .parked (.sync a xd.toNat), pc := th.pc + 4, parkedAt := s.clk.arith })) ∧
  (∀ (i th : Nat) (m : SyncMsg) (s : State),
     let o := s.obj m.obj
     let brief (l : List Wake) := l.map (fun w => (w.who, w.status, w.cause, w.sig))
     s.syncMsgs[i]? = some m → m.who = .thread th → s.alive = true → s.qUp (objQ m.obj) = true → s.tableFrozen (objQ m.obj) = false →
     s.syncNext m = true → o.chain = false → o.faulted = false →
     (∀ v gen, m.op = .sig v gen → o.type = 1 → 0 ≤ (o.count : Int) + v → (o.count : Int) + v ≤ 0xFFFFFFFF →
       ∃ s' l, exec (.syncOperation i) s = .next s' ∧ o.waiters = l ++ (s'.obj m.obj).waiters ∧
         (s'.obj m.obj).count + (l.map (·.value)).sum = ((o.count : Int) + v).toNat ∧
         (∀ w ∈ (s'.obj m.obj).waiters.head?, (s'.obj m.obj).count < w.value) ∧
         (s'.obj m.obj).faulted = false ∧ s'.syncMsgs = s.syncMsgs.eraseIdx i ∧
         brief s'.wakes = brief s.wakes ++ l.map (fun w => (w.who, 0, 0, false)) ∧
         (∀ j, j ≠ m.obj → s'.obj j = s.obj j) ∧ s'.mem = s.mem) ∧
     (∀ v gen, m.op = .sig v gen → o.type = 1 → ((o.count : Int) + v < 0 ∨ 0xFFFFFFFF < (o.count : Int) + v) →
       ∃ s', exec (.syncOperation i) s = .next s' ∧ (s'.obj m.obj).faulted = true ∧ (s'.obj m.obj).count = o.count ∧
         (s'.obj m.obj).cause = (if (o.count : Int) + v < 0 then 1 else 2) ∧ (s'.obj m.obj).waiters = [] ∧
         brief s'.wakes = brief s.wakes ++ (o.waiters ++ o.held).map (fun w => (w.who, 1, if (o.count : Int) + v < 0 then 1 else 2, false))) ∧
     (∀ w, m.op = .wait w → o.type = 1 → w ≠ 0 → o.waiters = [] → w ≤ o.count → ∃ s', exec (.syncOperation i) s = .next s' ∧
       (s'.obj m.obj).count = o.count - w ∧ brief s'.wakes = brief s.wakes ++ [(.thread th, 0, 0, false)]) ∧
     (∀ w, m.op = .wait w → o.type = 1 → w ≠ 0 → (o.waiters ≠ [] ∨ o.count < w) → ∃ s', exec (.syncOperation i) s = .next s' ∧
       s'.obj m.obj = { o with waiters := o.waiters ++ [⟨.thread th, w, false, s.clk.arith, s.gtc.count⟩] } ∧ s'.wakes = s.wakes) ∧
     (m.op = .bar o.gen → o.type = 3 → o.arrived + 1 < o.parts → ∃ s', exec (.syncOperation i) s = .next s' ∧
       (s'.obj m.obj).arrived = o.arrived + 1 ∧ (s'.obj m.obj).gen = o.gen ∧ s'.wakes = s.wakes) ∧
     (m.op = .bar o.gen → o.type = 3 → o.arrived + 1 = o.parts → ∃ s', exec (.syncOperation i) s = .next s' ∧
       (s'.obj m.obj).gen = !o.gen ∧ (s'.obj m.obj).arrived = o.next ∧ (s'.obj m.obj).waiters = o.held ∧
       (.thread th, 0, 0, false) ∈ brief s'.wakes))

/-- R185: a granting pass serves a COUNTER's queue from its head, each waiter wholly, until the head asks for more than is left:
count is neither made nor lost, nothing overtakes, each one granted is woken with status 0. -/
def Obligations.GrantingConserves : Prop :=
  ∀ (q : Fin 4) (n : Fin 65536) (s : State),
    let k := q.val * 65536 + n.val
    let o := s.obj k
    o.grant = true → s.tableFrozen q.val = false →
    ∃ s' l, exec (.grantingPass q n) s = .next s' ∧ o.waiters = l ++ (s'.obj k).waiters ∧
      (s'.obj k).count + (l.map (·.value)).sum = o.count ∧ (∀ w ∈ (s'.obj k).waiters.head?, (s'.obj k).count < w.value) ∧
      s'.wakes.map (fun w => (w.who, w.status, w.cause, w.sig)) =
        s.wakes.map (fun w => (w.who, w.status, w.cause, w.sig)) ++ l.map (fun w => (w.who, 0, 0, false)) ∧ (s'.obj k).grant = false ∧
      ∀ j, j ≠ k → s'.obj j = s.obj j

/-- R188, R190, R192: a completion that is due flips the generation and wakes its waiters; a wake message makes its thread READY with the
status in xd; a register write of an object gives it the state of the word written and wakes its waiters with status 3, and a BARRIER
without participants is not written. -/
def Obligations.SyncEvents : Prop :=
  (∀ (q : Fin 4) (n : Fin 65536) (s : State),
    let k := q.val * 65536 + n.val
    let o := s.obj k
    o.chain = true → s.tableFrozen q.val = false → ∃ s', exec (.barrierChainedCompletion q n) s = .next s' ∧
      (s'.obj k).gen = !o.gen ∧ (s'.obj k).arrived = o.next ∧ (s'.obj k).next = 0 ∧ (s'.obj k).waiters = o.held ∧
      s'.wakes.map (fun w => (w.who, w.status, w.cause, w.sig)) =
        s.wakes.map (fun w => (w.who, w.status, w.cause, w.sig)) ++ o.waiters.map (fun w => (w.who, 0, 0, false)) ∧
      s' = { s with objs := s'.objs, wakes := s'.wakes, fabric := s'.fabric }) ∧
  (∀ (i id th st cause ob rd : Nat) (sig : Bool) (s : State), rd < 32 → s.wakes[i]? = some ⟨id, .thread th, st, cause, sig⟩ → s.landed id = true →
    (s.thread th).st = .parked (.sync ob rd) → ∃ s', exec (.wakeArrival i) s = .next s' ∧ (s'.thread th).st = .ready ∧
      s'.wakes = s.wakes.eraseIdx i ∧ (∀ r, (s'.thread th).getX r = if r.toNat = rd ∧ rd ≠ 0 then
        BitVec.ofNat 64 (if st = 1 then 1 + 256 * cause else st) else (s.thread th).getX r) ∧
      s' = { s with wakes := s'.wakes, threads := s'.threads, cores := s'.cores }) ∧
  (∀ (q : Fin 4) (n : Fin 65536) (v : Word) (s : State), s.qState q.val = 1 →
    let k := q.val * 65536 + n.val
    let o := s.obj k
    let ty := v.toNat % 4
    s.objWaits k = false → o.chain = false → ((ty = 3 ∧ v.toNat / 2 ^ 16 % 2 ^ 16 = 0 → exec (.objWrite q n none v) s = .next s) ∧
      (¬(ty = 3 ∧ v.toNat / 2 ^ 16 % 2 ^ 16 = 0) → ∃ s', exec (.objWrite q n none v) s = .next s' ∧ (s'.obj k).type = ty ∧
        (s'.obj k).faulted = false ∧ (s'.obj k).count = (if ty = 1 then v.toNat / 2 ^ 32 else 0) ∧
        (s'.obj k).parts = (if ty = 3 then v.toNat / 2 ^ 16 % 2 ^ 16 else 0) ∧ (s'.obj k).set_ = (ty == 2 && v.getLsbD 6) ∧
        (s'.obj k).gen = (ty == 3 && v.getLsbD 7) ∧ (s'.obj k).waiters = [] ∧
        s'.wakes.map (fun w => (w.who, w.status, w.cause, w.sig)) =
          s.wakes.map (fun w => (w.who, w.status, w.cause, w.sig)) ++ (o.waiters ++ o.held).map (fun w => (w.who, 3, 0, false)) ∧
        s' = { s with objs := s'.objs, wakes := s'.wakes, fabric := s'.fabric })))

/-- R193 to R196: firmware may always write MODE_NEXT and MODE_CMD, a host port only while the other port owns no quarter; every other requester meets a
register-access error (R5), logged in the block's BLK_LOG. MODE_NEXT is staged outside a transition, with STAGE_REJECT inside; COMMIT opens a
transition with the next epoch as its target and all six units pending; ABORT ends it with its CTRL cycle, unless the commit falls into that cycle
(Table 8.8); the last acknowledgement makes NEXT current and the target the epoch. -/
def Obligations.ModeProtocol : Prop :=
  ∀ (rq : Requester) (v : Word) (s : State),
    let m := blkMODE
    let may : Prop := rq = .firmware ∨ ∃ p : Fin 2, rq = .port p ∧ ∀ q : Fin 4, s.owns (1 - p.val) q.val = false
    (may → s.inTransition = false → ∃ s', exec (.modeNextWrite rq v) s = .next s' ∧ s'.fget m F.MODE.MODE_NEXT.ROUND = v.toNat % 4 ∧
      s'.fget m F.MODE.MODE_NEXT.DETERMINISTIC = v.toNat / 4 % 2 ∧
      s'.fget m F.MODE.MODE_NEXT.SPARSE_DENSE_THRESH = v.toNat / 16 % 128 ∧ s' = { s with regs := s'.regs }) ∧
    (may → s.inTransition = true → ∃ s', exec (.modeNextWrite rq v) s = .next s' ∧ s'.fget m F.MODE.MODE_STATUS.STAGE_REJECT = 1 ∧
      s'.fget m F.MODE.MODE_NEXT.ROUND = s.fget m F.MODE.MODE_NEXT.ROUND ∧
      s'.fget m F.MODE.MODE_NEXT.DETERMINISTIC = s.fget m F.MODE.MODE_NEXT.DETERMINISTIC ∧
      s'.fget m F.MODE.MODE_NEXT.SPARSE_DENSE_THRESH = s.fget m F.MODE.MODE_NEXT.SPARSE_DENSE_THRESH ∧ s' = { s with regs := s'.regs }) ∧
    (may → s.inTransition = false → ∃ s', exec (.commit rq) s = .next s' ∧
      s'.inTransition = true ∧ s'.fget m F.MODE.MODE_STATUS.TARGET = (s.fget m F.MODE.MODE_EPOCH.EPOCH + 1) % 2 ^ 32 ∧
      s'.fget m F.MODE.MODE_STATUS.PENDING = 0x3F ∧ s'.fget m F.MODE.MODE_EPOCH.EPOCH = s.fget m F.MODE.MODE_EPOCH.EPOCH ∧
      s'.threads = s.threads) ∧
    (may → s.inTransition = true → ∃ s', exec (.modeAbort rq) s = .next s' ∧ s' = { s with modeAb := s.ctrl + 1 } ∧
      ∀ z : State, z.modeAb = s'.modeAb → s.ctrl < z.ctrl → z.tickMode.inTransition = false ∧
        z.tickMode.fget m F.MODE.MODE_STATUS.PENDING = 0 ∧
        z.tickMode.fget m F.MODE.MODE_EPOCH.EPOCH = z.fget m F.MODE.MODE_EPOCH.EPOCH) ∧
    (may → s.inTransition = false → s.modeAt = s.ctrl + 1 → ∃ s', exec (.modeAbort rq) s = .next s' ∧
      s'.fget m F.MODE.MODE_STATUS.ABORT_LATE = 1 ∧ s'.modeNow = s.modeNow ∧ s' = { s with regs := s'.regs }) ∧
    (∀ e ∈ ([(.modeNextWrite rq v, F.MODE.MODE_NEXT.ROUND.reg), (.commit rq, F.MODE.MODE_CMD.COMMIT.reg),
        (.modeAbort rq, F.MODE.MODE_CMD.ABORT.reg)] : List (Instr × Nat)),
      ¬may → ∃ s', exec e.1 s = .next s' ∧ s' = { s with regs := s'.regs } ∧
        s'.fget m F.MODE.MODE_NEXT.ROUND = s.fget m F.MODE.MODE_NEXT.ROUND ∧
        s'.fget m F.MODE.MODE_NEXT.DETERMINISTIC = s.fget m F.MODE.MODE_NEXT.DETERMINISTIC ∧
        s'.fget m F.MODE.MODE_NEXT.SPARSE_DENSE_THRESH = s.fget m F.MODE.MODE_NEXT.SPARSE_DENSE_THRESH ∧
        s'.inTransition = s.inTransition ∧ s'.fget m F.MODE.MODE_STATUS.PENDING = s.fget m F.MODE.MODE_STATUS.PENDING ∧
        s'.fget blkSILPAOT F.SILPAOT.BLK_LOG.REG_ACCESS (8 * m) =
          min (s.fget blkSILPAOT F.SILPAOT.BLK_LOG.REG_ACCESS (8 * m) + 1) 0xFFFFFFFF ∧
        s'.fget blkSILPAOT F.SILPAOT.BLK_LOG.LAST_OFFSET (8 * m) = e.2 ∧ s'.fget blkSILPAOT F.SILPAOT.BLK_LOG.LAST_WRITE (8 * m) = 1 ∧
        s'.fget blkSILPAOT F.SILPAOT.BLK_LOG.LAST_KIND (8 * m) = 1) ∧
    (∀ u : Fin 6, s.alive = true → s.mayAck u.val = true → s.inTransition = true →
      let p := s.fget m F.MODE.MODE_STATUS.PENDING
      bit p u.val = true → (p ≠ 2 ^ u.val → ∃ s', exec (.modeAck u) s = .next s' ∧
        s'.fget m F.MODE.MODE_STATUS.PENDING = (p - 2 ^ u.val) % 64 ∧ s'.modeNow = s.modeNow) ∧
      (p = 2 ^ u.val → ∃ s', exec (.modeAck u) s = .next s' ∧ s'.inTransition = false ∧
        s'.fget m F.MODE.MODE_EPOCH.EPOCH = s.fget m F.MODE.MODE_STATUS.TARGET % 2 ^ 32 ∧
        s'.fget m F.MODE.MODE_CURRENT.ROUND = s.fget m F.MODE.MODE_NEXT.ROUND % 4 ∧
        s'.fget m F.MODE.MODE_CURRENT.DETERMINISTIC = s.fget m F.MODE.MODE_NEXT.DETERMINISTIC % 2 ∧
        s'.fget m F.MODE.MODE_CURRENT.SPARSE_DENSE_THRESH = s.fget m F.MODE.MODE_NEXT.SPARSE_DENSE_THRESH % 128 ∧
        (s.modeAb ≠ 0 → s'.fget m F.MODE.MODE_STATUS.ABORT_LATE = 1)))

/-- R197 to R200: a check finds no wait as old as WAIT_LIMIT, or fires and keeps what it fired on; the dump done, the table serves again
and the firing is recorded; RESUME lets dispatch go on once the jobs are gone and is refused before; a base outside the quarter's own
stacks is not taken. -/
def Obligations.Watchdog : Prop :=
  ∀ (q : Fin 4) (s : State),
    let b := blkSYNC q.val
    let tb := blkTSCHED q.val
    (s.alive = true → s.qUp q.val = true → s.clk.arith % 2 ^ 20 = 0 → (s.wd q.val).checks < s.clk.arith / 2 ^ 20 →
      s.fbit tb F.TSCHED.SCHED_STATUS.STOPPED = false → ∃ s', exec (.watchdogCheck q) s = .next s' ∧
        (s'.wd q.val).checks = s.clk.arith / 2 ^ 20 ∧
        (match oldest (s.timedWaits q.val) with
          | some (kind, index, age) =>
            if s.fget b F.SYNC.WAIT_LIMIT.LIMIT * 65536 ≤ age then (s'.wd q.val).trigKind = kind ∧ (s'.wd q.val).trigIdx = index
            else s' = { s with wds := s'.wds }
          | none => s' = { s with wds := s'.wds })) ∧
    (s.alive = true → s.tableFrozen q.val = true → (∀ x ∈ s.jobs, s.taskIn q.val x.id = false ∧ s.waitIn q.val x.id = false) →
      let n := min (s.fget b F.SYNC.WD_STATUS.DUMP_SEQ + 1) (2 ^ 32 - 1)
      ∃ s', exec (.cuppingDumpDone q) s = .next s' ∧ s'.tableFrozen q.val = false ∧ s'.fbit b F.SYNC.WD_STATUS.FIRED = true ∧
        s'.fget b F.SYNC.WD_STATUS.DUMP_SEQ = n ∧ (s'.wd q.val).step4 = true ∧ s'.objs = s.objs) ∧
    (s.qState q.val = 1 → s.fbit tb F.TSCHED.SCHED_STATUS.STOPPED = true →
      (s.tableFrozen q.val = false → (s.wd q.val).step4 = true → (∀ x ∈ s.jobs, x.id ∉ (s.wd q.val).ended) →
        ∃ s', exec (.resume q) s = .next s' ∧ s'.fbit tb F.TSCHED.SCHED_STATUS.STOPPED = false ∧ s' = { s with regs := s'.regs }) ∧
      ((s.tableFrozen q.val = true ∨ (s.wd q.val).step4 = false) → ∃ s', exec (.resume q) s = .next s' ∧
        s'.fbit tb F.TSCHED.SCHED_STATUS.STOPPED = true ∧ s'.fget b F.SYNC.WD_STATUS.RESUME_REJECT = 1)) ∧
    (∀ (rq : Requester) (v : Word), s.mayWrite rq b F.SYNC.DUMP_BASE.BASE.reg = true → s.qState q.val = 1 →
      let base := v.toNat / 2 ^ 24 % 2 ^ 25
      ((q.val * 0x009000000000 ≤ base * 2 ^ 24 ∧ base * 2 ^ 24 + 0x1000000 ≤ (q.val + 1) * 0x009000000000) →
        ∃ s', exec (.dumpBaseWrite q rq v) s = .next s' ∧ s'.fget b F.SYNC.DUMP_BASE.BASE = base) ∧
      (¬(q.val * 0x009000000000 ≤ base * 2 ^ 24 ∧ base * 2 ^ 24 + 0x1000000 ≤ (q.val + 1) * 0x009000000000) →
        exec (.dumpBaseWrite q rq v) s = .next s))

/-! ### Fabric, clocks, links (chapter 1) -/

/-- R14, R16, R18, R19, R23, R24: a flit that the arbitration serves passes its link; two bad symbols in its header stop it with a
fatal report, in a codeword that it carries make that codeword poison; an untrained bridge is fatal; a throttle window withholds as
many enables as its level; without the reference only MGMT runs.
R29, R42, R43, R44: a link trains to the highest rate and width both sides have, or says that it has none; it goes down; a heartbeat
restarts its time; a port silent or down too long is lost; a PORT reset keeps the port's quarters and leaves all else of the port at
reset. -/
def Obligations.FabricAndLinks : Prop :=
  ((∀ (id hdr : Nat) (payload : List Nat) (f : Flit) (nxt : Node) (rest : List Node) (s : State),
     s.fabric.flits.find? (fun x => x.id == id) = some f → f.hops = nxt :: rest → s.hopDue f nxt = true →
     (popCount 36 hdr < 2 → (∀ m ∈ payload, popCount 36 m < 2) →
       (rest ≠ [] ∨ ∀ r, s.req? id = some r → ∀ code, r.answer ≠ some (.refused code)) →
       ∃ s', exec (.flitHop id hdr payload) s = .next s' ∧
       s'.fabric.flits = s.fabric.flits.filterMap (fun x => if x = f then
         (if rest.isEmpty then none else some { x with at_ := nxt, hops := rest }) else some x) ∧
       s' = { s with fabric := s'.fabric, regs := s'.regs, err := s'.err }) ∧
     (let bad := (List.range 4).filter (fun i => bit (s.carries id) i && decide (2 ≤ popCount 36 (payload.getD i 0)))
      popCount 36 hdr < 2 → bad ≠ [] → ∃ s', exec (.flitHop id hdr payload) s = .next s' ∧
       (∀ r, s.req? id = some r → r.answer = none → ∃ r', s'.req? id = some r' ∧ (∀ i ∈ bad, bit r'.bad i = true) ∧
         r' = { r with bad := r'.bad }) ∧
       ((Sparse.get [] s.err.queues (checker f.at_ nxt)).length < 11 →
         ∃ e ∈ Sparse.get [] s'.err.queues (checker f.at_ nxt), e.cls = 1 ∧ e.code = 0xA1) ∧
       s' = { s with fabric := s'.fabric, regs := s'.regs, err := s'.err, ctxs := s'.ctxs, bags := s'.bags }) ∧
     (2 ≤ popCount 36 hdr → ∃ s', exec (.flitHop id hdr payload) s = .next s' ∧
       s'.fabric.flits = s.fabric.flits.map (fun x => if x = f then { x with lost := true } else x) ∧
       (∃ e ∈ Sparse.get [] s'.err.queues (checker f.at_ nxt), e.cls = 4 ∧ e.code = 0xAD) ∧
       s' = { s with fabric := s'.fabric, err := s'.err })) ∧
   (∀ (b : Fin 8) (s : State),
     let up := s.fget blkFAB F.FAB.BRIDGE_STATUS.UP
     bit up b.val = true → ∃ s', exec (.bridgeFailed b) s = .next s' ∧ s'.fget blkFAB F.FAB.BRIDGE_STATUS.UP = (up - 2 ^ b.val) % 256 ∧
       (∃ e ∈ Sparse.get [] s'.err.queues blkFAB, e.cls = 4 ∧ e.code = 0xAC ∧ e.info = b.val) ∧ s' = { s with regs := s'.regs, err := s'.err }) ∧
   (∀ s : State, s.clk.arith % 16 = 0 → s.clk.window ≤ s.clk.arith / 16 → s.clk.mgmtOnly = false →
     ∃ s', exec .throttleWindow s = .next s' ∧
     s'.clk = { s.clk with window := s.clk.arith / 16 + 1, withheld := withheldAt s.pow.level } ∧
     (s.pow.level ≤ 16 → popCount 16 s'.clk.withheld.toNat = s.pow.level) ∧
     s'.fget blkCLK F.CLK.THROTTLE.LEVEL = s.pow.level % 16 ∧ s' = { s with regs := s'.regs, clk := s'.clk }) ∧
   (∀ s : State, s.clk.mgmtOnly = false → ∃ s', exec .refclkLost s = .next s' ∧ s'.clk = { s.clk with mgmtOnly := true } ∧
     s'.fget blkCLK F.CLK.CLK_STATUS.REFCLK_LOST = 1 ∧ s'.fget blkCLK F.CLK.CLK_STATUS.PLL_LOCK = 0 ∧
     (s'.port 0).link = false ∧ (s'.port 1).link = false ∧ s'.tports = [] ∧
     (∃ e ∈ Sparse.get [] s'.err.queues blkCLK, e.cls = 4 ∧ e.code = 0xAE) ∧
     s' = { s with regs := s'.regs, clk := s'.clk, ports := s'.ports, tports := s'.tports, err := s'.err })) ∧
  ((∀ (p : Fin 2) (rates : BitVec 6) (widths : BitVec 3) (s : State), (s.port p.val).link = false → (s.port p.val).perst = false →
     s.pow.boot ≠ .held → s.clk.mgmtOnly = false →
     (rates ≠ 0 → widths ≠ 0 → ∃ s', exec (.pcieLinkTraining p rates widths) s = .next s' ∧
       s'.port p.val = { s.port p.val with link := true, noLink := false, rate := topBit 6 rates.toNat,
                                           width := 2 * 2 ^ topBit 3 widths.toNat } ∧
       s' = { s with ports := s'.ports } ∧ ∀ i, i ≠ p.val → s'.port i = s.port i) ∧
     (rates = 0 ∨ widths = 0 → ∃ s', exec (.pcieLinkTraining p rates widths) s = .next s' ∧
       s'.port p.val = { s.port p.val with noLink := true } ∧ s' = { s with ports := s'.ports })) ∧
   (∀ (p : Fin 2) (s : State), (s.port p.val).link = true → ∃ s', exec (.pcieLinkDown p) s = .next s' ∧
     s'.port p.val = { s.port p.val with link := false, downAt := s.clk.arith } ∧ s' = { s with ports := s'.ports }) ∧
   (∀ (p : Fin 2) (s : State), ∃ s', exec (.heartbeat p) s = .next s' ∧ s'.port p.val = { s.port p.val with hbAt := s.clk.arith } ∧
     s' = { s with ports := s'.ports }) ∧
   (∀ (p : Fin 2) (s : State), (s.port p.val).lost = false →
     let lost (s' : State) : Prop := (s'.port p.val).lost = true ∧ s'.mem = s.mem ∧
       ∀ r, r < 64 → (s'.ring p.val r).state ≠ .running ∧ (s'.ring p.val r).state ≠ .error
     (let l := s.fget (blkJI p.val) F.JI.HB_LIMIT.LIMIT
      l ≠ 0 → (s.port p.val).hbAt + l * 2 ^ 20 ≤ s.clk.arith → ∃ s', exec (.heartbeatTimeout p) s = .next s' ∧ lost s') ∧
     ((s.port p.val).link = false → (s.port p.val).perst = false →
       (s.port p.val).downAt + 14000000 < s.clk.arith → ∃ s', exec (.linkLossTimeout p) s = .next s' ∧ lost s')) ∧
   (∀ (p : Fin 2) (flr : Bool) (s : State), s.pow.boot = .running → (s.port (1 - p.val)).acqMask = 0 →
     ∃ s', exec (.portReset p (if flr then .flr else .perst)) s = .next s' ∧
     s'.ownedMask p.val = (s.stopRings p.val).ownedMask p.val % 16 ∧ (s'.port p.val).link = (flr && (s.port p.val).link) ∧
     (s'.port p.val).masked = 0 ∧ (s'.port p.val).lost = false ∧
     (∀ r, r < 64 → s'.ring p.val r = Ring.init) ∧ s'.mem = s.mem) ∧
   (∀ (p : Fin 2) (s : State), (s.port p.val).perst = true → ∃ s', exec (.portReset p .perstEnd) s = .next s' ∧
     s'.port p.val = { s.port p.val with perst := false, downAt := s.clk.arith } ∧ s' = { s with ports := s'.ports }))

/-! ### Host ports and rings (chapter 2) -/

/-- R31, R32, R428: bases are written on a ring that is off and refused on one that runs; enabling a disabled ring zeroes its counts; a
ring without jobs is disabled at once, one with jobs drains; it is disabled when the last of them has ended. That CAUSE reads 0 from
the write that clears ENABLE is the model's choice (log entry 60).
R30, R33, R34, Table 2.3: a tail doorbell ahead of the ring's tail and within its size is taken, one outside puts the ring in error
with cause 1; a head doorbell beyond what was written gives cause 2; on a ring that does not run both are ignored and counted; a
read answers the last value written; an access of another size or alignment is turned away.
R34, R35, R36, R40, R426: the ring whose turn it is reads the block that holds its head; a matching entry becomes a job that is
taken; a sequence number that does not match waits 1,400 ARITH cycles and is read again, then is an error with cause 3; EP is cause
4; with the link down no data enters. -/
def Obligations.RingsAndEntries : Prop :=
  (∀ (p : Fin 2) (r : Fin 64) (s : State),
     let x := s.ring p.val r.val
     let b := blkJI p.val
     let ix := 64 * r.val
     (∀ (cq : Bool) (v : Word),
       let f := if cq then F.JI.RING_CQ_BASE.BASE else F.JI.RING_SQ_BASE.BASE
       (x.state = .disabled ∨ x.state = .draining → ∃ s', exec (.ringBaseWrite p r cq v) s = .next s' ∧
         s'.fget b f ix = bits v.toNat 12 34 ∧ s' = { s with regs := s'.regs }) ∧
       (x.state = .running ∨ x.state = .error → ∃ s', exec (.ringBaseWrite p r cq v) s = .next s' ∧
         s'.fget b F.JI.STATUS.CFG_REJECT = 1 ∧ s'.fget b f ix = s.fget b f ix ∧ s' = { s with regs := s'.regs })) ∧
     (∀ v : Word, x.state = .disabled → ∃ s', exec (.ringEnable p r v) s = .next s' ∧ s'.fget b F.JI.RING_CTL.ENABLE ix = 1 ∧
       s'.ring p.val r.val = { Ring.init with dbTail := x.dbTail, dbHead := x.dbHead, state := .running } ∧
       (∀ n, bits v.toNat 8 5 = n → 4 ≤ n → n ≤ 16 → s'.fget b F.JI.RING_CTL.SQ_LOG2 ix = n) ∧
       (bits v.toNat 8 5 < 4 → s'.fget b F.JI.RING_CTL.SQ_LOG2 ix = s.fget b F.JI.RING_CTL.SQ_LOG2 ix) ∧
       s' = { s with regs := s'.regs, rings := s'.rings }) ∧
     (∀ v : Word, x.state = .running ∨ x.state = .error → s.jobs.any (fun j => j.onRing p.val r.val) = false →
       ∃ s', exec (.ringDisable p r v) s = .next s' ∧ s'.fget b F.JI.RING_CTL.ENABLE ix = 0 ∧
       s'.ring p.val r.val = { x with fetch := none, mismatch := none, held := [], cause := 0, state := .disabled } ∧
       s' = { s with regs := s'.regs, rings := s'.rings, hostReads := s'.hostReads }) ∧
     (∀ v : Word, x.state = .running ∨ x.state = .error → s.jobs.any (fun j => j.onRing p.val r.val) = true →
       ∃ s', exec (.ringDisable p r v) s = .next s' ∧
       s'.ring p.val r.val = { x with fetch := none, mismatch := none, held := [], cause := 0, state := .draining } ∧ s'.mem = s.mem) ∧
     (x.state = .draining → s.jobs.any (fun j => j.onRing p.val r.val) = false → ∃ s', exec (.ringDrainDone p r) s = .next s' ∧
       s'.ring p.val r.val = { x with state := .disabled } ∧ s' = { s with rings := s'.rings })) ∧
  (∀ (p : Fin 2) (r : Fin 64) (size v : Nat) (s : State),
     let x := s.ring p.val r.val
     let n := v % 2 ^ 32
     ((size = 4 ∨ size = 8) →
       (x.state = .running → n ≠ x.tail →
         (countSub n x.head ≤ s.sqSize p.val r.val → countSub x.tail x.head < countSub n x.head →
           ∃ s', exec (.sqTail p r ⟨true, 0, size, v⟩) s = .next s' ∧
           s'.ring p.val r.val = { x with dbTail := n, tail := n } ∧ s' = { s with rings := s'.rings }) ∧
         (¬(countSub n x.head ≤ s.sqSize p.val r.val ∧ countSub x.tail x.head < countSub n x.head) →
           ∃ s', exec (.sqTail p r ⟨true, 0, size, v⟩) s = .next s' ∧
           s'.ring p.val r.val = { x with dbTail := n, fetch := none, mismatch := none, state := .error, cause := 1 } ∧
           s' = { s with rings := s'.rings, hostReads := s'.hostReads })) ∧
       (x.state ≠ .running → ∃ s', exec (.sqTail p r ⟨true, 0, size, v⟩) s = .next s' ∧ s'.ring p.val r.val = { x with dbTail := n } ∧
         s'.fget (blkJI p.val) F.JI.STATUS.DB_IGNORED = min (s.fget (blkJI p.val) F.JI.STATUS.DB_IGNORED + 1) (2 ^ 32 - 1) ∧
         s' = { s with rings := s'.rings, regs := s'.regs }) ∧
       (x.state = .running ∨ x.state = .error → countSub n x.cqHead ≤ countSub x.written x.cqHead → x.held = [] →
         ∃ s', exec (.cqHead p r ⟨true, 0, size, v⟩) s = .next s' ∧
         s'.ring p.val r.val = { x with dbHead := n, cqHead := n } ∧ s' = { s with rings := s'.rings }) ∧
       (x.state = .running → countSub x.written x.cqHead < countSub n x.cqHead → ∃ s', exec (.cqHead p r ⟨true, 0, size, v⟩) s = .next s' ∧
         s'.ring p.val r.val = { x with dbHead := n, fetch := none, mismatch := none, state := .error, cause := 2 } ∧
         s' = { s with rings := s'.rings, hostReads := s'.hostReads }) ∧
       (x.state = .disabled ∨ x.state = .draining → ∃ s', exec (.cqHead p r ⟨true, 0, size, v⟩) s = .next s' ∧
         s'.ring p.val r.val = { x with dbHead := n } ∧
         s'.fget (blkJI p.val) F.JI.STATUS.DB_IGNORED = min (s.fget (blkJI p.val) F.JI.STATUS.DB_IGNORED + 1) (2 ^ 32 - 1)) ∧
       (∃ s', exec (.sqTail p r ⟨false, 0, size, v⟩) s = .next s' ∧ (s'.port p.val).bar0 = some (.data x.dbTail 0) ∧
         s' = { s with ports := s'.ports }) ∧
       (∃ s', exec (.cqHead p r ⟨false, 0, size, v⟩) s = .next s' ∧ (s'.port p.val).bar0 = some (.data x.dbHead 0) ∧
         s' = { s with ports := s'.ports })) ∧
     (∀ off : Fin 8, (size ≠ 4 ∧ size ≠ 8) ∨ off.val % size ≠ 0 → ∃ s', exec (.sqTail p r ⟨true, off, size, v⟩) s = .next s' ∧
       (s'.port p.val).aer = (s.port p.val).aer ++ [.discarded] ∧ s' = { s with ports := s'.ports }) ∧
     (∀ off : Fin 4088, (size ≠ 4 ∧ size ≠ 8) ∨ (8 + off.val) % size ≠ 0 → ∃ s', exec (.cqHead p r ⟨false, off, size, v⟩) s = .next s' ∧
       (s'.port p.val).aer = (s.port p.val).aer ++ [.unsupported] ∧ s' = { s with ports := s'.ports })) ∧
  (∀ (p : Fin 2) (r : Fin 64) (s : State),
     let x := s.ring p.val r.val
     let a := hostAddr p.val (s.fget (blkJI p.val) F.JI.RING_SQ_BASE.BASE (64 * r.val) * 4096 + x.head % s.sqSize p.val r.val / 8 * 512)
     (s.alive = true → s.fetchStopped p.val = false →
       ((List.range 64).map (fun i => ((s.port p.val).rr + i) % 64)).find? (fun i => s.fetchable p.val i) = some r.val →
       ∃ s' id, exec (.submissionFetch p r) s = .next s' ∧ s'.ring p.val r.val = { x with fetch := some ⟨x.head, false⟩, mismatch := none } ∧
         s'.hostReads = s.hostReads ++ [⟨id, p.val, .fetch r.val, a, 512⟩] ∧ (s'.port p.val).rr = (r.val + 1) % 64 ∧ s'.jobs = s.jobs) ∧
     (∀ t, x.mismatch = some t → s.alive = true → x.state = .running → x.fetch = none → t + 1400 ≤ s.clk.arith →
       s.fetchStopped p.val = false → s.inboundWaits p.val = false →
       ∃ s' id, exec (.seqReread p r) s = .next s' ∧ s'.ring p.val r.val = { x with fetch := some ⟨x.head, true⟩, mismatch := none } ∧
         s'.hostReads = s.hostReads ++ [⟨id, p.val, .fetch r.val, a, 512⟩]) ∧
     (∀ (f : Fetch) (words : List Word), x.fetch = some f → (s.port p.val).link = true →
       (∃ s', exec (.submissionBlockReturn p r words true) s = .next s' ∧ (s'.ring p.val r.val).state = .error ∧
         (s'.ring p.val r.val).cause = 4 ∧ (s'.ring p.val r.val).fetch = none ∧ s'.jobs = s.jobs) ∧
       (let w := ((words.map BitVec.toNat).drop (x.head % 8 * 8)).take 8
        x.head ≠ x.tail → s.releasing p.val w = false → bits (w.getD 0 0) 0 8 ≠ x.head % 256 →
         ∃ s', exec (.submissionBlockReturn p r words false) s = .next s' ∧ s'.jobs = s.jobs ∧
           if f.reread = true ∧ f.first = x.head then (s'.ring p.val r.val).state = .error ∧ (s'.ring p.val r.val).cause = 3
           else s'.ring p.val r.val = { x with fetch := none, mismatch := some s.clk.arith }) ∧
       (let w := ((words.map BitVec.toNat).drop (x.head % 8 * 8)).take 8
        let j := jobOf ⟨p.val, r.val, x.head⟩ w
        x.head ≠ x.tail → (x.head + 1) % 2 ^ 32 = x.tail → s.releasing p.val w = false → bits (w.getD 0 0) 0 8 = x.head % 256 →
         (s.descStatus j w).1 = 0 → ∃ s', exec (.submissionBlockReturn p r words false) s = .next s' ∧ s'.jobs = s.jobs ++ [j] ∧
           s'.ring p.val r.val = { x with fetch := none, head := x.tail } ∧ s'.mem = s.mem)))

/-! ### Jobs (chapters 2 and 7) -/

/-- R162, R169, R380: a RUN whose turn has come reads its image and waits for entries with the roots that its records give, its own class and
level in place of theirs, or ends with BAD_FIELD where its header is bad; one that names a withdrawn quarter ends with DEVICE_FAULT, one that names a quarter whose dispatch is stopped with
its report; roots enter the task table together, not yet eligible.
R162, R331: roots that are held become eligible together, at once where no launch time is set, else when the count has reached it; a copy that
the time held goes on; a job starts late where its time has passed. -/
def Obligations.RunJobs : Prop :=
  (∀ (j : JobId) (x : Job) (s : State), s.job? j = some x →
     (x.kind = 0 → x.phase = .taken → s.startable x = true → x.status = 0 →
       (∀ q, State.maskQ x (fun q => s.qState q == 5) = some q → ∃ s', exec (.run j) s = .next s' ∧
         s'.job? j = some { x with status := 0x30, errRef := none, endAt := s.ctrl + 1, phase := .ended, gtcEnd := s.now } ∧ s'.mem = s.mem) ∧
       (State.maskQ x (fun q => s.qState q == 5) = none →
         ∀ q, State.maskQ x (fun q => s.fbit (blkTSCHED q) F.TSCHED.SCHED_STATUS.STOPPED) = some q → ∃ s', exec (.run j) s = .next s' ∧
         s'.job? j = some { x with status := 0x21, errRef := (s.wd q).errRef, endAt := s.ctrl + 1, phase := .ended, gtcEnd := s.now } ∧
         s'.mem = s.mem) ∧
       ((∀ q, q < 4 → bit x.qmask q = true → s.qState q ≠ 5 ∧ s.fbit (blkTSCHED q) F.TSCHED.SCHED_STATUS.STOPPED = false) →
         let who : Who := .port x.id.port
         let s1 := s.spanTouch who x.addrA 64
         let h := s1.viewNat x.addrA 64
         let a := x.addrA + hdrOff h
         let n := hdrNroot h
         let s2 := s1.spanTouch who a (64 * n)
         let vs := s2.rootsOf x h
         s.spanAdm who x.addrA 64 false ≠ .refuse → s1.readPoison x.addrA 64 = false →
         (hdrOk h x.len = false → ∃ s', exec (.run j) s = .next s' ∧
           s'.job? j = some { x with status := 0x11, errRef := none, endAt := s.ctrl + 1, phase := .ended, gtcEnd := s.now }) ∧
         (hdrOk h x.len = true → s1.spanAdm who a (64 * n) false ≠ .refuse →
           (∀ e ∈ vs, s2.readPoison e.1 64 = false ∧ recOk e.2 x.qmask true = true) →
           (∀ q, q < 4 → rootsFor (vs.map (fun e => (e.1, rootRec x e.2))) q ≤ 16384) → ∃ s', exec (.run j) s = .next s' ∧
             s'.job? j = some { x with phase := .rootsWait, roots := vs.map (fun e => (e.1, rootRec x e.2)), handleOut := hdrOut h,
                                       launch := if x.launch ≤ s.now then 0 else x.launch } ∧ s'.tasks = s.tasks))) ∧
     (x.phase = .rootsWait → s.alive = true → s.roomFor x = true → (s.earlier j).any (fun y => y.phase == .rootsWait) = false →
       (∀ e ∈ x.roots, e.2.q < 4) →
       let t := s.takeRoots j x.roots
       let s1 := t.1.updJob j (fun y => { y with phase := .rootsHeld })
       (x.handleOut = 0 ∨ s1.spanAdm (.port x.id.port) x.handleOut (t.2.flatMap (leBytes 4)).length true ≠ .refuse) →
       ∃ s', exec (.rootLoad j) s = .next s' ∧ s'.job? j = some { x with phase := .rootsHeld } ∧
         (∀ e ∈ x.roots, ∃ k, (s.entry k).used = false ∧ (s'.entry k).used = true ∧ (s'.entry k).job = j ∧ (s'.entry k).addr = e.1 ∧
           (s'.entry k).trec = e.2 ∧ (s'.entry k).eligible = false) ∧
         (∀ k, (s.entry k).used = true → s'.entry k = s.entry k) ∧ (x.handleOut = 0 → s'.mem = s.mem))) ∧
  (∀ (j : JobId) (x : Job) (s : State), s.job? j = some x → s.alive = true →
     let open_ (s' : State) : Prop := s'.job? j = some { x with phase := .running, launch := 0 } ∧
       (∀ k, (s.entry k).used = true → (s.entry k).job = j → (s'.entry k).eligible = true ∧
         (s'.entry k).trec = (s.entry k).trec ∧ (s'.entry k).flags = (s.entry k).flags) ∧
       (∀ k, ((s.entry k).used = false ∨ (s.entry k).job ≠ j) → s'.entry k = s.entry k) ∧
       s' = { s with tasks := s'.tasks, jobs := s'.jobs }
     (x.phase = .rootsHeld → x.launch = 0 → ∃ s', exec (.rootsEligible j) s = .next s' ∧ open_ s') ∧
     (x.launch ≠ 0 → x.launch ≤ s.now → x.phase = .rootsHeld → ∃ s', exec (.launchRelease j) s = .next s' ∧ open_ s') ∧
     (x.launch ≠ 0 → x.launch ≤ s.now → x.phase = .begun → ∃ s', exec (.launchRelease j) s = .next s' ∧
       s'.job? j = some { x with launch := 0 } ∧ s' = { s with jobs := s'.jobs }) ∧
     (x.launch ≠ 0 → s.now < x.launch → exec (.launchRelease j) s = .next s ∧ exec (.rootsEligible j) s = .next s))

/-- R35, R426, R427: a copy in reads the next 64 B of the host, whose answer is written to device memory or given to the waiting load; a copy out
writes the next 64 B to the host as the device memory shows them; a read that fails is logged, and ends its job or its ring or faults its load. -/
def Obligations.CopiesAndHostReads : Prop :=
  let copied (x : Job) (s : State) : Job :=
    if x.done + 1 = x.len / 64 then
      { x with done := x.done + 1, status := if x.spoilt.isNone then 0 else 0x20, errRef := x.spoilt, endAt := s.ctrl + 1,
               phase := .ended, gtcEnd := s.now }
    else { x with done := x.done + 1 }
  (∀ (j : JobId) (x : Job) (s : State), s.job? j = some x → s.alive = true →
    (x.kind = 1 → x.phase = .begun → x.launch = 0 → x.issued < x.len / 64 → ∃ s' id, exec (.copyIn j) s = .next s' ∧
      s'.hostReads = s.hostReads ++ [⟨id, j.port, .copyIn j (x.addrB + 64 * x.issued), x.addrA + 64 * x.issued, 64⟩] ∧
      s'.job? j = some { x with issued := x.issued + 1 } ∧ s'.mem = s.mem) ∧
    (x.id = j → x.phase = .taken → s.startable x = true → (x.kind = 1 → ∃ s', exec (.copyIn j) s = .next s' ∧
        s'.job? j = some { x with phase := .begun, launch := if x.launch ≤ s.now then 0 else x.launch }) ∧
      (x.kind = 2 → ∃ s', exec (.copyOut j) s = .next s' ∧
        s'.job? j = some { x with phase := .begun, launch := if x.launch ≤ s.now then 0 else x.launch })) ∧
    (x.kind = 2 → x.phase = .begun → x.launch = 0 → x.issued < x.len / 64 →
      let who : Who := .port j.port
      let a := x.addrA + 64 * x.issued
      let s1 := (s.issued j).spanTouch who a 64
      s.spanAdm who a 64 false = .go → (s.port j.port).d3hot = false → (s.port j.port).link = true →
      (∀ b ∈ blocksOf a 64, s1.readPoison b.1 b.2 = false) → ∃ s', exec (.copyOut j) s = .next s' ∧
        (∀ i, i < 64 → s'.host.byte (x.addrB + 64 * x.issued + i) = s1.viewByte (a + i)) ∧
        BytesOutside s.host s'.host (x.addrB + 64 * x.issued) 64 ∧
        s'.job? j = some (copied { x with issued := x.issued + 1 } s))) ∧
  (∀ (id data : Nat) (ep : Bool) (h : HostRead) (s : State), s.hostReads.find? (fun y => y.id == id) = some h → (s.port h.port).link = true →
    (∀ (i : Nat) (r : Req), h.for_ = .request i → s.req? i = some r → ∃ s', exec (.hostReadCompletion id data ep) s = .next s' ∧
      s'.req? i = some { r with answer := some (.data (data % 2 ^ (8 * r.size)) (if ep then r.cwMask else 0)) } ∧
      s'.hostReads = s.hostReads.filter (fun y => y.id != h.id) ∧ s'.mem = s.mem) ∧
    (∀ (j : JobId) (dst : Nat) (x : Job), h.for_ = .copyIn j dst → s.job? j = some x → x.phase = .begun →
      s.spanAdm (.port j.port) dst 64 true = .go → ∃ s', exec (.hostReadCompletion id data ep) s = .next s' ∧
      s'.job? j = some (copied x s) ∧ s'.hostReads = s.hostReads.filter (fun y => y.id != h.id) ∧
      (Plain s → InStacks dst 64 → ep = false → (∀ i, i < 64 → s'.mem.byte (dst + i) = BitVec.ofNat 8 (data / 256 ^ i)) ∧
        BytesOutside s.mem s'.mem dst 64))) ∧
  (∀ (id : Nat) (h : HostRead) (s : State), s.hostReads.find? (fun y => y.id == id) = some h →
    let logged (s' : State) : Prop := (s'.port h.port).aer = (s.port h.port).aer ++ [.hostReadFailed] ∧ s'.mem = s.mem
    (∀ (i : Nat) (r : Req), h.for_ = .request i → s.req? i = some r → r.posted = false →
      ∃ s', exec (.hostReadFailure id) s = .next s' ∧ logged s' ∧ s'.req? i = some { r with answer := some (.refused 0x04) }) ∧
    (∀ (j : JobId) (dst : Nat) (x : Job), h.for_ = .copyIn j dst → s.job? j = some x → x.status = 0 → x.phase = .begun →
      ∃ s', exec (.hostReadFailure id) s = .next s' ∧ logged s' ∧
        s'.job? j = some { x with status := 0x13, errRef := some s.err.nextId, endAt := s.ctrl + 1, phase := .ended, gtcEnd := s.now }) ∧
    (∀ r : Nat, h.for_ = .fetch r → ∃ s', exec (.hostReadFailure id) s = .next s' ∧ logged s' ∧ (s'.ring h.port r).state = .error ∧
      (s'.ring h.port r).cause = 4))

/-- R37, R38, R39, R41: a FENCE whose earlier jobs have completed ends with status 1; a job without work writes its record at the next place of
the completion ring with the phase bit of that lap, or holds it where the ring is full, and is gone; the coalescing time raises the ring's
vector.
R45, R169, R382: CANCEL as an aligned 8-byte write ends the job with status 0x22 and stops its tasks; of a job that has an end already, of a FENCE and of
no job it changes nothing; as a 4-byte write it is a register-access error. -/
def Obligations.JobsEnd : Prop :=
  ((∀ (j : JobId) (x : Job) (s : State), s.job? j = some x →
     (x.kind = 3 → x.phase = .taken → x.status = 0 → s.earlier j = [] → ∃ s', exec (.fence j) s = .next s' ∧
       s'.job? j = some { x with status := 1, errRef := none, endAt := s.ctrl + 1, phase := .ended, gtcEnd := s.now } ∧ s'.mem = s.mem) ∧
     (s.completable x = true →
       let s1 := s.applyAddsOf j
       let y := s1.ring j.port j.ring
       let n := s1.cqSize j.port j.ring
       let a := hostAddr j.port (s1.fget (blkJI j.port) F.JI.RING_CQ_BASE.BASE (64 * j.ring) * 4096 + y.written % n * 32)
       (x.noRecord = true → ∃ s', exec (.jobComplete j) s = .next s' ∧ s'.job? j = none ∧ s'.rings = s1.rings ∧ s'.host = s1.host) ∧
       (x.noRecord = false → (y.held ≠ [] ∨ s1.cqFull j.port j.ring = true ∨ (s1.port j.port).d3hot = true) → ∃ s' c,
         exec (.jobComplete j) s = .next s' ∧ s'.job? j = none ∧ s'.ring j.port j.ring = { y with held := y.held ++ [c] } ∧
         c.tag = x.tag ∧ c.status = x.status ∧ c.user = x.user ∧ s'.host = s1.host) ∧
       (x.noRecord = false → y.held = [] → s1.cqFull j.port j.ring = false → (s1.port j.port).d3hot = false →
         ∃ s' d, exec (.jobComplete j) s = .next s' ∧ s'.job? j = none ∧ (s'.ring j.port j.ring).written = (y.written + 1) % 2 ^ 32 ∧
         d = (if x.status ≤ 1 then 0 else s1.seqOf x.errRef) ∧ ((s1.port j.port).link = true → s'.host.read a 32 = CplRec.bytes ⟨x.tag, y.head, x.status,
             1 - y.written / n % 2, j.ring, d, x.user, if x.gtcEnd = 0 then s1.now else x.gtcEnd, x.irq⟩ ∧ BytesOutside s1.host s'.host a 32) ∧
         ((s1.port j.port).link = false → s'.host = s1.host)))) ∧
   (∀ (p : Fin 2) (r : Fin 64) (s : State),
     let x := s.ring p.val r.val
     let t := s.fget (blkJI p.val) F.JI.RING_CQ_CTL.COAL_TIME (64 * r.val)
     let v := s.fget (blkJI p.val) F.JI.RING_CQ_CTL.VECTOR (64 * r.val)
     0 < x.coalN → t ≠ 0 → x.coalAt + 1024 * t ≤ s.clk.arith → ∃ s', exec (.coalTimerExpire p r) s = .next s' ∧
       s'.ring p.val r.val = { x with coalN := 0 } ∧ ((s.port p.val).masked.getLsbD v = false →
         Sparse.get 0 (s'.port p.val).raised v = Sparse.get 0 (s.port p.val).raised v + 1) ∧
       s' = { s with rings := s'.rings, ports := s'.ports })) ∧
  (∀ (p : Fin 2) (v : Word) (s : State),
     let j : JobId := ⟨p.val, bits v.toNat 0 6, bits v.toNat 32 32⟩
     (∀ x, s.job? j = some x → x.kind ≠ 3 → x.noRecord = false → x.status = 0 → x.phase ≠ .ended → ∃ s', exec (.cancel p 8 v) s = .next s' ∧
       (s'.job? j = some (if x.phase = .running then { x with status := 0x22, errRef := none, endAt := s.ctrl + 1 }
         else { x with status := 0x22, errRef := none, endAt := s.ctrl + 1, phase := .ended, gtcEnd := s.now })) ∧
       (∀ k, (s.thread k).st ≠ .free → (s.thread k).job = j → (s'.thread k).st = .stopped) ∧
       (∀ k, (s.thread k).st = .free → (s'.thread k).st = .free) ∧ s'.mem = s.mem) ∧
     ((∀ x ∈ s.job? j, x.kind = 3 ∨ x.noRecord = true ∨ x.status ≠ 0 ∨ x.phase = .ended) →
       exec (.cancel p 8 v) s = .next s) ∧
     (∃ s', exec (.cancel p 4 v) s = .next s' ∧ s' = { s with regs := s'.regs } ∧
       s'.fget blkSILPAOT F.SILPAOT.BLK_LOG.REG_ACCESS (8 * blkJI p.val) =
         min (s.fget blkSILPAOT F.SILPAOT.BLK_LOG.REG_ACCESS (8 * blkJI p.val) + 1) (2 ^ F.SILPAOT.BLK_LOG.REG_ACCESS.w - 1)))

/-- R42, R43: a release marks the port's quarters and is in progress until no job of the port uses them; an acquire of quarters that the peer
owns or is promised is refused, one of others gives them at once, or once those in standby are ready; a takeover needs a lost peer. -/
def Obligations.Partitions : Prop :=
  ∀ (p : Fin 2) (m : BitVec 4) (s : State),
    let x := s.port p.val
    let res (s' : State) : Nat := s'.fget (blkJI p.val) F.JI.STATUS.PART_RESULT
    (let rel := x.relMask ||| BitVec.ofNat 4 (m.toNat &&& s.ownedMask p.val)
     m ≠ 0 → ∃ s', exec (.release p m) s = .next s' ∧ res s' = (if rel = 0 ∧ x.wakeMask = 0 ∧ x.acqMask = 0 then 2 else 1) ∧
      s'.port p.val = { x with relMask := rel } ∧
      s' = { s with ports := s'.ports, regs := s'.regs }) ∧
    (m.toNat &&& (s.ownedMask (1 - p.val) ||| (s.port (1 - p.val)).acqMask.toNat) ≠ 0 → ∃ s', exec (.acquire p m) s = .next s' ∧ res s' = 3 ∧
      s'.ownedMask p.val = s.ownedMask p.val ∧ s' = { s with regs := s'.regs }) ∧
    (m ≠ 0 → m.toNat &&& (s.ownedMask (1 - p.val) ||| (s.port (1 - p.val)).acqMask.toNat) = 0 → s.ownedMask p.val < 16 → ∃ s', exec (.acquire p m) s = .next s' ∧
      s'.ownedMask p.val = s.ownedMask p.val ||| m.toNat ∧ s'.ownedMask (1 - p.val) = s.ownedMask (1 - p.val) ∧
      s' = { s with ports := s'.ports, regs := s'.regs } ∧
      (x.relMask = 0 → x.wakeMask = 0 → (∀ q, q < 4 → bit m.toNat q = true → s.qState q ≠ 2 ∧ s.qState q ≠ 3 ∧ s.qState q ≠ 4) → res s' = 2) ∧
      (∀ q, q < 4 → bit m.toNat q = true → s.qState q = 3 → s'.qState q = 4 ∧ res s' = 1)) ∧
    ((s.port (1 - p.val)).lost = true → ∃ s', exec (.takeover p m) s = .next s' ∧ res s' = 1 ∧ s'.port p.val = { x with acqMask := m }) ∧
    ((s.port (1 - p.val)).lost = false → ∃ s', exec (.takeover p m) s = .next s' ∧ res s' = 3 ∧ s' = { s with regs := s'.regs }) ∧
    (x.relMask ≠ 0 → s.ownedMask p.val < 16 →
      s.jobs.any (fun j => j.id.port == p.val && j.kind == 0 && j.qmask &&& x.relMask.toNat != 0) = false →
      ∃ s', exec (.partDone p) s = .next s' ∧ (s'.port p.val).relMask = 0 ∧
        s'.ownedMask p.val = s.ownedMask p.val - (s.ownedMask p.val &&& x.relMask.toNat) ∧ (x.wakeMask = 0 → res s' = 2)) ∧
    (x.relMask = 0 → x.acqMask ≠ 0 → s.ownedMask p.val < 16 → s.jobs.any (fun j => j.id.port == 1 - p.val) = false →
      ∃ s', exec (.partDone p) s = .next s' ∧ (s'.port p.val).acqMask = 0 ∧
        s'.ownedMask (1 - p.val) = (if (s.port (1 - p.val)).lost then 0 else s.ownedMask (1 - p.val)) ∧
        s'.ownedMask p.val = s.ownedMask p.val ||| x.acqMask.toNat ∧ res s' = 2)

/-! ### Registers (R5 to R9, R27) and homes (chapters 1, 3, 12) -/

/-- R5, R7, R9: a read of a bad size, or of a block out of service, returns all ones and is counted; of an offset without fields, zero; of a register
with one field, that field at its place; a good read changes nothing.
R27, R30: an access through BAR4 goes to the aperture's base plus its offset, one through BAR2 to the register region's: a read brings
what device memory or the register shows, a write stores there and nowhere else; an unmapped one completes with UR or is discarded, and
is logged; an unlisted register block reads all ones; behind accesses that wait, an access waits. -/
def Obligations.RegisterReads : Prop :=
  (∀ (n off size : Nat) (k : BlockKind) (s : State), blockKind n = some k →
     let e := (s.regRead n off size).2
     let counted : Prop := (s.regRead n off size).1 = 2 ^ (8 * size) - 1 ∧ e = { s with regs := e.regs } ∧
       e.fget blkSILPAOT F.SILPAOT.BLK_LOG.REG_ACCESS (8 * n) =
         min (s.fget blkSILPAOT F.SILPAOT.BLK_LOG.REG_ACCESS (8 * n) + 1) (2 ^ 32 - 1) ∧
       e.fget blkSILPAOT F.SILPAOT.BLK_LOG.LAST_OFFSET (8 * n) = off % 2 ^ 20 ∧ e.fget blkSILPAOT F.SILPAOT.BLK_LOG.LAST_WRITE (8 * n) = 0
     (sizeOk off size = false → counted) ∧ (sizeOk off size = true → s.blockGone n = true → counted) ∧
     (sizeOk off size = true → s.blockGone n = false → k ≠ .mesh → k ≠ .pcie → e = s ∧
       (∀ o, isObj k (off / 8 * 8) = false → fieldsAt k (off / 8 * 8) = o → (o = [] → (s.regRead n off size).1 = 0) ∧
         (∀ f, o = [f] → size = 8 → f.lo + f.w ≤ 64 →
           (s.regRead n off size).1 = s.fieldView k (blockOf n) f (off / 8 * 8 - f.reg) % 2 ^ f.w * 2 ^ f.lo)))) ∧
  (∀ (p : Fin 2) (off : BitVec 32) (size v : Nat) (s : State),
     let a := s.fget (blkJI p.val) F.JI.APERTURE_BASE.BASE * 2 ^ 32 + off.toNat
     let a2 := regsBase + off.toNat
     let who : Who := .port p.val
     let x := s.port p.val
     x.link = true → x.d3hot = false → 0 < size → off.toNat + size ≤ 2 ^ 32 →
     (s.alive = true → s.inboundWaits p.val = true → ∀ write, ∃ s', exec (.bar4ApertureAccess p write (.bar4 off) size v) s = .next s' ∧
       s'.port p.val = { x with inq := x.inq ++ [⟨write, a, size, v % 2 ^ (8 * size)⟩] } ∧ s' = { s with ports := s'.ports }) ∧
     (s.inboundWaits p.val = false →
       (s.alive = true → mapped a false = false → unlisted a = false →
         (∃ s', exec (.bar4ApertureAccess p false (.bar4 off) size v) s = .next s' ∧
           s'.port p.val = { x with aer := x.aer ++ [.unsupported], bar4 := some (.refused 0) } ∧
           s' = { s with ports := s'.ports, regs := s'.regs }) ∧
         (∃ s', exec (.bar4ApertureAccess p true (.bar4 off) size v) s = .next s' ∧
           s'.port p.val = { x with aer := x.aer ++ [.discarded] } ∧ s' = { s with ports := s'.ports, regs := s'.regs })) ∧
       (s.regsOn = true → unlisted a2 = true → ∃ s', exec (.bar4ApertureAccess p false (.bar2 off) size v) s = .next s' ∧
         s'.port p.val = { x with aer := x.aer ++ [.unsupported], bar4 := some (.data (2 ^ (8 * size) - 1) 0) } ∧
         s' = { s with ports := s'.ports, regs := s'.regs }) ∧
       (∀ m o o', s.regsOn = true → region a2 = .regs m o → region (a2 + size - 1) = .regs m o' → (blockKind m).isSome = true →
         ∃ s', exec (.bar4ApertureAccess p false (.bar2 off) size v) s = .next s' ∧
         (s'.port p.val).bar4 = some (.data (s.regRead m o size).1 0) ∧ s' = { (s.regRead m o size).2 with ports := s'.ports }) ∧
       (s.alive = true → InStacks a size → s.spanAdm who a size false = .go →
         let s1 := s.spanTouch who a size
         ∃ s', exec (.bar4ApertureAccess p false (.bar4 off) size v) s = .next s' ∧
           (s'.port p.val).bar4 = some (.data (s1.viewNat a size) (b2n ((blocksOf a size).any (fun b => s1.readPoison b.1 b.2)))) ∧
           s' = { s1 with ports := s'.ports }) ∧
       (InStacks a size → Plain s → ∃ s', exec (.bar4ApertureAccess p true (.bar4 off) size v) s = .next s' ∧
         s' = { s with mem := s'.mem, regs := s'.regs, wbacks := s'.wbacks } ∧
         (∀ i, i < size → s'.mem.byte (a + i) = BitVec.ofNat 8 (v % 2 ^ (8 * size) / 256 ^ i)) ∧ BytesOutside s.mem s'.mem a size)))

/-- R5, R6, R7, R27: an 8-byte write gives every field of a plain block the value its access code says, reserved encodings leaving it as it
was, and touches no other register; a 4-byte write leaves the fields of the other half; a write of a bad size, of a block out of service or by a
requester without the right is counted and has no other effect; so is one to no block; without clocks or in reset nothing is written. -/
def Obligations.RegisterWrites : Prop :=
  ∀ (rq : Requester) (addr v : Word) (size n off : Nat) (s : State), region addr.toNat = .regs n off →
    (s.regsUp rq n = false → exec (.registerWrite rq addr size v) s = .next s) ∧
    (∀ p : Fin 2, rq = .port p → s.regsUp rq n = true → blockKind n = none → ∃ s', exec (.registerWrite rq addr size v) s = .next s' ∧
      s'.fget blkFAB F.FAB.UNMAPPED_COUNT.COUNT = min (s.fget blkFAB F.FAB.UNMAPPED_COUNT.COUNT + 1) (2 ^ 32 - 1) ∧
      s'.fget blkFAB F.FAB.UNMAPPED_ADDR.ADDR = addr.toNat % 2 ^ 49 ∧ (s'.port p.val).aer = (s.port p.val).aer ++ [.discarded] ∧
      s' = { s with regs := s'.regs, ports := s'.ports }) ∧
    ∀ k : BlockKind, s.regsUp rq n = true → blockKind n = some k →
      (sizeOk off size = false ∨ s.blockGone n = true ∨ (k ≠ .qctl ∧ s.mayWrite rq (blockOf n) (off / 8 * 8) = false) →
        ∃ s', exec (.registerWrite rq addr size v) s = .next s' ∧ s' = { s with regs := s'.regs } ∧
          s'.fget blkSILPAOT F.SILPAOT.BLK_LOG.REG_ACCESS (8 * n) =
            min (s.fget blkSILPAOT F.SILPAOT.BLK_LOG.REG_ACCESS (8 * n) + 1) (2 ^ 32 - 1) ∧
          s'.fget blkSILPAOT F.SILPAOT.BLK_LOG.LAST_OFFSET (8 * n) = off ∧
          s'.fget blkSILPAOT F.SILPAOT.BLK_LOG.LAST_WRITE (8 * n) = 1 ∧
          ∀ b f i, b ≠ blkSILPAOT → f.reg + i < 0x100000 → f.lo < 64 → s'.fget b f i = s.fget b f i) ∧
      (k ∈ [BlockKind.clk, .fab, .press, .strm, .tsched, .id, .f] → sizeOk off size = true → s.blockGone n = false →
        s.mayWrite rq n (off / 8 * 8) = true → ∃ s', exec (.registerWrite rq addr size v) s = .next s' ∧ s' = { s with regs := s'.regs } ∧
          (∀ b f i, fkey b f i / 64 ≠ n * 0x100000 + off / 8 * 8 → s'.fget b f i = s.fget b f i) ∧
          (∀ f ∈ fieldsAt k (off / 8 * 8), (∀ g ∈ fieldsAt k (off / 8 * 8), g ≠ f → g.lo ≠ f.lo) →
            let i := off / 8 * 8 - f.reg
            let x := bits v.toNat f.lo f.w
            let old := s.fget n f i
            (size = 8 → s'.fget n f i = match f.acc with
              | .rw => if f.lim.ok x then x else old
              | .w1c => (old - (old &&& x)) % 2 ^ f.w
              | .w1s => (old ||| x) % 2 ^ f.w
              | _ => old) ∧
            (size = 4 → f.touched (some (off % 8 == 4)) = false → s'.fget n f i = old)))

/-- R8, R11, R420, R422: firmware's write of a greater SVN_FLOOR commits one Ledger record with the old and the new value, and takes effect; one that does not
raise it, or that the life limit of 255 forbids, changes nothing; of any other requester it is an error that the Ledger does not see. A spare core takes the number of one that failed; that an offset of QCTL names
that number is the model's choice (log entry 38). -/
def Obligations.LedgerChanges : Prop :=
  ∀ (v : Word) (s : State),
    let b := blkSILPAOT
    let old := s.fget b F.SILPAOT.SVN_FLOOR.FLOOR
    let new := v.toNat % 256
    let n := s.fget b F.SILPAOT.LEDGER_SEQ.SEQ
    (old < new → s.ledgerUsed 1 0 < 255 → ∃ s', exec (.ledgerChange .firmware 0x440 0x30 v) s = .next s' ∧
      s'.fget b F.SILPAOT.SVN_FLOOR.FLOOR = new ∧ s'.fget b F.SILPAOT.LEDGER_SEQ.SEQ = (n + 1) % 2 ^ 32 ∧
      s'.trust.ledger = s.trust.ledger ++ [⟨n, 1, 0, old, new, s.now, s.trust.colds, 3⟩] ∧ s' = { s with regs := s'.regs, trust := s'.trust }) ∧
    (new ≤ old ∨ 255 ≤ s.ledgerUsed 1 0 → exec (.ledgerChange .firmware 0x440 0x30 v) s = .next s) ∧
    (∀ (rq : Requester) (blk : BitVec 12) (off : BitVec 20), isFw rq = false → lwFields blk.toNat off.toNat ≠ [] →
      ∃ s', exec (.ledgerChange rq blk off v) s = .next s' ∧ s' = { s with regs := s'.regs } ∧
        s'.fget b F.SILPAOT.BLK_LOG.REG_ACCESS (8 * blk.toNat) =
          min (s.fget b F.SILPAOT.BLK_LOG.REG_ACCESS (8 * blk.toNat) + 1) (2 ^ 32 - 1)) ∧
    (∀ (q : Fin 4) (c i : Nat), c < 1024 → i < 32 → s.ledgerUsed 5 q.val < 32 →
      (∀ x, x < 1024 → corePlace s.trust.cores q.val x ≠ 1024 + i) →
      ∃ s', exec (.ledgerChange .firmware (BitVec.ofNat 12 (0x100 * q.val)) (BitVec.ofNat 20 (8 * c)) (BitVec.ofNat 64 i)) s = .next s' ∧
        corePlace s'.trust.cores q.val c = 1024 + i ∧ s'.fget b F.SILPAOT.LEDGER_SEQ.SEQ = (n + 1) % 2 ^ 32 ∧
        s' = { s with regs := s'.regs, trust := s'.trust })

/-- R57, R66, R172, R249, R280, R300: a request at its home in a scratch is performed there: a store writes its bytes and no others and is
acknowledged, a load brings what is there, an AMO brings the old value and stores the new one; at a stack controller with room it joins the
queue and takes effect in order of arrival, without room it waits; one that its home refuses is answered with 0x04.
R285, R286, R300: the line a miss waited for takes its way, and the request is performed on it: it is held by the cache then, and the miss
is gone. -/
def Obligations.HomesAndFills : Prop :=
  (∀ (r : Req) (k : Nat) (s : State), s.arrived r.id = some r → r.who = .thread k → s.inOrder r = true → s.oadds = [] →
     let write := r.isSt || r.isAmo
     let cmd : Instr := if r.isAmo then .amoAtHome r.id else .homeAccess r.id
     let here : Prop := route (homeNode r.addr) (threadIface k).node = []
     let acked (s' : State) : Prop := (¬here → s'.req? r.id = some { r with answer := some .ack }) ∧ (here → s'.req? r.id = none)
     (∀ c, region r.addr = .scratch c → s.admission (.thread k) r.addr r.size write r.isAmo = .go → s.isOrdered r = false →
       (r.op = .st → r.bad = 0 → ∃ s', exec cmd s = .next s' ∧ acked s' ∧
         (∀ i, i < r.size → s'.mem.byte (r.addr + i) = BitVec.ofNat 8 (r.data / 256 ^ i)) ∧ BytesOutside s.mem s'.mem r.addr r.size ∧
         s'.threads = s.threads) ∧
       (r.op = .ld ∨ r.op = .spawn ∨ r.op = .fetch → ∃ s', exec cmd s = .next s' ∧ s'.mem = s.mem ∧
         s'.req? r.id = some { r with answer := some (.data (s.viewNat r.addr r.size) (s.readBad r.addr r.size)) }) ∧
       (∀ fn, r.op = .amo fn → s.readPoison r.addr r.size = false → r.bad &&& r.cwMask = 0 → ∃ s', exec cmd s = .next s' ∧
         (r.rd = 0 → acked s') ∧
         (r.rd ≠ 0 → s'.req? r.id = some { r with answer := some (.data (s.viewNat r.addr r.size) 0) }) ∧
         (∀ i, i < r.size → s'.mem.byte (r.addr + i) = BitVec.ofNat 8 (amoOp fn (s.viewNat r.addr r.size) r.data / 256 ^ i)) ∧
         BytesOutside s.mem s'.mem r.addr r.size)) ∧
     (∀ q, region r.addr = .stack q → s.admission (.thread k) r.addr r.size write r.isAmo = .go → s.isOrdered r = false →
       s.cacheOn q = false → s.clines = [] → s.inPc r.id = false →
       (r.op = .st → r.bad = 0 → s.roomAt r.addr true (r.cls == Cls.lat) = true → ∃ s', exec cmd s = .next s' ∧ acked s' ∧
         (s'.pcOf r.addr).queue = (s.pcOf r.addr).queue ++ [⟨.req r.id, r.addr, r.size, true, r.cls == Cls.lat, s.clk.arith, 0, 0, []⟩] ∧
         (∀ i, i < r.size → s'.mem.byte (r.addr + i) = BitVec.ofNat 8 (r.data / 256 ^ i)) ∧ BytesOutside s.mem s'.mem r.addr r.size) ∧
       (r.op = .ld → s.queuedWrite r.addr = false → s.roomAt r.addr false (r.cls == Cls.lat) = true → ∃ s' x, exec cmd s = .next s' ∧
         (s'.pcOf r.addr).queue = (s.pcOf r.addr).queue ++ [x] ∧ x.for_ = .req r.id ∧ x.write = false ∧ x.v = s.viewNat r.addr r.size ∧
         s'.mem = s.mem) ∧
       (r.op = .st → s.roomAt r.addr true (r.cls == Cls.lat) = false → exec cmd s = .next s)) ∧
     (inDevMem r.addr = true → r.posted = false → s.admission (.thread k) r.addr r.size write r.isAmo = .refuse → ∃ s', exec cmd s = .next s' ∧
       s'.req? r.id = some { r with answer := some (.refused 0x04) } ∧ s'.mem = s.mem)) ∧
  (∀ (id : Nat) (m : Miss) (r : Req) (q : Nat) (s : State), s.misses.find? (fun x => x.req == id && x.ready) = some m → s.alive = true →
     s.req? id = some r → region r.addr = .stack q → m.line = r.addr / 256 → lineQ m.line = q → s.cacheOn q = true → s.oadds = [] →
     s.fbit (blkCELLAR q) F.CELLAR.CACHE_STATUS.DISABLING = false → s.admission (.thread r.key) r.addr r.size (r.isSt || r.isAmo) r.isAmo = .go →
     s.holdsLine m.line = false → s.canAlloc m.line = true → r.op = .ld → ∃ s', exec (.cacheMissFill id) s = .next s' ∧
       s'.holdsLine m.line = true ∧ (∀ x ∈ s'.misses, x.req ≠ id) ∧
       s'.req? id = some { r with answer := some (.data (s'.viewNat r.addr r.size) (s'.readBad r.addr r.size)) })

/-! ### Engine commands (chapters 9, 11, 14, 15) and the Grinders (chapter 9) -/

/-- R208, R209, R261, R332, R362, R402: an 8-byte store at a SUBMIT with room joins that unit's queue with the storing task's thread and mode and is
acknowledged; at a full queue it is held, and accepted, oldest first, when there is room; a Grinder of a quarter in standby ignores it.
R203, R229, R234: APPLY takes a slot's staged values, APPLY_ALL those of all slots; a changed SK_CTL clears its unit; at each 256th count
every Grinder publishes the count of its oldest bag, and a move whose swap all have passed is complete. -/
def Obligations.EngineQueues : Prop :=
  (∀ (u : EUnit) (id k : Nat) (r : Req) (x : Job) (s : State),
     let cmd : Instr := match u with
       | .grind _ => .grindSubmit id
       | .perc _ => .submit id
       | .coll _ => .collSubmit id
       | .flash _ => .flashSubmit id
     let up : Prop := (match u with | .grind g => s.qState (g / 4) == 1 | _ => true) = true
     let joins (s' : State) : Prop := ∃ c, s'.cmds = s.cmds ++ [c] ∧ c.unit = u ∧ c.addr = r.data ∧ c.thread = k ∧ c.job = r.job ∧
       c.mode = (s.thread k).mode ∧ c.started = (s.thread k).started ∧ c.phase = .queued ∧
       s'.req? id = some { r with answer := some .ack }
     s.alive = true → s.submitReq u id = some r → r.id = id → r.who = .thread k → s.job? r.job = some x → x.status = 0 →
     (up → s.heldSubs.any (fun h => h.2 == id) = false → (s.queuedOf u).length < u.cap → s.heldSubs.any (fun h => h.1 == u) = false →
       ∃ s', exec cmd s = .next s' ∧ joins s' ∧ s' = { s with fabric := s'.fabric, cmds := s'.cmds }) ∧
     (up → s.heldSubs.any (fun h => h.2 == id) = false →
       ((u.cap ≤ (s.queuedOf u).length ∨ s.heldSubs.any (fun h => h.1 == u) = true)) →
       exec cmd s = .next { s with heldSubs := s.heldSubs ++ [(u, id)] }) ∧
     (s.heldSubs.find? (fun h => h.1 == u) = some (u, id) → s.heldSubs.find? (fun h => h.2 == id) = some (u, id) →
       (s.queuedOf u).length < u.cap → ∃ s', exec (.grindQueueRoom id) s = .next s' ∧ joins s' ∧
         s'.heldSubs = s.heldSubs.filter (fun h => h.2 != id)) ∧
     (∀ g, u = .grind g → g < 16 → s.qState (g / 4) ≠ 1 → s.qState (g / 4) ≠ 5 → s.heldSubs.any (fun h => h.2 == id) = false →
       ∃ s', exec cmd s = .next s' ∧ s'.cmds = s.cmds ∧ s'.req? id = some { r with answer := some .ack } ∧
         s'.fget blkSILPAOT F.SILPAOT.BLK_LOG.REG_ACCESS (8 * u.blk) =
           min (s.fget blkSILPAOT F.SILPAOT.BLK_LOG.REG_ACCESS (8 * u.blk) + 1) (2 ^ 32 - 1))) ∧
  ((∀ (g : Fin 16) (t : Fin 32) (s : State), s.alive = true → s.qUp (g.val / 4) = true →
     (∃ s', exec (.apply g t) s = .next s' ∧ s'.slot g.val t.val = s.staged g.val t.val ∧ s' = { s with slots := s'.slots } ∧
       ∀ g' t', t' < 32 → (g' ≠ g.val ∨ t' ≠ t.val) → s'.slot g' t' = s.slot g' t') ∧
     (∃ s', exec (.applyAll g) s = .next s' ∧ (∀ i, i < 32 → s'.slot g.val i = s.staged g.val i) ∧ s' = { s with slots := s'.slots })) ∧
   (∀ (g u : Fin 16) (v : Word) (s : State), s.alive = true → s.qUp (g.val / 4) = true →
     let b := blkGRIND g.val
     let ix := 8 * u.val
     ∃ s', exec (.skCtlWrite g u none v) s = .next s' ∧ s'.fget b F.GRIND.SK_CTL.ENABLE ix = bits v.toNat 0 1 ∧
       s'.fget b F.GRIND.SK_CTL.TABLE ix = bits v.toNat 1 5 ∧ s'.fget b F.GRIND.SK_CTL.SHARD ix = bits v.toNat 32 32 ∧
       (bits v.toNat 0 1 ≠ s.fget b F.GRIND.SK_CTL.ENABLE ix → s.skCtl g.val u.val < 2 ^ 64 → s.fget b F.GRIND.SK_CTL.TABLE ix < 32 →
         s.fget b F.GRIND.SK_CTL.ENABLE ix < 2 →
         (∀ i, i < 16384 → Sparse.get 0 s'.sketch (sketchKey g.val u.val i) = 0) ∧ Sparse.get 0 s'.sketchN (16 * g.val + u.val) = 0)) ∧
   (∀ s : State, s.alive = true → s.now % 256 = 0 → ∃ s', exec .horizonPublish s = .next s' ∧
     (∀ g, g < 16 → s'.fget (blkGRIND g) F.GRIND.HORIZON.GTC = s.horizonOf g % 2 ^ 64) ∧
     (∀ m ∈ s.moves, ∀ t, m.swapped = some t → s.qUp (m.g / 4) = true → (∀ g, g < 16 → t < s.horizonOf g) → m ∉ s'.moves) ∧
     (∀ m ∈ s.moves, m.swapped = none → m ∈ s'.moves) ∧ s'.mem = s.mem))

/-- R210, R211, R236, Table 9.10: the LOOKUP, MIGRATE or REPLACE at the head of a Grinder's queue latches its valid slot and begins; a slot that is not
valid, a bad command, a Grinder that is not the rows' home, a reserved OP end it with their codes. -/
def Obligations.GrinderBegins : Prop :=
  ∀ (g : Fin 16) (c : Cmd) (w : List Nat) (s s1 : State), s.qUp (g.val / 4) = true → Begins s (.grind g.val) c w s1 →
    let d : Cmd := { c with words := w, phase := .active }
    let t := s1.slot g.val d.slotNo
    let e : Cmd := { d with slot := t }
    let begun (i : Instr) (ok : Prop) : Prop := (t.valid = true → ok →
      ∃ s', exec i s = .next s' ∧ s'.cmd? c.id = some e ∧ s' = { s1 with cmds := s'.cmds })
    let fails (i : Instr) (why : Prop) (code : Nat) : Prop := why → ∃ s', exec i s = .next s' ∧ Failed s' c.id code
    (d.op = 1 → begun (.lookup g) (lookupOk e t = true) ∧ fails (.lookup g) (t.valid = false ∨ lookupOk e t = false) 0x50) ∧
    (∀ p ∈ [(3, Instr.migrate g), (4, .replace g)], d.op = p.1 → begun p.2 (moveOk e = true ∧ t.home = true) ∧
      fails p.2 (t.valid = false ∨ moveOk e = false) 0x50 ∧ fails p.2 (t.valid = true ∧ moveOk e = true ∧ t.home = false) 0x55) ∧
    (∀ i ∈ [Instr.lookup g, .migrate g, .replace g, .snapshot g], fails i (d.op = 0 ∨ 5 < d.op) 0x50)

/-- R212 to R216: a bag begins with its offsets; an index beyond ROWS is dropped and counted; an entry that has come back makes its row the next to
be asked for; the last request of a row brings it into the bag's accumulation, with its weight, in the mode's rounding; a deferred row arrives at its
parked bag; the bag then resumes and pools it. -/
def Obligations.LookupPools : Prop :=
  ∀ (c : Cmd) (g id b : Nat) (s : State), s.cmd? id = some c → c.id = id → c.unit = .grind g → g < 16 → c.phase = .active → c.op = 1 → Plain s →
    (let a := c.word 2 + 4 * c.next
     let o := s.mem.readNat a 8
     let t := s.slot g c.slotNo
     b = c.next → InStacks a 8 → b < c.count → s.activeBags g < 64 → (s.bagsOf g).any (·.parked) = false → s.bag? id b = none →
     (b = 0 → o % 2 ^ 32 = 0) → o % 2 ^ 32 < o / 2 ^ 32 → (b + 1 = c.count → o / 2 ^ 32 ≤ 2 ^ 24) → t.valid = true →
      ∃ s', exec (.bagBegin id) s = .next s' ∧ s'.cmd? id = some { c with next := b + 1 } ∧ s'.mem = s.mem ∧
        s'.bags = s.bags ++ [⟨id, b, o % 2 ^ 32, o / 2 ^ 32, t, s.now, o % 2 ^ 32, o % 2 ^ 32, 0, List.replicate t.dim 0, [], [], false⟩]) ∧
    (∀ (x : Bag) (r : Nat), s.bag? id b = some x → x.cmd = id → x.b = b → x.pos + 1 < x.hi → x.reads = [(x.pos, .entry r)] → x.parked = false →
      (x.slot.rows ≤ r → x.flits = [] → c.pool ≠ 2 → c.word 6 = 0 → ∃ s', exec (.entryReadReturn id b) s = .next s' ∧
        s'.bag? id b = some { x with pos := x.pos + 1, reads := [] } ∧ s'.cmd? id = some { c with dropped := c.dropped + 1 } ∧
        s'.fget (blkGRIND g) F.GRIND.GRIND_DROP.COUNT = min (s.fget (blkGRIND g) F.GRIND.GRIND_DROP.COUNT + 1)
          (2 ^ F.GRIND.GRIND_DROP.COUNT.w - 1)) ∧
      (∀ (o : GrRead) (w : Code) (l : List Code), x.flits = [o] → o.idx = x.pos → o.n = 16 → s.grindBack o = true →
        spoil o.addr o.bad (o.data.getD []) = w :: l →
        (w.poison = true → ∃ s', exec (.entryReadReturn id b) s = .next s' ∧ Failed s' id 0x07) ∧
        (w.poison = false → eTier w.v ≠ 3 → s.badEntry x.slot w.v = true → ∃ s', exec (.entryReadReturn id b) s = .next s' ∧
          Failed s' id 0x51) ∧
        (w.poison = false → eTier w.v ≤ 1 → s.badEntry x.slot w.v = false → 0 < x.slot.rowReqs w.v →
          ∃ s', exec (.entryReadReturn id b) s = .next s' ∧ s'.mem = s.mem ∧
          s'.bag? id b = some { x with reads := [(x.pos, .row r w.v 0 [])], flits := [] } ∧ s'.cmd? id = some c))) ∧
    (∀ (x : Bag) (r e : Nat), s.bag? id b = some x → x.cmd = id → x.b = b → x.pos + 1 < x.hi → c.pool < 2 → c.word 3 = 0 → c.word 6 = 0 →
      let pooled (l : List Code) (s' : State) : Prop := ∃ y, s'.bag? id b = some y ∧ y.pos = x.pos + 1 ∧ y.n = x.n + 1 ∧ y.reads = [] ∧
        y.parked = false ∧ s'.mem = s.mem ∧ y.acc = (List.range x.slot.dim).map (fun i =>
          fma32 c.rnd (if isIntFmt (eFmt e) then mul32 c.rnd 0x3F800000 (eScale e) else 0x3F800000)
            (((rowElems (eFmt e) l).take x.slot.dim).getD i 0) (x.acc.getD i 0))
      (∀ (asked : Nat) (parts : List (Nat × List Code)) (o : GrRead), x.parked = false → x.reads = [(x.pos, .row r e asked parts)] →
        x.flits = [o] → o.idx = x.pos → o.n = 64 → s.grindBack o = true →
        let l := spoil o.addr o.bad (o.data.getD [])
        let parts' := ((o.addr - eLoc e) / 64, l) :: parts
        let row := partCodes (x.slot.rowReqs e) parts'
        l ≠ [] → parts'.length = x.slot.rowReqs e → row.all (fun y => !y.poison) = true →
        ∃ s', exec (.rowReadReturn id b x.pos) s = .next s' ∧ pooled row s') ∧
      (∀ l : List Code, x.parked = true → x.reads = [(x.pos, .cold r e (some l))] → s.activeBags g < 64 → l.all (fun y => !y.poison) = true →
        ∃ s', exec (.bagResume id b) s = .next s' ∧ pooled l s') ∧
      (∀ res : List FlashCw, x.parked = true → x.reads = [(x.pos, .cold r e none)] → 1 < s.fmState (handleMgr e) →
        ∃ s' l, exec (.deferredRowArrival id b res) s = .next s' ∧
          s'.bag? id b = some { x with reads := [(x.pos, .cold r e (some l))] } ∧ s'.mem = s.mem))

/-- R219 to R221, R236: a PER_INDEX UPDATE of one index that its checks pass reads the index, its entry and its gradient, and holds the row with its
gradient for its turn; an index beyond ROWS is dropped; a Grinder that is not the rows' home, a slot without optimiser and a work area too small end it.
R222 to R224: a row's turn applies the slot's optimiser to its elements, decoded to FP32, in the mode's rounding, and writes the row back in its
format, with its state; of the stacks nothing else changes but, for an INT row, its entry's SCALE; the last row ends the command. -/
def Obligations.UpdatesRun : Prop :=
  (∀ (g : Fin 16) (c : Cmd) (w : List Nat) (s s1 : State), Begins s (.grind g.val) c w s1 → Plain s →
     (∀ x ∈ s.cmds, x.unit = .grind g.val → x.phase = .active → x.op = 2 → s.upds.any (fun u => u.cmd == x.id) = true) →
     let d : Cmd := { c with words := w, phase := .active }
     let t := s.slot g.val d.slotNo
     let e : Cmd := { d with slot := t }
     let pb := s.mem.readNat (e.word 6) 64
     let work := bits pb 192 64
     let len := 16 + up64 (4 * t.dim)
     d.op = 2 → t.valid = true →
     (updateOk e = true → t.home = false → ∃ s', exec (.update g) s = .next s' ∧ Failed s' c.id 0x55) ∧
     (updateOk e = false ∨ (t.home = true ∧ t.opt = 0) → ∃ s', exec (.update g) s = .next s' ∧ Failed s' c.id 0x50) ∧
     (updateOk e = true → t.home = true → t.opt ≠ 0 → e.gform = false → e.count = 1 → InStacks (e.word 6) 64 → work % 64 = 0 →
       isScratch work = false → bits pb 320 64 % 8 = 0 → bits pb 384 128 = 0 →
       (bits pb 256 64 < len → ∃ s', exec (.update g) s = .next s' ∧ Failed s' c.id 0x54) ∧
       (len ≤ bits pb 256 64 → InStacks work len → InStacks e.indexAddr e.idxBytes →
         let r := s.mem.readNat e.indexAddr e.idxBytes
         let en := s.mem.readNat (entryAddr t r) 16
         let gw := if e.gbf16 then 2 else 4
         let v := s.mem.readNat (e.word 4) (gw * t.dim)
         (t.rows ≤ r → ∃ s' x, exec (.update g) s = .next s' ∧ s'.cmd? c.id = some x ∧ x.phase = .ending ∧ x.status = c.status ∧
           x.dropped = 1) ∧
         (r < t.rows → InStacks (entryAddr t r) 16 → eTier en = 1 → s.badEntry t en = false → 0 < t.dim → t.dim % 16 = 0 →
           InStacks (e.word 4) (gw * t.dim) → (e.word 4 + gw * t.dim ≤ work ∨ work + len ≤ e.word 4) →
           ∃ s' x, exec (.update g) s = .next s' ∧ s'.cmd? c.id = some x ∧ x.phase = .active ∧ x.dropped = 0 ∧
             BytesOutside s.mem s'.mem work len ∧ s'.upds = s.upds ++ [⟨c.id, [⟨r, (List.range t.dim).map (fun i =>
               elemFP32 (if e.gbf16 then 1 else 0) (bits v (8 * gw * i) (8 * gw)))⟩]⟩])))) ∧
  (∀ (g id : Nat) (c : Cmd) (u : UpdRow) (rest : List UpdRow) (s : State), g < 16 → s.cmd? id = some c → c.id = id → c.unit = .grind g →
     c.phase = .active → Plain s → s.upds = [⟨id, u :: rest⟩] → s.moves = [] → s.defers = [] →
     let t := c.slot
     let ea := entryAddr t u.row
     let e := s.mem.readNat ea 16
     let fmt := eFmt e
     let a := eLoc e
     let n := rowSpan t fmt
     let k := valueSpan t.dim fmt
     let l := s.viewCodes a n
     let pb := s.mem.readNat (c.word 6) 64
     let o := optimise t c.rnd pb ((decodeRow c.rnd fmt (eScale e) (l.take (k / 16))).take t.dim) u.grad (l.drop (k / 16))
     let done (s' : State) : Prop := s'.cmd? id = some { c with cnt := c.cnt + 1, phase := if rest = [] then .ending else .active } ∧
       s'.upds = if rest = [] then [] else [⟨id, rest⟩]
     1 ≤ t.opt → t.opt ≤ 3 → 0 < t.dim → t.dim % 16 = 0 → InStacks ea 16 → ea % 16 = 0 → eTier e = 1 → s.badEntry t e = false →
     InStacks (c.word 6) 64 →
     (isIntFmt fmt = false → ∃ s', exec (.updateRow id) s = .next s' ∧ done s' ∧ BytesOutside s.mem s'.mem a n ∧
       s'.viewCodes a n = packCodes (elemBits fmt) (o.1.map (fun x => (narrow fmt c.rnd x).1)) (k / 16) ++ o.2) ∧
     (∀ sc q, isIntFmt fmt = true → requant c.rnd (if fmt = 5 then 127 else 7) o.1 = (sc, some q) → (a + n ≤ ea ∨ ea + 16 ≤ a) →
       ∃ s', exec (.updateRow id) s = .next s' ∧ done s' ∧ s'.mem.readNat ea 16 = withScale e (sc % 2 ^ 32) ∧
         s'.viewCodes a n = packCodes (if fmt = 5 then 8 else 4) (q.map (fun i => (i % 2 ^ (if fmt = 5 then 8 else 4)).toNat)) (k / 16) ++ o.2 ∧
         ∀ b, (b < a ∨ a + n ≤ b) → (b < ea ∨ ea + 16 ≤ b) → s'.mem.byte b = s.mem.byte b))

/-- R226 to R230: a record of a REPLACE without source begins its move; one of a MIGRATE sets MOVING in the entry and begins a move to an entry that has
the old VERSION and no MOVING; a bad record ends the command; the swap writes the new entry in one access. -/
def Obligations.RowsMove : Prop :=
  ∀ (g id : Nat) (c : Cmd) (s : State), g < 16 → s.cmd? id = some c → c.id = id → c.unit = .grind g → c.phase = .active → Plain s →
    (let ra := c.word 1 + 32 * c.next
     let v := s.mem.readNat ra 32
     let r := bits v 0 64
     let new := bits v 64 128
     let ea := entryAddr c.slot r
     let old := s.mem.readNat ea 16
     c.next < c.moveCount → InStacks ra 32 → s.moves = [] →
      (c.op = 3 ∨ c.op = 4 → s.badRecord c v = true → ∃ s', exec (.moveRecordBegin id []) s = .next s' ∧ Failed s' id 0x50) ∧
      (c.op = 4 → s.badRecord c v = false → bits v 192 64 = 0 → ∃ s', exec (.moveRecordBegin id []) s = .next s' ∧
        s'.moves = [⟨g, id, r, c.slot, new, true, none⟩] ∧ s'.cmd? id = some { c with next := c.next + 1 } ∧ s'.mem = s.mem) ∧
      (c.op = 3 → s.badRecord c v = false → InStacks ea 16 → eTier old = 1 → s.badEntry c.slot old = false → eTier new = 1 →
        (eLoc new + rowSpan c.slot (eFmt new) ≤ ea ∨ ea + 16 ≤ eLoc new) → 0 < c.slot.dim →
        ∃ s' m, exec (.moveRecordBegin id []) s = .next s' ∧ s'.moves = [m] ∧ m.g = g ∧ m.cmd = id ∧ m.row = r ∧ m.replace = false ∧
          m.swapped = none ∧ eVersion m.new = eVersion old ∧ eMoving m.new = false ∧ eLoc m.new = eLoc new ∧
          s'.cmd? id = some { c with next := c.next + 1 } ∧ s'.mem.readNat ea 16 = setBits old 125 1 1)) ∧
    (∀ m : Move, s.moves = [m] → m.cmd = id → m.g = g → m.swapped = none → InStacks (entryAddr m.slot m.row) 16 → s.defers = [] →
      ∃ s', exec (.rowSwap id m.row) s = .next s' ∧ s'.mem.readNat (entryAddr m.slot m.row) 16 = m.new % 2 ^ 128 ∧
        BytesOutside s.mem s'.mem (entryAddr m.slot m.row) 16 ∧ s'.moves = [{ m with swapped := some s.now }])

/-- R235: a SNAPSHOT of a valid slot writes its counters and enabled units at its address, counts the bytes, and with CLEAR sets them to 0.
R211, R268, R340, R364: a command that has ended without a fault writes its 32-byte record at CPL_ADDR, and nothing else, and is gone, or signals
DONE_OBJ first and is gone at the answer. -/
def Obligations.SnapshotsAndCompletion : Prop :=
  (∀ (g : Fin 16) (c : Cmd) (w : List Nat) (s s1 : State), Begins s (.grind g.val) c w s1 → Plain s →
     let d : Cmd := { c with words := w, phase := .active }
     let t := s.slot g.val d.slotNo
     let e : Cmd := { d with slot := t }
     let x := s.snapshot g.val d.slotNo
     d.op = 5 → t.valid = true → snapshotOk e = true → InStacks (e.word 1) x.1.length → ∃ s', exec (.snapshot g) s = .next s' ∧
       s'.mem.read (e.word 1) x.1.length = x.1 ∧ BytesOutside s.mem s'.mem (e.word 1) x.1.length ∧
       s'.cmd? c.id = some { e with cnt := x.1.length, phase := .ending } ∧
       (bit (e.word 0) 10 = true → ∀ i, i < 1024 → Sparse.get 0 s'.shards (1024 * (32 * g.val + d.slotNo) + i) = 0) ∧
       (bit (e.word 0) 10 = false → s'.shards = s.shards ∧ s'.sketch = s.sketch)) ∧
  (∀ (id : Nat) (c : Cmd) (s : State), s.cmd? id = some c → c.id = id → c.errRef = none → Plain s →
     (match c.unit with | .coll h => (s.coll h).ops.all (fun o => o.cmd != id) | _ => true) = true →
     let cmd : Instr := match c.unit with
       | .grind _ => .grindComplete id
       | .perc _ => .passComplete id
       | .coll _ => .collComplete id
       | .flash _ => .flashCmdComplete id
     let rec_ := if c.unit.isGrind then c.grindRecord s.now 0 else c.percRecord s.now 0
     (c.phase = .ending → s.moves.any (fun m => m.cmd == id) = false →
       (c.cpl = 0 → ∃ s', exec cmd s = .next s' ∧ s'.mem = s.mem ∧
         (c.doneEn = false → s'.cmd? id = none) ∧ (c.doneEn = true → s'.cmd? id = some { c with phase := .signalled } ∧
           (∃ i, s'.syncMsgs = s.syncMsgs ++ [⟨i, .cmd id, c.doneObj, .sig 1 false, none⟩]))) ∧
       (c.cpl ≠ 0 → c.cpl % 32 = 0 → InStacks c.cpl 32 → ∃ s', exec cmd s = .next s' ∧ s'.mem.read c.cpl 32 = rec_ ∧
         BytesOutside s.mem s'.mem c.cpl 32 ∧ (c.doneEn = false → s'.cmd? id = none) ∧
         (c.doneEn = true → s'.cmd? id = some { c with phase := .signalled } ∧
           (∃ i, s'.syncMsgs = s.syncMsgs ++ [⟨i, .cmd id, c.doneObj, .sig 1 false, none⟩])))) ∧
     (∀ w : Wake, c.phase = .signalled → s.wakes.find? (s.cmdSig id) = some w → w.status = 0 → ∃ s', exec cmd s = .next s' ∧
       s'.cmd? id = none ∧ s'.mem = s.mem))

/-! ### Talien links, the global time counter, routes (chapter 14) -/

/-- R326: a port with a device number starts to train when it is enabled, and returns to DOWN when disabled; with all lanes good, or one replaced
by the spare, it says hello, with two bad it fails; a hello from a partner is acknowledged, one from the device itself fails the port; the
acknowledgement brings it UP and names the peer.
R325, R327: eight replays, or a lock lost with the spare in use, lead to RECOVERY, the fourth within 1 s to failure; a recovery ends UP or
FAILED; a lane lost with the spare free asks for it, and the partner's agreement puts the spare in its place. -/
def Obligations.PortsAndLanes : Prop :=
  (∀ (t : Fin 18) (s : State),
     let b := blkTL t.val
     let x := s.tport t.val
     let st (s' : State) : Nat := s'.fget b F.TL.PORT_STATUS.STATE
     (s.regsOn = true → s.fbit b F.TL.PORT_CTL.ENABLE = false →
       (s.devNum ≠ 0xFFFF → ∃ s', exec (.talienEnable t) s = .next s' ∧ s'.fget b F.TL.PORT_CTL.ENABLE = 1 ∧ st s' = 1 ∧
         s'.tport t.val = TPort.init ∧ s' = { s with regs := s'.regs, tports := s'.tports }) ∧
       (s.devNum = 0xFFFF → ∃ s', exec (.talienEnable t) s = .next s' ∧ s'.fget b F.TL.PORT_STATUS.CFG_REJECT = 1 ∧
         s' = { s with regs := s'.regs })) ∧
     (s.regsOn = true → s.fbit b F.TL.PORT_CTL.ENABLE = true → ∃ s', exec (.talienDisable t) s = .next s' ∧ s'.fget b F.TL.PORT_CTL.ENABLE = 0 ∧ st s' = 0 ∧
       s'.tport t.val = TPort.init ∧ s'.mem = s.mem) ∧
     (∀ pass : BitVec 9, s.alive = true → s.tlState t.val = 1 → x.hello = false →
       let bad := (List.range 9).filter (fun i => !pass.getLsbD i)
       (2 ≤ bad.length → ∃ s', exec (.talienTrainingDone t true pass) s = .next s' ∧ st s' = 4 ∧ s'.fget b F.TL.PORT_STATUS.CAUSE = 1) ∧
       (bad.length ≤ 1 → ∃ s' d, exec (.talienTrainingDone t true pass) s = .next s' ∧
         s'.tport t.val = { x with hello := true, shift := !bad.isEmpty, ctlOut := x.ctlOut ++ [(1, d)] } ∧
         s'.fget b F.TL.PORT_STATUS.SPARE_USED = bad.length ∧ s'.fget b F.TL.PORT_STATUS.SPARE_FOR = bad.headD 0 ∧ st s' = 1)) ∧
     (s.alive = true → s.tlState t.val = 1 → x.hello = false → ∃ s', exec (.trainingRetry t) s = .next s' ∧
       s'.tport t.val = TPort.init ∧ s' = { s with tports := s'.tports }) ∧
     (∀ (c : Ctrl) (s1 : State), s.tlState t.val = 1 →
       (Told s t.val 1 c s1 → bits c.data 0 16 ≠ s.devNum → ∃ s' d, exec (.hello t) s = .next s' ∧
         s'.tport t.val = { s1.tport t.val with ctlOut := x.ctlOut ++ [(2, d)] } ∧ st s' = 1) ∧
       (Told s t.val 1 c s1 → bits c.data 0 16 = s.devNum → ∃ s', exec (.hello t) s = .next s' ∧ st s' = 4 ∧
         s'.fget b F.TL.PORT_STATUS.CAUSE = 2) ∧
       (Told s t.val 2 c s1 → bits c.data 0 16 ≠ s.devNum → ∃ s', exec (.helloAck t) s = .next s' ∧ st s' = 2 ∧
         s'.fget b F.TL.PEER.DEV = bits c.data 0 16 ∧ s'.fget b F.TL.PEER.PORT = bits c.data 16 5))) ∧
  (∀ (t : Fin 18) (s : State),
     let b := blkTL t.val
     let x := s.tport t.val
     let st (s' : State) : Nat := s'.fget b F.TL.PORT_STATUS.STATE
     (s.alive = true → s.tlState t.val = 2 →
       (8 ≤ x.tries ∨ x.lockLost = true → x.recovs.length < 3 ∨ x.recovs.getD 0 0 + 1400000000 ≤ s.clk.arith →
         ∃ s', exec (.recoveryEntry t) s = .next s' ∧ st s' = 3 ∧ (s'.tport t.val).tries = 0 ∧ (s'.tport t.val).lockLost = false ∧
           s'.fget b F.TL.RECOVERIES.COUNT = min (s.fget b F.TL.RECOVERIES.COUNT + 1) (2 ^ 32 - 1)) ∧
       (8 ≤ x.tries ∨ x.lockLost = true → x.recovs.length = 3 → s.clk.arith < x.recovs.getD 0 0 + 1400000000 →
         ∃ s', exec (.recoveryEntry t) s = .next s' ∧ st s' = 4 ∧ s'.fget b F.TL.PORT_STATUS.CAUSE = 3) ∧
       (∀ l : Fin 9, (s.fbit b F.TL.PORT_STATUS.SPARE_USED = true → ∃ s', exec (.laneLockLost t l) s = .next s' ∧
           s'.tport t.val = { x with lockLost := true }) ∧
         (s.fbit b F.TL.PORT_STATUS.SPARE_USED = false → x.repair = none → ∃ s' n, exec (.laneLockLost t l) s = .next s' ∧
           n < 65536 ∧ s'.tport t.val = { x with repair := some l.val, ctlOut := x.ctlOut ++ [(6, l.val + n * 256)] })) ∧
       (1048576 ≤ x.frames → (∀ l, l < 9 → x.lanes.getD l 0 ≤ s.fget b F.TL.PORT_CTL.LANE_LIMIT) → ∃ s', exec (.laneWindow t) s = .next s' ∧
         s'.tport t.val = { x with lanes := [], frames := 0 } ∧ s' = { s with tports := s'.tports })) ∧
     (s.alive = true → s.tlState t.val = 3 → (∃ s', exec (.recoveryDone t true) s = .next s' ∧ st s' = 2 ∧
         (s'.tport t.val).replay = (if x.retry = [] then x.replay else x.retry.length)) ∧
       (∃ s', exec (.recoveryDone t false) s = .next s' ∧ st s' = 4 ∧ s'.fget b F.TL.PORT_STATUS.CAUSE = 3)) ∧
     (∀ (c : Ctrl) (s1 : State), Told s t.val 6 c s1 → ∃ s', exec (.repairReq t) s = .next s' ∧
       s'.tport t.val = { s1.tport t.val with txSpare := some (bits c.data 0 8), ctlOut := x.ctlOut ++ [(7, c.data)] } ∧
       s' = { s with tports := s'.tports }) ∧
     (∀ (c : Ctrl) (s1 : State) (l : Nat), Told s t.val 7 c s1 → x.repair = some l → l < 9 → ∃ s', exec (.repairAck t) s = .next s' ∧
       (s'.tport t.val).repair = none ∧ s'.fget b F.TL.PORT_STATUS.SPARE_USED = 1 ∧ s'.fget b F.TL.PORT_STATUS.SPARE_FOR = l))

/-- R317, R323, R324: a good frame in order gives its blocks, its credits and its acknowledgement; any other sets NAK and gives nothing; a frame leaves with the
next number and at most 25 blocks, of each VC no more than its credits, in order, and stays in the retry buffer; a NAK or 16 µs without an
acknowledgement sends that buffer again. -/
def Obligations.FramesCarry : Prop :=
  ∀ (t : Fin 18) (e : Fin 8) (s : State), s.framing t.val = true →
    let x := s.tport t.val
    let now := s.clk.arith
    (∀ f : WireFrame, (frameWhole f = false ∨ f.fseq ≠ x.expect) → ∃ s', exec (.frameReceived t f e) s = .next s' ∧
      (s'.tport t.val).nak = true ∧ (s'.tport t.val).rx = x.rx ∧ (s'.tport t.val).expect = x.expect ∧
      s'.fget (blkTL t.val) F.TL.FRAMES_BAD.COUNT = min (s.fget (blkTL t.val) F.TL.FRAMES_BAD.COUNT + 1) (2 ^ 32 - 1)) ∧
    (∀ f : WireFrame, frameWhole f = true → f.fseq = x.expect → f.nak = false → f.ctrl = 0 → ∃ s', exec (.frameReceived t f e) s = .next s' ∧
      (s'.tport t.val).rx = x.rx ++ f.blks.filter (fun y => decide (y.1 < 3)) ∧ (s'.tport t.val).expect = (x.expect + 1) % 65536 ∧
      (s'.tport t.val).nak = false ∧ (∀ i : Fin 3, (s'.tport t.val).credit[i] = x.credit[i] + f.credits.getD i.val 0) ∧
      (s'.tport t.val).retry = (x.acked f.ack now).retry ∧ s' = { s with regs := s'.regs, tports := s'.tports }) ∧
    (x.replay = 0 → x.retry.length < 512 → ∃ s' f, exec (.frameTransmit t e) s = .next s' ∧ (s'.tport t.val).out = some f ∧ f.good = true ∧
      f.fseq = x.seq ∧ f.ack = (x.expect + 65535) % 65536 ∧ f.nak = x.nak ∧ f.credits = x.freed.toList ∧
      (s'.tport t.val).retry = x.retry ++ [f] ∧ (s'.tport t.val).seq = (x.seq + 1) % 65536 ∧ f.blks.length ≤ 25 ∧
      (∀ v : Fin 3, (f.blks.filter (fun y => y.1 == v.val)).length ≤ x.credit[v] ∧
        f.blks.filter (fun y => y.1 == v.val) ++ (s'.tport t.val).tx.filter (fun y => y.1 == v.val) =
          x.tx.filter (fun y => y.1 == v.val) ∧
        (s'.tport t.val).credit[v] + (f.blks.filter (fun y => y.1 == v.val)).length = x.credit[v]) ∧ s'.mem = s.mem) ∧
    (x.replay ≠ 0 → x.replay ≤ x.retry.length → ∃ s' f, exec (.frameTransmit t e) s = .next s' ∧
      x.retry[x.retry.length - x.replay]? = some f ∧ (s'.tport t.val).replay = x.replay - 1 ∧ (s'.tport t.val).retry = x.retry ∧
      (s'.tport t.val).out = some { f with ack := (x.expect + 65535) % 65536, nak := x.nak }) ∧
    (x.retry ≠ [] → x.ackAt + 22400 ≤ now → ∃ s', exec (.replayTimeout t) s = .next s' ∧
      s'.tport t.val = { x with replay := x.retry.length, tries := x.tries + 1, ackAt := now })

/-- R328 to R330: a master sends a sync on every UP port of SYNC_OUT every 4,096 ticks; a follower's first sync steps its counter by the
offset, later ones leave increments owed, made one at a time; a delay request is answered with the time it came, and its answer
gives half the round trip; 262,144 counts without a sync are holdover.
R345, R346, R348: firmware writes a route entry, a legal port mask and its hops and VALID, and the role where no Percolator serves; an announcement
leaves once on every UP port; a claim is counted, fences the device for its own number and an alias for a newer generation. -/
def Obligations.TimeRoutesAndAliases : Prop :=
  (∀ (t : Fin 18) (s : State), s.alive = true →
     let g := s.gtc
     (s.gtcMode = 1 → g.count % 4096 = 0 → g.sentAt ≠ g.count + 1 → ∃ s', exec .gtcSyncSend s = .next s' ∧
       (∀ u, u < 18 → (s'.tport u).ctlOut = if bit (s.fget blkGTC F.GTC.GTC_CTL.SYNC_OUT) u = true ∧ s.tlState u = 2
         then (s.tport u).ctlOut ++ [(3, 0)] else (s.tport u).ctlOut) ∧ s' = { s with gtc := s'.gtc, tports := s'.tports }) ∧
     (∀ (c : Ctrl) (s1 : State), Told s t.val 3 c s1 → s.gtcMode = 2 → s.fget blkGTC F.GTC.GTC_CTL.SYNC_PORT = t.val →
       let o : Int := 8 * (bits c.data 0 64 : Int) + (bits c.data 72 3 : Int) + g.delay - (8 * (c.at_ : Int) + (c.eighth : Int))
       ∃ s', exec (.gtcSync t) s = .next s' ∧ s'.fget blkGTC F.GTC.GTC_STATUS.LEVEL = bits c.data 64 5 ∧
         s'.fget blkGTC F.GTC.GTC_STATUS.OFFSET = offField o % 2 ^ 32 ∧ s'.fget blkGTC F.GTC.GTC_STATUS.HOLDOVER = 0 ∧ s'.gtc.first = false ∧
         (g.first = true → s'.gtc.count = ((g.count : Int) + toTicks o).toNat ∧ s'.fget blkGTC F.GTC.GTC_STATUS.STEPPED = 1) ∧
         (g.first = false → s.fbit blkGTC F.GTC.GTC_STATUS.HOLDOVER = false → s'.gtc.count = g.count ∧ s'.gtc.owedOff = toTicks o) ∧
         (3 ≤ g.good → o.natAbs ≤ 8 → s'.fget blkGTC F.GTC.GTC_STATUS.LOCKED = 1)) ∧
     (∀ (c : Ctrl) (s1 : State), Told s t.val 4 c s1 → ∃ s', exec (.delayReq t) s = .next s' ∧
       (s'.tport t.val).ctlOut = (s.tport t.val).ctlOut ++ [(5, c.at_ % 2 ^ 64 * 2 ^ 64 + c.eighth * 2 ^ 136)] ∧
       s' = { s with tports := s'.tports }) ∧
     (∀ (c : Ctrl) (s1 : State) (t1 : Nat), Told s t.val 5 c s1 → g.reqAt = some t1 → s.fget blkGTC F.GTC.GTC_CTL.SYNC_PORT = t.val →
       let t2 : Int := 8 * (bits c.data 64 64 : Int) + (bits c.data 136 3 : Int)
       let t3 : Int := 8 * (bits c.data 0 64 : Int) + (bits c.data 128 3 : Int)
       let t4 : Int := 8 * (c.at_ : Int) + (c.eighth : Int)
       ∃ s', exec (.delayResp t) s = .next s' ∧ s'.gtc = { g with delay := (t4 - (t1 : Int) - (t3 - t2)) / 2, reqAt := none } ∧
         s' = { s with tports := s'.tports, gtc := s'.gtc }) ∧
     (s.gtcMode = 2 → g.first = false → g.adj = 0 → s.fbit blkGTC F.GTC.GTC_STATUS.HOLDOVER = false → g.slewAt + 2048 ≤ s.clk.arith →
       (g.owedRate ≠ 0 → ∃ s', exec .gtcSlew s = .next s' ∧ s'.gtc.adj = g.owedRate.sign ∧ s'.gtc.owedRate = g.owedRate - g.owedRate.sign ∧
         s'.gtc.owedOff = g.owedOff ∧ s' = { s with gtc := s'.gtc, regs := s'.regs }) ∧
       (g.owedRate = 0 → g.owedOff ≠ 0 → ∃ s', exec .gtcSlew s = .next s' ∧ s'.gtc.adj = g.owedOff.sign ∧
         s'.gtc.owedOff = g.owedOff - g.owedOff.sign ∧ s' = { s with gtc := s'.gtc, regs := s'.regs })) ∧
     (s.gtcMode = 2 → g.first = false → s.fbit blkGTC F.GTC.GTC_STATUS.HOLDOVER = false → g.syncAt + 262144 ≤ g.count →
       ∃ s', exec .holdover s = .next s' ∧ s'.fget blkGTC F.GTC.GTC_STATUS.HOLDOVER = 1 ∧ s'.fget blkGTC F.GTC.GTC_STATUS.LOCKED = 0 ∧
         s'.gtc = { g with good := 0, owedRate := 0, owedOff := 0 } ∧ s' = { s with gtc := s'.gtc, regs := s'.regs, err := s'.err }) ∧
     (∀ v : Word, bits v.toNat 0 2 ≠ 3 → bits v.toNat 2 5 ≤ 17 → bit (bits v.toNat 8 18) (bits v.toNat 2 5) = false →
       ∃ s', exec (.gtcCtlWrite v) s = .next s' ∧ s'.gtcMode = bits v.toNat 0 2 ∧
         s'.fget blkGTC F.GTC.GTC_CTL.SYNC_PORT = bits v.toNat 2 5 ∧ s'.fget blkGTC F.GTC.GTC_CTL.SYNC_OUT = bits v.toNat 8 18 ∧
         s'.gtc.count = g.count ∧
         (bits v.toNat 0 2 ≠ s.gtcMode ∨ s.gtcMode = 2 → s'.gtc.first = true ∧ s'.fget blkGTC F.GTC.GTC_STATUS.LOCKED = 0))) ∧
  (∀ s : State,
     (∀ (rq : Requester) (v : Word),
       let i := s.fget blkGTC F.GTC.ROUTE_IDX.INDEX
       let m := bits v.toNat 0 18
       isFw rq = true → ∃ s', exec (.routeDataWrite rq v) s = .next s' ∧
         s'.route i = ⟨if routeMaskOk m then m else (s.route i).ports, bits v.toNat 18 5, bit v.toNat 31⟩ ∧
         s' = { s with routes := s'.routes } ∧ ∀ j, j ≠ i → s'.route j = s.route j) ∧
     (∀ (rq : Requester) (v : Word), isFw rq = true →
       (s.serving = false → bits v.toNat 0 3 ≤ 4 → ∃ s', exec (.roleWrite rq v) s = .next s' ∧
         s'.fget blkGTC F.GTC.ROLE.ROLE = bits v.toNat 0 3 ∧ s' = { s with regs := s'.regs }) ∧
       (s.serving = true ∨ 4 < bits v.toNat 0 3 → exec (.roleWrite rq v) s = .next s)) ∧
     (∀ (rq : Requester) (i : Fin 8), isFw rq = true →
       let d := s.fget blkGTC F.GTC.ALIAS.NUM (8 * i.val) + s.fget blkGTC F.GTC.ALIAS.GEN (8 * i.val) * 2 ^ 16
       ∃ s', exec (.announce rq i) s = .next s' ∧ s' = { s with tports := s'.tports } ∧
         ∀ u, u < 18 → (s'.tport u).ctlOut = if s.tlState u = 2 then (s.tport u).ctlOut ++ [(9, d)] else (s.tport u).ctlOut) ∧
     (∀ (rq : Requester) (v : Word) (i : Fin 8), isFw rq = false → ∀ cmd ∈ [Instr.routeDataWrite rq v, .roleWrite rq v, .announce rq i],
       ∃ s', exec cmd s = .next s' ∧ s' = { s with regs := s'.regs } ∧ s'.fget blkGTC F.GTC.ROLE.ROLE = s.fget blkGTC F.GTC.ROLE.ROLE) ∧
     (∀ (t : Fin 18) (c : Ctrl) (s1 : State), Told s t.val 9 c s1 → ∃ s', exec (.aliasClaim t) s = .next s' ∧
       s'.fget blkGTC F.GTC.CLAIMS_SEEN.COUNT = min (s.fget blkGTC F.GTC.CLAIMS_SEEN.COUNT + 1) (2 ^ 32 - 1) ∧
       (bits c.data 0 16 = s.devNum → s'.fbit blkGTC F.GTC.FENCE.FENCED = true) ∧
       (bits c.data 0 16 ≠ s.devNum → s'.fget blkGTC F.GTC.FENCE.FENCED = s.fget blkGTC F.GTC.FENCE.FENCED) ∧
       (∀ i, i < 8 → s'.fbit blkGTC F.GTC.ALIAS.FENCED (8 * i) = (s.fbit blkGTC F.GTC.ALIAS.FENCED (8 * i) ||
         (s.fbit blkGTC F.GTC.ALIAS.VALID (8 * i) && s.fget blkGTC F.GTC.ALIAS.NUM (8 * i) == bits c.data 0 16 &&
           decide (s.fget blkGTC F.GTC.ALIAS.GEN (8 * i) < bits c.data 16 8)))) ∧
       s' = { s with regs := s'.regs, tports := s'.tports }))

/-! ### The Percolators (chapter 11) -/

/-- R257 to R260, R271, R272, R274: a legal ring set-up starts the handshake with hellos on its send ports, an illegal one is FAULTED; hellos and
acknowledgements on every port make it READY; disabling ends the pass and takes it DOWN; a pass without progress, or aborted by a neighbour,
ends with its code; a port serves only in the CACHE role. -/
def Obligations.RingForms : Prop :=
  ∀ (h : Fin 2) (s : State),
    let b := blkPERC h.val
    let st (s' : State) : Nat := s'.ringSt h.val
    let snd := s.fget b F.PERC.RING_PORTS.SEND
    let rcv := s.fget b F.PERC.RING_PORTS.RECV
    (∀ v : Word, s.regsOn = true →
      let n := bits v.toNat 1 11
      let pos := bits v.toNat 12 11
      (s.fbit b F.PERC.RING_CTL.ENABLE = true → ∃ s', exec (.percRingEnable h v) s = .next s' ∧
        s'.fget b F.PERC.RING_STATUS.CFG_REJECT = 1 ∧ st s' = st s ∧ s' = { s with regs := s'.regs }) ∧
      (s.fbit b F.PERC.RING_CTL.ENABLE = false → 2 ≤ n → n ≤ 1024 → n ≤ pos → ∃ s', exec (.percRingEnable h v) s = .next s' ∧ st s' = 3 ∧
        s'.fget b F.PERC.RING_STATUS.CAUSE = 1) ∧
      (s.fbit b F.PERC.RING_CTL.ENABLE = false → 2 ≤ n → n ≤ 1024 → pos < n → (s.sendPorts h.val).length = (s.recvPorts h.val).length →
        s.sendPorts h.val ≠ [] → (s.sendPorts h.val).length ≤ 4 → (∀ t ∈ s.sendPorts h.val, t ∉ s.recvPorts h.val) →
        (∀ t ∈ s.sendPorts h.val ++ s.recvPorts h.val, s.tlTakes t = true) → s.percStage h.val = true →
        ∃ s', exec (.percRingEnable h v) s = .next s' ∧ st s' = 1 ∧ s'.fget b F.PERC.RING_CTL.ENABLE = 1 ∧ s'.ringN h.val = n ∧
          s'.ringPos h.val = pos ∧ (s'.perc h.val).outHello = snd ∧ (s'.perc h.val).hello = 0 ∧ (s'.perc h.val).acks = 0 ∧
          s' = { s with regs := s'.regs, percs := s'.percs })) ∧
    (∀ v : Word, s.regsOn = true → s.fbit b F.PERC.RING_CTL.ENABLE = true → ∃ s', exec (.percRingDisable ⟨h, v⟩) s = .next s' ∧ st s' = 0 ∧
      s'.fget b F.PERC.RING_CTL.ENABLE = 0 ∧ s'.perc h.val = (s.perc h.val).fresh ∧ s'.ringPos h.val = bits v.toNat 12 11 ∧
      s'.fget b F.PERC.RING_CTL.RING_ID = bits v.toNat 32 16 ∧
      (s.ringPass h.val = none → s' = { s with regs := s'.regs, percs := s'.percs }) ∧
      ∀ c, s.ringPass h.val = some c → s.cmd? c.id = some c → ∃ x, s'.cmd? c.id = some x ∧ x.status = 0x73 ∧ x.phase = .ending) ∧
    (∀ (i : Fin 9) (id n pos cnt : Nat), s.alive = true → st s = 1 → bit rcv i.val = true →
      let ok := id = s.fget b F.PERC.RING_CTL.RING_ID ∧ n = s.ringN h.val ∧ pos = (s.ringPos h.val + n - 1) % n ∧
        cnt = (s.recvPorts h.val).length
      let got := (s.perc h.val).hello ||| 2 ^ i.val
      (¬ok → ∃ s', exec (.ringHello h i id n pos cnt) s = .next s' ∧ st s' = 3 ∧ s'.fget b F.PERC.RING_STATUS.CAUSE = 1) ∧
      (ok → ∃ s', exec (.ringHello h i id n pos cnt) s = .next s' ∧ (s'.perc h.val).hello = got ∧
        bit (s'.perc h.val).outAck i.val = true ∧ st s' = if got = rcv ∧ (s.perc h.val).acks = snd then 2 else 1)) ∧
    (∀ i : Fin 9, s.alive = true → st s = 1 → bit snd i.val = true →
      let got := (s.perc h.val).acks ||| 2 ^ i.val
      ∃ s', exec (.ringHelloAck h i) s = .next s' ∧ (s'.perc h.val).acks = got ∧
        st s' = (if (s.perc h.val).hello = rcv ∧ got = snd then 2 else 1) ∧ (st s' = 2 → s'.passSeq h.val = 0)) ∧
    (∀ c, s.cmds.find? (fun x => x.unit == .perc h.val && x.phase == .active) = some c → s.cmd? c.id = some c → s.alive = true →
      (s.perc h.val).progAt + 65536 * s.fget b F.PERC.RING_LIMIT.LIMIT ≤ s.clk.arith → ∃ s', exec (.ringStall h) s = .next s' ∧
        Failed s' c.id 0x75) ∧
    (∀ (t : Fin 18) (k : Ctrl) (s1 : State) (c : Cmd), tlHub t.val = h.val → Told s t.val 8 k s1 → bits k.data 0 8 = 0 → st s = 2 →
      t.val ∈ s.recvPorts h.val → s.ringPass h.val = some c → s.cmd? c.id = some c → bits k.data 8 32 = s.passSeq h.val →
      s.passTearing h.val (s.passSeq h.val) = false →
      ∃ s', exec (.abort t) s = .next s' ∧ Failed s' c.id 0x76) ∧
    (∀ (rq : Requester) (v : Word), isFw rq = true → (s.fget blkGTC F.GTC.ROLE.ROLE = 4 ∨ bit v.toNat 0 = false) →
      ∃ s', exec (.kvCtlWrite h rq v) s = .next s' ∧ s'.fget b F.PERC.KV_CTL.SERVE = bits v.toNat 0 1 ∧ s' = { s with regs := s'.regs })

/-- R262 to R268: a CIRCULATE sends its own block at once, an ACCUM asks for its first local slot; a record that does not pass its checks, or a ring that is
not READY, ends it; a segment waits in staging; of the present block it lands in its slot, or is added to the local slot and sent on; the last
block landed is signalled; a pass that is done and drained writes its record and the next pass has the next number. -/
def Obligations.PassesRun : Prop :=
  ∀ (h : Fin 2) (s : State), Plain s →
    let x := s.perc h.val
    (∀ (c : Cmd) (w : List Nat) (s1 : State), Begins s (.perc h.val) c w s1 → s.activeOf (.perc h.val) = [] →
      let d : Cmd := { c with words := w, phase := .active, dropped := s.passSeq h.val }
      ∀ p ∈ [(1, Instr.circulate h), (2, .accum h)], d.op = p.1 →
        (passOk d = false → ∃ s', exec p.2 s = .next s' ∧ Failed s' c.id 0x70) ∧
        (passOk d = true → s.ringSt h.val ≠ 2 → ∃ s', exec p.2 s = .next s' ∧ Failed s' c.id 0x73) ∧
        (passOk d = true → s.ringSt h.val = 2 → x.aborts = [] → x.staged = [] →
          (d.op = 1 → InStacks (d.word 1) d.blkBytes → ∃ s', exec p.2 s = .next s' ∧ s'.cmd? c.id = some { d with cold := 1 } ∧
            (s'.perc h.val).k = 1 ∧ s'.mem = s.mem) ∧
          (d.op = 2 → ∃ s' i, exec p.2 s = .next s' ∧ s'.cmd? c.id = some d ∧ (s'.perc h.val).k = 0 ∧ (s'.perc h.val).asked = true ∧
            s'.syncMsgs = s.syncMsgs ++ [⟨i, .cmd c.id, d.dataObj, .wait 1, none⟩] ∧ s'.mem = s.mem))) ∧
    (∀ (t : Fin 18) (seq op bytes origin seg hd n : Nat) (l : List WireBlk) (out : State), tlHub t.val = h.val →
      Arrives s t.val 0 1 hd (.seg seq op bytes origin seg) l out → s.ringSt h.val = 1 ∨ s.ringSt h.val = 2 → s.percStage h.val = true →
      freeSlot (s.stageCap h.val) (x.staged.map (·.slot)) = some n → s.ringPass h.val = none → l.length = 1024 →
      (∀ y ∈ l, y.poison = 0) →
      let a := s.percSlot h.val n
      s.stageAdm (.perc h.val) a 65536 true = .go → ∃ s', exec (.ringSeg t seq op bytes origin seg) s = .next s' ∧
        (s'.perc h.val).staged = x.staged ++ [⟨seq, op, bytes, origin, seg, n⟩] ∧ s'.tports = out.tports ∧
        s'.viewCodes a 65536 = codesOf l ∧ BytesOutside s.mem s'.mem a 65536) ∧
    (∀ c : Cmd, s.ringPass h.val = some c → s.cmd? c.id = some c → s.ringSt h.val = 2 → s.percStage h.val = true →
      s.wakes.any (fun w => w.who == .cmd c.id) = false → x.granted = true → x.asked = true →
      (∀ g : Seg, x.staged = [g] → g.seq = s.passSeq h.val → g.origin = s.originOf h.val x.k → x.segs = [] → 1 < c.segN → g.seg < c.segN →
        g.slot < s.stageCap h.val → s.stageAdm (.perc h.val) (s.percSlot h.val g.slot) 65536 false = .go →
        let dat := s.viewCodes (s.percSlot h.val g.slot) 65536
        (c.op = 1 → let a := c.word 2 + (x.k - 1) % c.nslot * c.slotPitch + 65536 * g.seg
          InStacks a 65536 → a % 64 = 0 → ∃ s', exec (.blockLanded h) s = .next s' ∧ s'.viewCodes a 65536 = dat ∧
            BytesOutside s.mem s'.mem a 65536 ∧ (s'.perc h.val).segs = [g.seg] ∧ (s'.perc h.val).staged = []) ∧
        (c.op = 2 → 0 < x.k → x.k < s.ringN h.val → let a := c.word 1 + x.k % c.nslot * c.slotPitch + 65536 * g.seg
          InStacks a 65536 →
          let t := (s.sendPorts h.val).getD (g.seg % (s.sendPorts h.val).length) 0
          let sum := (List.range 4096).map (fun i => addCode c.rnd (dat.getD i ⟨0, false⟩) ((s.viewCodes a 65536).getD i ⟨0, false⟩))
          ∃ s' y, exec (.blockLanded h) s = .next s' ∧
            (s'.tport t).tx = (s.tport t).tx ++ (0, y) :: (blksOf sum).map (fun e => (0, e)) ∧ s'.mem = s.mem ∧
            y.info = .seg (s.passSeq h.val) 2 c.blkBytes (s.originOf h.val x.k) g.seg ∧
            (s'.perc h.val).segs = [g.seg])) ∧
      (c.op = 1 → x.staged = [] → x.segs.length = c.segN → x.k + 1 = s.ringN h.val → ∃ s' i, exec (.blockLanded h) s = .next s' ∧
        s'.cmd? c.id = some { c with cnt := c.cnt + 1, bytes := c.bytes + c.blkBytes } ∧ (s'.perc h.val).k = x.k + 1 ∧
        s'.syncMsgs = s.syncMsgs ++ [⟨i, .cmd c.id, objPlus c.dataObj ((x.k - 1) % c.nslot), .sig c.consumers true, none⟩] ∧ s'.mem = s.mem)) ∧
    (∀ c : Cmd, s.ringPass h.val = some c → s.cmd? c.id = some c → s.wakes.any (fun w => w.who == .cmd c.id) = false →
      x.k = (if c.op = 1 then s.ringN h.val else s.ringN h.val + 1) → x.sigs = 0 → s.ringDrained h.val = true → c.errRef = none →
      c.cpl = 0 → c.doneEn = false → s.moves.any (fun m => m.cmd == c.id) = false → ∃ s', exec (.passComplete c.id) s = .next s' ∧
        s'.cmd? c.id = none ∧ s'.passSeq h.val = (s.passSeq h.val + 1) % 2 ^ 32 ∧ s'.mem = s.mem)

/-- R274 to R276: a KV_GET or KV_PUT sends its request, with its data, and waits; a serving Percolator answers a block it holds, or counts a miss, and holds
a PUT until its data are in; data land at their offset and the last ends the command; an acknowledgement with a status ends it. -/
def Obligations.KeyValue : Prop :=
  ∀ (h : Fin 2) (s : State), Plain s → s.fbit blkGTC F.GTC.FENCE.FENCED = false →
    let b := blkPERC h.val
    let x := s.perc h.val
    (∀ (c : Cmd) (w : List Nat) (s1 : State), Begins s (.perc h.val) c w s1 → s.activeOf (.perc h.val) = [] →
      let d : Cmd := { c with words := w, phase := .active }
      ∀ p ∈ [(3, Instr.kvGet h), (4, .kvPut h)], d.op = p.1 →
        (kvOk d = false → ∃ s', exec p.2 s = .next s' ∧ Failed s' c.id 0x70) ∧
        (kvOk d = true → (d.op = 4 → InStacks (d.word 2) d.kvLen) → ∃ s', exec p.2 s = .next s' ∧ s'.cmd? c.id = some d ∧ s'.mem = s.mem ∧
          (∀ t s2, s.pickPort h.val d.peer = some (t, s2) → s.tlTakes t = true → s.devNum < 65535 → ∃ y l,
            (s'.tport t).tx = (s.tport t).tx ++ (1, y) :: l ∧ y.som = true ∧ hdrKind y.data = 4 ∧ hdrDst y.data = d.peer ∧
            y.info = .kvReq (d.op == 4) (bits (d.word 1) 0 40) d.kvLen c.id))) ∧
    (∀ (t : Fin 18) (put : Bool) (block len tag hd : Nat) (l : List WireBlk) (out : State), tlHub t.val = h.val →
      Arrives s t.val 1 4 hd (.kvReq put block len tag) l out →
      let self := if hdrDst hd = 0xFFFF then s.devNum else hdrDst hd
      (s.fbit b F.PERC.KV_CTL.SERVE = false → ∃ s', exec (.kvReq t put block len tag []) s = .next s' ∧ s'.mem = s.mem ∧ (s'.perc h.val).kvs = x.kvs ∧
        ∀ p s2, s.pickPort h.val (hdrSrc hd) = some (p, s2) → s.tlTakes p = true → self ∈ s.numbers → ∃ y,
          (s'.tport p).tx = (s.tport p).tx ++ [(2, y)] ∧ y.info = .kvAck 3 tag ∧ hdrKind y.data = 6) ∧
      (s.fbit b F.PERC.KV_CTL.SERVE = true → x.kvs = [] →
        let ea := 4096 * s.fget b F.PERC.KV_DIR.BASE + 16 * block
        let e := s.mem.readNat ea 16
        (s.fget b F.PERC.KV_BLOCKS.COUNT ≤ block → ∃ s', exec (.kvReq t put block len tag []) s = .next s' ∧
          s'.fget b F.PERC.KV_MISSES.COUNT = min (s.fget b F.PERC.KV_MISSES.COUNT + 1) (2 ^ 32 - 1) ∧ s'.mem = s.mem) ∧
        (block < s.fget b F.PERC.KV_BLOCKS.COUNT → InStacks ea 16 → eTier e = 1 → bits e 64 32 = len → 0 < len →
          (put = true → ∃ s', exec (.kvReq t put block len tag []) s = .next s' ∧
            (s'.perc h.val).kvs = [⟨hdrSrc hd, self, true, block, len, tag, e, s.now, true, 0, [], []⟩]) ∧
          (put = false → InStacks (kvLoc e) len → ∃ s', exec (.kvReq t put block len tag []) s = .next s' ∧ s'.mem = s.mem ∧
            s'.fget b F.PERC.KV_SERVED.COUNT = min (s.fget b F.PERC.KV_SERVED.COUNT + 1) (2 ^ 32 - 1))))) ∧
    (∀ (t : Fin 18) (off tag hd : Nat) (l : List WireBlk) (out : State), tlHub t.val = h.val →
      Arrives s t.val 0 5 hd (.kvData true off tag) l out →
      ∀ r : KvReq, x.kvs = [r] → r.run = true → r.put = true → r.peer = hdrSrc hd → r.tag = tag → r.got + 64 * l.length < r.len →
        InStacks (kvLoc r.entry + off) (64 * l.length) → (kvLoc r.entry + off) % 64 = 0 → (∀ y ∈ l, y.poison = 0) →
        ∃ s', exec (.kvData t true off tag) s = .next s' ∧ s'.viewCodes (kvLoc r.entry + off) (64 * l.length) = codesOf l ∧
          BytesOutside s.mem s'.mem (kvLoc r.entry + off) (64 * l.length) ∧
          (s'.perc h.val).kvs = [{ r with got := r.got + 64 * l.length }]) ∧
    (∀ (t : Fin 18) (off tag hd : Nat) (l : List WireBlk) (out : State) (c : Cmd), tlHub t.val = h.val →
      Arrives s t.val 2 5 hd (.kvData false off tag) l out →
      s.cmds.find? (fun y => y.unit == .perc h.val && y.phase == .active && y.op == 3 && y.peer == hdrSrc hd) = some c →
      s.cmd? c.id = some c → l ≠ [] → InStacks (c.word 2 + off) (64 * l.length) → (c.word 2 + off) % 64 = 0 → (∀ y ∈ l, y.poison = 0) →
      ∃ s', exec (.kvData t false off tag) s = .next s' ∧ s'.viewCodes (c.word 2 + off) (64 * l.length) = codesOf l ∧
        BytesOutside s.mem s'.mem (c.word 2 + off) (64 * l.length) ∧
        s'.cmd? c.id = some (if c.kvLen ≤ c.bytes + 64 * l.length
          then { c with bytes := c.bytes + 64 * l.length, cnt := 1, phase := .ending } else { c with bytes := c.bytes + 64 * l.length })) ∧
    (∀ (t : Fin 18) (status tag hd : Nat) (l : List WireBlk) (out : State) (c : Cmd), tlHub t.val = h.val →
      Arrives s t.val 2 6 hd (.kvAck status tag) l out →
      s.cmds.find? (fun y => y.unit == .perc h.val && y.phase == .active && (y.op == 3 || y.op == 4) && y.peer == hdrSrc hd) = some c →
      s.cmd? c.id = some c → ∃ s', exec (.kvAck t status) s = .next s' ∧ s'.mem = s.mem ∧
        (status ≠ 0 → s'.cmd? c.id = some { c with status := status, phase := .ending }) ∧
        (status = 0 → c.op = 4 → s'.cmd? c.id = some { c with cnt := 1, bytes := c.kvLen, phase := .ending }))

/-! ### The collectives engines (chapter 14) -/

/-- R332 to R335, R338, R342 to R344: a record that does not pass its checks ends with BAD_COMMAND, one of an earlier layout epoch
with LAYOUT_STALE (4), of a later one with LAYOUT_EARLY (5), and so one queued after a re-shard began (R343) of either epoch; a
reduction or gather whose group record names this device once is in progress at that position; an ALLGATHER puts its own
chunk in place; RECV tells its peer that it is ready, SEND waits for that; a re-shard drains first. -/
def Obligations.CollectivesBegin : Prop :=
  ∀ (h : Fin 2) (s : State), Plain s →
    let b := blkCOLL h.val
    let x := s.coll h.val
    (∀ (c : Cmd) (w : List Nat) (s1 : State), Begins s (.coll h.val) c w s1 → (s.activeOf (.coll h.val)).length < 8 →
      (∀ y ∈ s.activeOf (.coll h.val), y.phase = .active → x.ops.any (fun o => o.cmd == y.id) = true) → (∀ o ∈ x.ops, o.cmd ≠ c.id) →
      let d : Cmd := { c with words := w, phase := .active }
      let lay := (d.coLayout + 65536 - s.fget b F.COLL.LAYOUT.CUR) % 65536
      ∀ p ∈ [(1, Instr.reduceScatter h), (2, .allgather h), (3, .allreduce h), (4, .send h), (5, .recv h)], d.op = p.1 →
        (coOk d = false → ∃ s', exec p.2 s = .next s' ∧ Failed s' c.id 0x80) ∧
        (coOk d = true → ((d.dropped = 0 ∧ lay ≠ 0) ∨ (d.dropped ≠ 0 ∧ (d.coLayout = d.dropped - 1 ∨ d.coLayout = d.dropped % 65536))) →
          ∃ s', exec p.2 s = .next s' ∧ s'.mem = s.mem ∧ s'.colls = s.colls ∧ s'.cmd? c.id = some { d with phase := .ending, status :=
            if d.dropped = 0 then (if lay ≤ 32767 then 5 else 4) else if d.coLayout = d.dropped - 1 then 4 else 5 }) ∧
        (coOk d = true → d.dropped = 0 → lay = 0 → x.early = [] → x.aborts = [] → s.coStage h.val = true →
          (d.op ≤ 3 →
            let g := s.viewNat (d.word 4) 64
            let n := bits g 16 16
            let np := bits g 48 8
            InStacks (d.word 4) (64 + 2 * n * np) →
            ((groupOk g = false ∨ np ≤ d.coPhase) → ∃ s', exec p.2 s = .next s' ∧ Failed s' c.id 0x80) ∧
            (groupOk g = true → d.coPhase < np →
              let l := s.viewNat (d.word 4 + 64) (2 * n * np)
              let mem := (List.range n).map (fun i => bits l (16 * (n * d.coPhase + i)) 16)
              ∀ q, (List.range n).filter (fun i => s.coNumbers.contains (mem.getD i 0)) = [q] →
                (∀ m ∈ mem, m ≠ mem.getD q 0 → (s.route m).valid = true ∧ (s.route m).list ≠ []) →
                InStacks (d.word 1) (n * d.coCount * Machine.sizeOf d.coIn) → InStacks (d.word 2) (n * d.coCount * Machine.sizeOf d.coOut) →
                let a := d.word 2 + q * (d.coCount * Machine.sizeOf d.coOut)
                ∃ s' o, exec p.2 s = .next s' ∧ (s'.coll h.val).ops = x.ops ++ [o] ∧ o.cmd = c.id ∧ o.gid = bits g 0 16 ∧ o.seq = d.coSeq ∧
                  o.n = n ∧ o.mem = mem ∧ o.pos = q ∧ o.started = true ∧
                  o.cols = (if bits g 32 8 = 0 then n else n / bits g 64 16) ∧
                  (d.op ≠ 2 → s'.cmd? c.id = some d ∧ s'.mem = s.mem) ∧
                  (d.op = 2 → s'.cmd? c.id = some { d with cnt := d.cnt + 1, bytes := d.bytes + d.coCount * Machine.sizeOf d.coOut } ∧
                    BytesOutside s.mem s'.mem a (d.coCount * Machine.sizeOf d.coOut) ∧
                    (d.coWire = 0 → ∀ i, i < d.coCount * Machine.sizeOf d.coOut →
                      s'.mem.byte (a + i) = s.mem.byte (d.word 1 + q * (d.coCount * Machine.sizeOf d.coIn) + i))))) ∧
          (d.op = 4 → ∃ s' o, exec p.2 s = .next s' ∧ s'.cmd? c.id = some d ∧ s'.mem = s.mem ∧ (s'.coll h.val).ops = x.ops ++ [o] ∧
            o.cmd = c.id ∧ o.gid = coKey 4 d.coPeer d.coChan ∧ o.seq = d.coSeq ∧ o.started = false) ∧
          (d.op = 5 → s.numbers.contains s.devNum = true →
            (s.pickPort h.val d.coPeer = none → ∃ s', exec p.2 s = .next s' ∧ Failed s' c.id 0x83) ∧
            (∀ t s2, s.pickPort h.val d.coPeer = some (t, s2) → s.tlTakes t = true → s.devNum < 65536 →
              ∃ s' o y, exec p.2 s = .next s' ∧ s'.cmd? c.id = some d ∧ s'.mem = s.mem ∧ (s'.coll h.val).ops = x.ops ++ [o] ∧
                o.cmd = c.id ∧ o.gid = coKey 5 d.coPeer d.coChan ∧ o.seq = d.coSeq ∧
                (s'.tport t).tx = (s.tport t).tx ++ [(1, y)] ∧ y.som = true ∧ hdrKind y.data = 3 ∧ hdrDst y.data = d.coPeer ∧ y.info = .coll (coHdr d o 0 0 0))))) ∧
    (∀ v : Word, s.regsOn = true → bit v.toNat 16 = true →
      let cur := s.fget b F.COLL.LAYOUT.CUR
      let ok := s.fbit b F.COLL.LAYOUT.DRAINING = false ∧ bits v.toNat 0 16 = (cur + 1) % 65536
      (¬ok → ∃ s', exec (.reshard h v) s = .next s' ∧ s'.fget b F.COLL.LAYOUT.LAYOUT_REJECT = 1 ∧
        s'.fget b F.COLL.LAYOUT.CUR = cur ∧ s' = { s with regs := s'.regs }) ∧
      (ok → (∀ c ∈ s.cmds, c.unit ≠ .coll h.val) → ∃ s', exec (.reshard h v) s = .next s' ∧
        s'.fget b F.COLL.LAYOUT.CUR = (cur + 1) % 65536 ∧ s'.fget b F.COLL.LAYOUT.DRAINING = 0 ∧
        s'.fget b F.COLL.LAYOUT.EPOCH_DRAINED = 1 ∧ s' = { s with regs := s'.regs }) ∧
      (ok → (∃ c ∈ s.cmds, c.unit = .coll h.val ∧ c.dropped ≠ cur + 1) → ∃ s', exec (.reshard h v) s = .next s' ∧
        s'.fget b F.COLL.LAYOUT.CUR = cur ∧ s'.fget b F.COLL.LAYOUT.DRAINING = 1 ∧ s' = { s with regs := s'.regs }))

/-- R334, R338, R339, R341, R343: a message without its operation is kept; one that does not agree with its operation ends it with MISMATCH; data of a
RECV land at their offset, and the last end it; READY lets SEND read and send SRC; an abort of another member, or a
limit passed without progress, ends an operation. -/
def Obligations.CollectiveMessages : Prop :=
  (∀ (t : Fin 18) (s : State) (hdr : CollHdr) (hd slot : Nat) (l : List WireBlk) (out : State), Plain s →
    Arrives s t.val 0 2 hd (.coll hdr) l out →
    let h := tlHub t.val
    let key := coKey (coDual hdr.op) (hdrSrc hd) hdr.gid
    let n := 64 * l.length
    let sa := s.coSlot h slot
    freeSlot (512 * s.fget (blkCOLL h) F.COLL.STAGE.NBANK) (s.coStaged h) = some slot → l ≠ [] → l.length ≤ 1024 →
    (∀ y ∈ l, y.poison = 0) → s.coStage h = true → s.stageAdm (.coll h) sa n true = .go →
    (s.coFind h key hdr.seq = none → s.coOld h hdr.layout = false → ∃ s', exec (.collData t hdr) s = .next s' ∧
      BytesOutside s.mem s'.mem sa n ∧ s'.viewCodes sa n = codesOf l ∧ s'.cmds = s.cmds ∧
      s'.coll h = { s.coll h with early := (s.coll h).early ++ [⟨key, hdr, false, 4 * l.length, slot⟩] }) ∧
    (∀ (o : CoOp) (c : Cmd), s.coFind h key hdr.seq = some o → s.coOp? h o.cmd = some o → s.cmd? o.cmd = some c → c.phase = .active →
      (coMatches c o hdr = false → ∃ s', exec (.collData t hdr) s = .next s' ∧ Failed s' o.cmd 0x84) ∧
      (coMatches c o hdr = true → c.op = 5 → o.parts = [] → s.stageAdm (.coll h) sa n false = .go →
        let a := c.word 2 + hdr.off
        a % 64 = 0 → InStacks a n → ∃ s', exec (.collData t hdr) s = .next s' ∧ s'.viewCodes a n = codesOf l ∧
          (∀ b, (b < a ∨ a + n ≤ b) → (b < sa ∨ sa + n ≤ b) → s'.mem.byte b = s.mem.byte b) ∧
          s'.cmd? o.cmd = some (if c.bytes + n < c.coCount then { c with bytes := c.bytes + n }
            else { c with bytes := c.bytes + n, cnt := 1, phase := .ending })))) ∧
  (∀ (t : Fin 18) (s : State) (hdr : CollHdr) (hd : Nat) (l : List WireBlk) (out : State) (o : CoOp) (c : Cmd), Plain s →
    Arrives s t.val 1 3 hd (.coll hdr) l out →
    let h := tlHub t.val
    s.coFind h (coKey 4 (hdrSrc hd) hdr.gid) hdr.seq = some o → s.coOp? h o.cmd = some o → s.cmd? o.cmd = some c → c.phase = .active →
    c.op = 4 →
    (hdr.count ≠ c.coCount ∨ hdr.layout ≠ c.coLayout → ∃ s', exec (.collReady t hdr.gid hdr.seq hdr.count hdr.layout) s = .next s' ∧ Failed s' o.cmd 0x84) ∧
    (hdr.count = c.coCount → hdr.layout = c.coLayout → InStacks (c.word 1) c.coCount → s.pickPort h (o.mem.getD 1 0) ≠ none →
      ∃ s', exec (.collReady t hdr.gid hdr.seq hdr.count hdr.layout) s = .next s' ∧ s'.mem = s.mem ∧
        s'.cmd? o.cmd = some { c with cnt := 1, bytes := c.coCount, phase := .ending })) ∧
  (∀ (t : Fin 18) (s : State) (op gid seq hd : Nat) (mism : Bool) (l : List WireBlk) (out : State),
    Arrives s t.val 1 7 hd (.coAbort op gid seq mism) l out →
    let h := tlHub t.val
    let key := coKey (coDual op) (hdrSrc hd) gid
    (∀ o, s.coFind h key seq = some o → s.coLive o.cmd = true → ∃ s', exec (.coAbort t op gid seq mism) s = .next s' ∧
      Failed s' o.cmd (if mism then 0x84 else 0x86)) ∧
    (s.coFind h key seq = none → (key, seq, mism) ∉ (s.coll h).aborts → ∃ s', exec (.coAbort t op gid seq mism) s = .next s' ∧
      s'.coll h = { s.coll h with aborts := (s.coll h).aborts ++ [(key, seq, mism)] } ∧ s'.cmds = s.cmds ∧ s'.mem = s.mem)) ∧
  (∀ (s : State) (id : Nat) (h : Nat) (c : Cmd) (o : CoOp), s.alive = true → s.cmd? id = some c → c.unit = .coll h → c.phase = .active →
    s.coOp? h id = some o → o.progAt + 65536 * s.fget (blkCOLL h) F.COLL.COLL_LIMIT.LIMIT ≤ s.clk.arith →
    ∃ s', exec (.coStall id) s = .next s' ∧ Failed s' id 0x85)

/-! ### The flash managers (chapter 15) -/

/-- R362 to R366, R354, R359: a legal READ or WRITE begins with all its pages to do, a TRIM unmaps its pages at once; a manager without flash or
formatting, or in READ_ONLY, ends commands with its code; each page read lands at its place, poison where it is unmapped
or its target has failed; each page committed is mapped to the next location of the target whose turn it is. -/
def Obligations.SpillsRun : Prop :=
  ∀ (h : Fin 2) (s : State), Plain s →
    let b := blkFM h.val
    let f := s.flash h.val
    (∀ (c : Cmd) (w : List Nat) (s1 : State), Begins s (.flash h.val) c w s1 → (s.activeOf (.flash h.val)).length < 64 →
      let d : Cmd := { c with words := w, phase := .active }
      ∀ p ∈ [(1, Instr.read h), (2, .write h), (3, .trim h)],
        ((s.fmState h.val = 4 ∨ s.fmState h.val = 5) → ∃ s', exec p.2 s = .next s' ∧ Failed s' c.id 0x94) ∧
        (s.fmUp h.val = true → d.op = p.1 →
          (s.spillOk h.val d = false → ∃ s', exec p.2 s = .next s' ∧ Failed s' c.id 0x90) ∧
          (s.spillOk h.val d = true → s.fmState h.val = 3 → d.op ≠ 1 → ∃ s', exec p.2 s = .next s' ∧ Failed s' c.id 0x93) ∧
          (s.spillOk h.val d = true → (s.fmState h.val = 2 ∨ d.op = 1) →
            (d.op ≠ 3 → ∃ s', exec p.2 s = .next s' ∧ s'.cmd? c.id = some { d with open_ := List.range d.fPages } ∧ s'.mem = s.mem ∧
              s'.flashes = s.flashes) ∧
            (d.op = 3 → ∃ s', exec p.2 s = .next s' ∧ s'.cmd? c.id = some { d with cnt := d.fPages, phase := .ending } ∧
              let lo := d.fHandle % 2 ^ 30
              (∀ n, Sparse.get none (s'.flash h.val).map n = if lo ≤ n ∧ n < lo + d.fPages then none else Sparse.get none f.map n) ∧
              BytesOutside s.mem s'.mem (s.fget b F.FM.MAP_BASE.BASE * 4096 + 8 * lo) (8 * d.fPages))))) ∧
    (∀ (id k : Nat) (c : Cmd) (res : List FlashCw), s.cmd? id = some c → c.unit = .flash h.val → c.phase = .active → c.op = 1 →
      c.open_.contains k = true → s.handleOk h.val (c.fHandle + k) = true →
      let a := c.fAddr + k * c.fBytes
      let n := c.fBytes
      let lpn := (c.fHandle + k) % 2 ^ 30
      InStacks a n → a % 64 = 0 →
        (Sparse.get none f.map lpn = none → ∃ s', exec (.flashPageReadDone h id k res) s = .next s' ∧ s'.viewCodes a n = poisonCodes (n / 16) ∧
          s'.fget b F.FM.UNMAPPED_READS.COUNT = min (s.fget b F.FM.UNMAPPED_READS.COUNT + 1) (2 ^ F.FM.UNMAPPED_READS.COUNT.w - 1) ∧
          BytesOutside s.mem s'.mem a n ∧ s'.cmd? id = some (c.pageDone k n 2)) ∧
        (∀ p, Sparse.get none f.map lpn = some p →
          (s.tgtOk h.val p.tgt = false → ∃ s', exec (.flashPageReadDone h id k res) s = .next s' ∧
            s'.viewCodes a n = poisonCodes (n / 16) ∧ BytesOutside s.mem s'.mem a n ∧ s'.cmd? id = some (c.pageDone k n 1)) ∧
          (s.tgtOk h.val p.tgt = true → s.viewNat (s.fget b F.FM.MAP_BASE.BASE * 4096 + 8 * lpn) 8 = p.img →
            (∀ r ∈ res, cwIsBad r = false) → ∃ s', exec (.flashPageReadDone h id k res) s = .next s' ∧
              (∀ i, i < n → s'.mem.byte (a + i) = Sparse.get 0 f.data (65536 * lpn + 64 * c.fOff + i)) ∧
              BytesOutside s.mem s'.mem a n ∧ s'.cmd? id = some (c.pageDone k n 0)))) ∧
    (∀ (id k x e : Nat) (c : Cmd), s.cmd? id = some c → c.unit = .flash h.val → c.phase = .active → c.op = 2 → c.open_.contains k = true →
      s.turnTgt h.val = some x → 2 < f.freeBlks x → f.openBlk x = some e → InStacks (c.fAddr + k * 65536) 65536 →
      let lpn := c.fHandle % 2 ^ 30 + k
      (∃ s' i, exec (.flashPageCommit h id k false) s = .next s' ∧ (s'.flash h.val).turn = (x + 1) % 32 ∧
        Sparse.get none (s'.flash h.val).map lpn = some ⟨x, e, (f.blk x e).next, s.hours h.val, i, f.wseq⟩ ∧
        (∀ n, n ≠ lpn → Sparse.get none (s'.flash h.val).map n = Sparse.get none f.map n) ∧
        (∀ j, Sparse.get 0 (s'.flash h.val).data j = if 65536 * lpn ≤ j ∧ j < 65536 * lpn + 65536
          then s.mem.byte (c.fAddr + k * 65536 + (j - 65536 * lpn)) else Sparse.get 0 f.data j) ∧
        BytesOutside s.mem s'.mem (s.fget b F.FM.MAP_BASE.BASE * 4096 + 8 * lpn) 8 ∧ s'.cmd? id = some (c.pageDone k 65536 0)) ∧
      (∃ s', exec (.flashPageCommit h id k true) s = .next s' ∧ ((s'.flash h.val).blk x e).st = .bad ∧ s'.cmd? id = some c ∧
        (s'.flash h.val).data = f.data ∧ s'.fget (tgtBlk h.val x) F.F.PROG_FAILS.COUNT =
          min (s.fget (tgtBlk h.val x) F.F.PROG_FAILS.COUNT + 1) (2 ^ F.F.PROG_FAILS.COUNT.w - 1)))

/-- R350, R355 to R361, R367: collection and levelling empty a superblock and erase it, pages moving where the turn says; an erase frees it or
retires it; the scrub goes through the mapped pages and moves the worn and the old; a target that stops answering is
FAILED; a format leaves the map empty and every good block of a working target erased; the map once rebuilt, the manager has its state. -/
def Obligations.FlashUpkeep : Prop :=
  ∀ (h : Fin 2) (s : State),
    let b := blkFM h.val
    let f := s.flash h.val
    let up (f : Flash) (x e : Nat) : State := s.setFlash h.val (f.setBlk x e { f.blk x e with st := .erasing })
    (∀ (x : Fin 32) (e : Nat), s.background h.val x.val = true →
      (f.freeBlks x.val < s.fget b F.FM.WEAR_CTL.GC_LOW →
        leastBy (fun e => (f.valid x.val e).length * 2 ^ 40 + (f.blk x.val e).erases)
          ((List.range f.blocks).filter (fun e => (f.blk x.val e).st == .full)) = some e →
        (f.valid x.val e = [] → exec (.gcCollect h x) s = .next (up f x.val e)) ∧
        (∀ p y e', f.valid x.val e = [p] → s.turnTgt h.val = some y → f.openBlk y = some e' →
          ∃ s' v, exec (.gcCollect h x) s = .next s' ∧ Sparse.get none (s'.flash h.val).map p = some v ∧ v.tgt = y ∧ v.blk = e' ∧
            (∀ n, n ≠ p → Sparse.get none (s'.flash h.val).map n = Sparse.get none f.map n) ∧ (s'.flash h.val).data = f.data)) ∧
      (∀ l, l = (List.range f.blocks).filter (fun e => (f.blk x.val e).st != .bad) →
        leastBy (fun e => (f.blk x.val e).erases) l = some e → (f.blk x.val e).st = .full →
        (f.blk x.val e).erases + s.fget b F.FM.WEAR_CTL.WEAR_SPREAD < (l.map (fun e => (f.blk x.val e).erases)).foldl max 0 →
        f.valid x.val e = [] → exec (.staticWearLevel h x) s = .next (up f x.val e))) ∧
    (∀ (x : Fin 32) (e : Nat), s.alive = true → (f.blk x.val e).st = .erasing →
      exec (.flashEraseDone h x e false) s = .next (s.setFlash h.val (f.setBlk x.val e
        { f.blk x.val e with st := .free, next := 0, erases := (f.blk x.val e).erases + 1 })) ∧
      ∃ s', exec (.flashEraseDone h x e true) s = .next s' ∧ ((s'.flash h.val).blk x.val e).st = .bad ∧ (s'.flash h.val).data = f.data ∧
        s'.fget (tgtBlk h.val x.val) F.F.ERASE_FAILS.COUNT =
          min (s.fget (tgtBlk h.val x.val) F.F.ERASE_FAILS.COUNT + 1) (2 ^ F.F.ERASE_FAILS.COUNT.w - 1)) ∧
    (∀ (res : List FlashCw), s.alive = true → s.fmUp h.val = true → (f.scrub.isSome = true ∨ f.first = true ∨ f.passAt ≤ s.hours h.val) →
      (f.map.find? (fun e => decide (f.scrub.getD 0 ≤ e.1)) = none → ∃ s', exec (.retentionScrub h res) s = .next s' ∧
        (s'.flash h.val).scrub = none ∧ (s'.flash h.val).first = false ∧ (s'.flash h.val).map = f.map ∧ s'.mem = s.mem ∧
        s'.fget b F.FM.SCRUB_PASSES.COUNT = min (s.fget b F.FM.SCRUB_PASSES.COUNT + 1) (2 ^ F.FM.SCRUB_PASSES.COUNT.w - 1)) ∧
      (∀ n p, f.map.find? (fun e => decide (f.scrub.getD 0 ≤ e.1)) = some (n, some p) → s.chanWanted h.val (p.tgt % 8) = false →
        s.tgtOk h.val p.tgt = true → (∀ r ∈ res, cwIsBad r = false) →
        let worn := (res.take 16).any (fun r => cwIsRetry r || cwIsSoft r || decide (s.fget b F.FM.SCRUB_CTL.REFRESH_BITS < cwCorrected r))
        let old := decide (p.hours + s.fget b F.FM.SCRUB_CTL.RET_HOURS < s.hours h.val)
        (worn = false → old = false → ∃ s', exec (.retentionScrub h res) s = .next s' ∧ (s'.flash h.val).scrub = some (n + 1) ∧
          (s'.flash h.val).map = f.map ∧ (s'.flash h.val).data = f.data ∧ s'.mem = s.mem) ∧
        ((worn = true ∨ old = true) → ∀ y e, s.turnTgt h.val = some y → f.openBlk y = some e → ∃ s' v,
          exec (.retentionScrub h res) s = .next s' ∧ (s'.flash h.val).scrub = some (n + 1) ∧ (s'.flash h.val).data = f.data ∧
          Sparse.get none (s'.flash h.val).map n = some v ∧ v.tgt = y ∧ v.blk = e ∧ v.hours = s.hours h.val))) ∧
    (∀ x : Fin 32, s.tgtOk h.val x.val = true → ∃ s', exec (.targetFailed h x) s = .next s' ∧ s'.tgtOk h.val x.val = false ∧
      bit (s'.fget b F.FM.FM_STATUS.FAILED_TARGETS) (4 * (x.val % 8) + x.val / 8) = true ∧ s'.fbit b F.FM.FM_STATUS.DEGRADED = true ∧
      s'.flashes = s.flashes ∧ s'.mem = s.mem ∧ s'.cmds = s.cmds) ∧
    (∀ marked : List Nat, s.alive = true → 2 ≤ s.fmState h.val → s.fmState h.val ≠ 5 → ∃ s', exec (.format h .firmware marked) s = .next s' ∧
      s'.fmState h.val = 2 ∧ (s'.flash h.val).map = [] ∧ (s'.flash h.val).data = [] ∧ s'.cmds = s.cmds ∧
      (f.blocks ≤ 65536 → s.fmState h.val ≠ 4 → ∀ x e, x < 32 → e < f.blocks → s.tgtOk h.val x = true → (f.blk x e).st ≠ .bad →
        (s'.flash h.val).blk x e = { f.blk x e with st := .free, next := 0, erases := (f.blk x e).erases + 1 })) ∧
    (∀ (present : BitVec 32) (blocks pages : Nat), s.alive = true → s.fmState h.val = 1 →
      (∃ s', exec (.flashMapRebuilt h present 0 blocks pages) s = .next s' ∧ s'.fmState h.val = 5) ∧
      (s.lpages h.val = 0 → ∀ ok : BitVec 32, ok ≠ 0 → ∃ s', exec (.flashMapRebuilt h present ok blocks pages) s = .next s' ∧
        s'.fmState h.val = 4 ∧ (s'.flash h.val).blocks = blocks ∧ (s'.flash h.val).pages = pages ∧ (s'.flash h.val).first = true ∧
        (s'.flash h.val).map = f.map ∧ s'.mem = s.mem))

/-! ### The Cellar (chapter 12) -/

/-- R282 to R284, R288 to R291, R294 to R296: a handover to a legal owner begins, is BUSY until it is done and then holds, an illegal one is
rejected; a bank that returns from OFF, or is to be zeroed, reads zero; the cache comes up over invalidated banks and goes
down when its lines are written back; INVALIDATE discards, CLEAN writes back, FLUSH does both and DONE follows the last
acknowledgement; a march test runs on a free bank, zeroes it unless it preserves, and takes a failing one out of use. -/
def Obligations.CellarCommands : Prop :=
  ∀ (q : Fin 4) (s : State),
    let b := blkCELLAR q.val
    let dis := s.fbit b F.CELLAR.CACHE_STATUS.DISABLING
    let own (s : State) (i : Nat) (f : Fld) : Nat := s.bankOwn q.val i f
    let way (s : State) (k : Nat) : CLine := Sparse.get CLine.init s.clines k
    (∀ (i : Fin 56) (rq : Requester) (v : Word), s.fwOrOwner rq q.val = true →
      (s.bankRefuses q.val i.val v.toNat = true → ∃ s', exec (.bankOwnWrite q i rq v) s = .next s' ∧
        s'.fget b F.CELLAR.CELLAR_STATUS.HANDOVER_REJECT = 1 ∧ s' = { s with regs := s'.regs } ∧
        own s' i.val F.CELLAR.BANK_STATUS.BUSY = own s i.val F.CELLAR.BANK_STATUS.BUSY) ∧
      (s.bankRefuses q.val i.val v.toNat = false → ∃ s', exec (.bankOwnWrite q i rq v) s = .next s' ∧
        own s' i.val F.CELLAR.BANK_STATUS.BUSY = 1 ∧ s'.bankTr q.val i.val = some ⟨bits v.toNat 0 3, bits v.toNat 4 4, bits v.toNat 8 2,
          bits v.toNat 10 2, bit v.toNat 12⟩ ∧ own s' i.val F.CELLAR.BANK_OWN.MODE = own s i.val F.CELLAR.BANK_OWN.MODE ∧
        s' = { s with regs := s'.regs, bankTrs := s'.bankTrs })) ∧
    (∀ (i : Fin 56) (t : BankTr), s.alive = true → s.bankTr q.val i.val = some t → t.kind < 8 → t.id < 16 → t.mode < 4 → t.power < 4 →
      ∃ s', exec (.bankTransitionDone q i) s = .next s' ∧ own s' i.val F.CELLAR.BANK_OWN.OWNER_KIND = t.kind ∧
        own s' i.val F.CELLAR.BANK_OWN.OWNER_ID = t.id ∧ own s' i.val F.CELLAR.BANK_OWN.MODE = t.mode ∧
        own s' i.val F.CELLAR.BANK_OWN.POWER = t.power ∧ own s' i.val F.CELLAR.BANK_STATUS.BUSY = 0 ∧ s'.bankTr q.val i.val = none ∧
        BytesOutside s.mem s'.mem (bankAddr q.val i.val 0) 0x2000000 ∧
        ((t.zero = true ∨ own s i.val F.CELLAR.BANK_STATUS.POWER_STATE = 2 ∧ t.power ≠ 2) → ∀ a, bankAddr q.val i.val 0 ≤ a →
          a < bankAddr q.val i.val 0x2000000 → s'.mem.byte a = 0) ∧
        (t.zero = false → own s i.val F.CELLAR.BANK_STATUS.POWER_STATE ≠ 2 → s'.mem = s.mem)) ∧
    ((s.cacheOn q.val = true → dis = false → exec (.cacheEnable q) s = .next s) ∧
     ((dis = true ∨ s.cacheOn q.val = false ∧ (s.cacheBanks q.val = [] ∨ ∃ i ∈ s.cacheBanks q.val, own s i F.CELLAR.BANK_STATUS.INV = 0)) →
       ∃ s', exec (.cacheEnable q) s = .next s' ∧ s'.fget b F.CELLAR.CACHE_STATUS.ENABLE_REJECT = 1 ∧ s'.cacheOn q.val = s.cacheOn q.val ∧
         s' = { s with regs := s'.regs }) ∧
     (s.cacheOn q.val = false → dis = false → s.cacheBanks q.val ≠ [] → (∀ i ∈ s.cacheBanks q.val, own s i F.CELLAR.BANK_STATUS.INV ≠ 0) →
       ∃ s', exec (.cacheEnable q) s = .next s' ∧ s'.cacheOn q.val = true ∧ s' = { s with regs := s'.regs }) ∧
     (s.cacheOn q.val = true → dis = false → ∃ s', exec (.cacheDisable q) s = .next s' ∧ s'.cacheOn q.val = true ∧
       s'.fget b F.CELLAR.CACHE_STATUS.DISABLING = 1 ∧ s'.fget b F.CELLAR.CACHE_CTL.ENABLE = 0 ∧ s' = { s with regs := s'.regs }) ∧
     (s.alive = true → dis = true → s.fbit b F.CELLAR.RANGE_STATUS.BUSY = false → ∃ s', exec (.cacheDisableDone q) s = .next s' ∧
       s'.cacheOn q.val = false ∧ s'.fbit b F.CELLAR.CACHE_STATUS.DISABLING = false ∧ s'.linesOf q.val = [] ∧
       ((∀ e ∈ s.linesOf q.val, e.2.dirty = false) → (∀ a, a < 0x024000000000 → s'.mem.byte a = s.mem.byte a) ∧ s'.wbacks = s.wbacks))) ∧
    (∀ (line : Nat) (x : WBack), s.alive = true → s.wbacks.find? (fun x => x.q == q.val && x.line == line) = some x →
      s.pcs.any (fun e => e.2.queue.any (fun r => r.for_ == .wb q.val line)) = false →
      exec (.writebackAck q line) s = .next { s with wbacks := s.wbacks.erase x }) ∧
    (∀ all : Bool,
      let a := 256 * s.fget b F.CELLAR.RANGE_START.ADDR
      let n := 256 * s.fget b F.CELLAR.RANGE_LEN.LEN
      let ok := s.fbit b F.CELLAR.RANGE_STATUS.BUSY = false ∧
        (all = true ∨ n ≠ 0 ∧ q.val * 0x009000000000 ≤ a ∧ a + n ≤ (q.val + 1) * 0x009000000000)
      ∀ p ∈ [(1, Instr.invalidate q all), (2, .clean q all), (3, .flush q all)],
        (¬ok → ∃ s', exec p.2 s = .next s' ∧ s'.fget b F.CELLAR.RANGE_STATUS.REJECT = 1 ∧ s' = { s with regs := s'.regs }) ∧
        (ok → s.cmem.upset = [] → ∀ e, s.linesOf q.val = [e] → (all = true ∨ a ≤ 256 * (e.2.line - 1) ∧ 256 * (e.2.line - 1) < a + n) →
          ∃ s', exec p.2 s = .next s' ∧ s'.fget b F.CELLAR.RANGE_STATUS.BUSY = 1 ∧
            (s'.cellarSt q.val).rangeInv = (all && p.1 != 2) ∧
            (way s' e.1 = if p.1 = 2 then { e.2 with dirty := false } else CLine.init) ∧
            (let line := e.2.line - 1
             let bank := e.1 / (8192 * 16) % 64
             let out := e.2.dirty = true ∧ p.1 ≠ 1
             let m := if out then s.mem.copyLine s.cmem line else s.mem
             s'.mem = (if p.1 = 2 then m
               else m.moveLine s.cmem line ((cellarBase + (56 * q.val + bank) * 0x2000000) / 256 + e.1 % (8192 * 16))) ∧
             (out → ∃ x, s'.wbacks = s.wbacks ++ [x] ∧ x.q = q.val ∧ x.bank = bank ∧ x.line = line ∧ x.range = true) ∧
             (¬out → s'.wbacks = s.wbacks)))) ∧
    (s.alive = true → s.fbit b F.CELLAR.RANGE_STATUS.BUSY = true → s.wbacks.any (fun x => x.q == q.val && x.range) = false →
      ∃ s', exec (.rangeDone q) s = .next s' ∧ s'.fget b F.CELLAR.RANGE_STATUS.BUSY = 0 ∧ s'.fget b F.CELLAR.RANGE_STATUS.DONE = 1 ∧
        ((s.cellarSt q.val).rangeInv = true → ∀ i ∈ s.cacheBanks q.val, own s' i F.CELLAR.BANK_STATUS.INV = 1) ∧
        s' = { s with regs := s'.regs, cellars := s'.cellars }) ∧
    (∀ (i : Fin 64) (keep : Bool), i.val < 58 →
      ((s.march q.val).isSome = true ∨ s.marchable q.val i.val = false → ∃ s', exec (.marchTest q i keep) s = .next s' ∧
        s'.fget b F.CELLAR.MARCH_STATUS.REJECT = 1 ∧ s' = { s with regs := s'.regs }) ∧
      (s.march q.val = none → s.marchable q.val i.val = true → ∃ s', exec (.marchTest q i keep) s = .next s' ∧
        s'.march q.val = some ⟨i.val, keep⟩ ∧ s'.fget b F.CELLAR.MARCH_STATUS.BUSY = 1 ∧
        (i.val < 56 → own s' i.val F.CELLAR.BANK_STATUS.BUSY = 1) ∧ s' = { s with regs := s'.regs, marches := s'.marches })) ∧
    (∀ (m : March) (fails first : Nat), s.alive = true → s.march q.val = some m → m.bank < 58 →
      ∃ s', exec (.marchDone q fails first) s = .next s' ∧ s'.march q.val = none ∧ s'.fget b F.CELLAR.MARCH_STATUS.BUSY = 0 ∧
        s'.fget b F.CELLAR.MARCH_STATUS.DONE = 1 ∧ s'.fget b F.CELLAR.MARCH_STATUS.FAIL = b2n (fails != 0) ∧
        (56 ≤ m.bank ∨ m.preserve = true → s'.mem = s.mem) ∧
        (m.bank < 56 → own s' m.bank F.CELLAR.BANK_STATUS.BUSY = 0 ∧
          (m.preserve = false → (∀ a, bankAddr q.val m.bank 0 ≤ a → a < bankAddr q.val m.bank 0x2000000 → s'.mem.byte a = 0) ∧
            BytesOutside s.mem s'.mem (bankAddr q.val m.bank 0) 0x2000000) ∧
          (fails ≠ 0 → own s' m.bank F.CELLAR.BANK_STATUS.FAILED = 1 ∧ own s' m.bank F.CELLAR.BANK_OWN.OWNER_KIND = 0 ∧
            own s' m.bank F.CELLAR.BANK_OWN.MODE = 1) ∧
          (fails = 0 → own s' m.bank F.CELLAR.BANK_STATUS.FAILED = own s m.bank F.CELLAR.BANK_STATUS.FAILED)))

/-! ### The stack controllers (chapter 13) -/

/-- R302 to R308, R310, R311, R313, R314: a command goes to the oldest request that has waited too long, else LAT reads go first within their
share; read data answer the access or fill the line; the share is counted anew in each window; a refresh closes the row; a
parity error has the reads issued again; the scrubber repairs single symbols and goes on; a lane past its limit is marked
and fails its channel where no spare is left; a retrained channel is TRAINED or FAILED; test mode is for quarters nobody owns. -/
def Obligations.StackControllers : Prop :=
  ∀ (k : Fin 24) (s : State),
    let b := blkSTACK k.val
    let x := s.stackSt k.val
    let st (s : State) : Nat := s.fget b F.STACK.STACK_STATUS.STATE
    (∀ (ch : Fin 16) (pc : Fin 2),
      let y := s.pcSt k.val ch.val pc.val
      let after (s : State) : Pc := s.pcSt k.val ch.val pc.val
      (s.chOpen k.val ch.val = true → y.queue ≠ [] → ∃ s' r, exec (.stackCommandIssue k ch pc) s = .next s' ∧ r ∈ y.queue ∧
        (after s').queue = y.queue.erase r ∧ (after s').flight = (if r.write then y.flight else y.flight ++ [r]) ∧
        Sparse.get 0 (after s').rows (bankRow r.addr).1 = (bankRow r.addr).2 + 1 ∧
        Sparse.get 0 (after s').used (bankRow r.addr).1 = s.clk.arith + 1 ∧
        (∀ o, y.queue.find? (fun r => r.old s.clk.arith) = some o → r = o) ∧
        (y.queue.find? (fun r => r.old s.clk.arith) = none → y.drains s.clk.arith = false →
          (∃ r ∈ y.queue, r.write = false ∧ r.lat = true) → y.latBus < y.limit → r.write = false ∧ r.lat = true) ∧
        s' = { s with pcs := s'.pcs }) ∧
      (∀ (r : PcReq) (rest : List PcReq), s.chOpen k.val ch.val = true → s.qState (k.val / 6) ≠ 5 → y.flight = r :: rest →
        (∀ id q, r.for_ = .req id → r.found = [] → s.req? id = some q → ∃ s', exec (.stackReadData k ch pc) s = .next s' ∧
          s'.req? id = some { q with answer := some (.data r.v r.bad) } ∧ (after s').flight = rest ∧ s'.mem = s.mem) ∧
        (∀ id line, r.for_ = .fill id line → ∃ s', exec (.stackReadData k ch pc) s = .next s' ∧ (after s').flight = rest ∧
          s'.misses = s.misses.map (fun m => if m.req = id ∧ m.line = line then { m with ready := true } else m) ∧ s'.mem = s.mem)) ∧
      (∀ bank : Fin 64, s.alive = true → ∃ s', exec (.refreshDue k ch pc bank) s = .next s' ∧
        (∀ j, Sparse.get 0 (after s').rows j = if j = bank.val then 0 else Sparse.get 0 y.rows j) ∧ (after s').queue = y.queue ∧
        s' = { s with pcs := s'.pcs }) ∧
      (∀ lane : Fin 36, s.alive = true →
        s.fget b F.STACK.STACK_CTL.LANE_LIMIT < Sparse.get 0 x.laneN (128 * ch.val + 64 * pc.val + lane.val) →
        let old := s.fget b F.STACK.CH_STATUS.FAILING (chIx ch.val)
        let new := 128 + 64 * pc.val + lane.val
        old ≠ new → ∃ s', exec (.laneFailing k ch pc lane) s = .next s' ∧ s'.fget b F.STACK.CH_STATUS.FAILING (chIx ch.val) = new ∧
          (s.laneSpare k.val ch.val pc.val lane.val = false → bit old 7 = false → st s' = st s) ∧
          (s.laneSpare k.val ch.val pc.val lane.val = true → s.fbit b F.STACK.CH_STATUS.FAILED (chIx ch.val) = false → st s' = 4 ∧
            s'.fbit b F.STACK.CH_STATUS.FAILED (chIx ch.val) = true) ∧ s'.mem = s.mem)) ∧
    (∀ ch : Fin 16,
      let failed (s : State) : Bool := s.fbit b F.STACK.CH_STATUS.FAILED (chIx ch.val)
      let trained (s : State) : Nat := s.fget b F.STACK.CH_STATUS.TRAINED (chIx ch.val)
      (s.alive = true → ∃ s', exec (.caParityError k ch) s = .next s' ∧
        (∀ pc, pc < 2 → s'.pcSt k.val ch.val pc = { s.pcSt k.val ch.val pc with
          rows := [], queue := (s.pcSt k.val ch.val pc).flight ++ (s.pcSt k.val ch.val pc).queue, flight := [] }) ∧
        (let last := Sparse.get 0 x.caAt ch.val
         last ≠ 0 → s.clk.arith + 1 ≤ last + 64 → ch.val ∈ (s'.stackSt k.val).retrain) ∧ s'.mem = s.mem) ∧
      (s.alive = true → ch.val ∉ x.retrain → ∃ s', exec (.retrain k ch) s = .next s' ∧ trained s' = 0 ∧
        s'.stackSt k.val = { x with retrain := x.retrain ++ [ch.val] } ∧ s' = { s with regs := s'.regs, stkSts := s'.stkSts }) ∧
      (s.alive = true → ch.val ∈ x.retrain → failed s = false →
        (∀ bad, ∃ s', exec (.retrainDone k ch false bad) s = .next s' ∧ failed s' = true ∧ trained s' = 0 ∧ st s' = 4 ∧
          (s'.stackSt k.val).retrain = x.retrain.filter (· != ch.val)) ∧
        (∃ s', exec (.retrainDone k ch true []) s = .next s' ∧ failed s' = false ∧ trained s' = 1 ∧ st s' = st s ∧
          bit (s'.fget b F.STACK.CH_STATUS.FAILING (chIx ch.val)) 7 = false ∧
          (s'.stackSt k.val).retrain = x.retrain.filter (· != ch.val))) ∧
      (let busy := s.fbit b F.STACK.TG_STATUS.BUSY (chIx ch.val)
       let ok := busy = false ∧ s.fbit b F.STACK.STACK_CTL.TEST_MODE = true
       (∃ s', exec (.trafficGenGo k ch) s = .next s' ∧ s' = { s with regs := s'.regs } ∧
         (ok → s'.fget b F.STACK.TG_STATUS.BUSY (chIx ch.val) = 1) ∧
         (¬ok → s'.fget b F.STACK.TG_STATUS.REJECT (chIx ch.val) = 1 ∧ s'.fbit b F.STACK.TG_STATUS.BUSY (chIx ch.val) = busy)) ∧
       (∀ errs lanes, s.alive = true → busy = true → ∃ s', exec (.trafficGenDone k ch errs lanes) s = .next s' ∧
         s'.fget b F.STACK.TG_STATUS.BUSY (chIx ch.val) = 0 ∧ s'.fget b F.STACK.TG_STATUS.DONE (chIx ch.val) = 1 ∧
         s'.fget b F.STACK.TG_ERRORS.COUNT (chIx ch.val) =
           min (s.fget b F.STACK.TG_ERRORS.COUNT (chIx ch.val) + errs) (2 ^ F.STACK.TG_ERRORS.COUNT.w - 1) ∧
         (s.fget b F.STACK.TG_CTL.WRITE_PCT (chIx ch.val) = 0 → s'.mem = s.mem)))) ∧
    (s.alive = true → x.win ≠ s.now / 1024 → ∃ s', exec (.latShareWindow k) s = .next s' ∧ (s'.stackSt k.val).win = s.now / 1024 ∧
      (∀ ch pc, ch < 16 → pc < 2 → (s'.pcSt k.val ch pc).latBus = 0 ∧ (s'.pcSt k.val ch pc).queue = (s.pcSt k.val ch pc).queue ∧
        (s'.pcSt k.val ch pc).limit = 4 * s.fget b F.STACK.STACK_CTL.LAT_SHARE) ∧ s'.mem = s.mem) ∧
    (let n := x.scrub
     s.fbit b F.STACK.STACK_CTL.SCRUB_ENABLE = true → s.qUp (k.val / 6) = true → st s = 1 → s.chOpen k.val (n % 16) = true →
     (s.pcSt k.val (n % 16) (n / 16 % 2)).queue = [] →
     ∃ s', exec (.scrubRead k) s = .next s' ∧ (s'.stackSt k.val).scrub = (if n + 1 < scrubTotal then n + 1 else 0) ∧
       s'.mem.bytes = s.mem.bytes ∧
       (∀ c ∈ cws (scrubAddr k.val n) 64, ∀ sym, s.mem.cw c = .one sym → s'.mem.cw c = .clean) ∧
       (∀ c, c ∉ cws (scrubAddr k.val n) 64 → s'.mem.cw c = s.mem.cw c)) ∧
    (let own := s.owned (k.val / 6) = true ∨ s.cacheOn (k.val / 6) = true ∨ st s = 4
     (own → ∃ s', exec (.testModeWrite k true) s = .next s' ∧ s'.fget b F.STACK.STACK_STATUS.TEST_REJECT = 1 ∧
       s'.fget b F.STACK.STACK_CTL.TEST_MODE = s.fget b F.STACK.STACK_CTL.TEST_MODE ∧ s' = { s with regs := s'.regs }) ∧
     (¬own → ∃ s', exec (.testModeWrite k true) s = .next s' ∧ s'.fget b F.STACK.STACK_CTL.TEST_MODE = 1 ∧
       st s' = (if st s = 1 then 3 else st s) ∧ s' = { s with regs := s'.regs }) ∧
     (∃ s', exec (.testModeWrite k false) s = .next s' ∧ s'.fget b F.STACK.STACK_CTL.TEST_MODE = 0 ∧
       st s' = (if st s = 3 then 1 else st s) ∧ s' = { s with regs := s'.regs }))

/-! ### Errors, temperatures, power and resets (chapters 16 and 17) -/

/-- R307, R375 to R377, R380, R381, R383: a report becomes the log's next record; a DEGRADED one takes its quarter out of service, a FATAL one ends all
work; a sensor's second reading in a row at its limit trips the device, and the stacks go into self-refresh. -/
def Obligations.ErrorsAndSensors : Prop :=
  ∀ s : State,
    let seq (s : State) : Nat := s.fget blkSILPAOT F.SILPAOT.LOG_HEAD.SEQ
    let stk (s : State) (k : Nat) : Nat := s.fget (blkSTACK k) F.STACK.STACK_STATUS.STATE
    let tripped (s' : State) : Prop := s'.pow.thermtrip = true ∧ ∀ k, k < 24 → stk s k ≠ 4 → stk s' k = 2
    (∀ (n : Nat) (r : ErrRec) (rest : List ErrRec), s.loggerUp = true → Sparse.get [] s.err.queues n = r :: rest → seq s < 2 ^ 32 →
      let m := nextSeq (seq s)
      ∃ s', exec (.errorReport n) s = .next s' ∧ seq s' = m ∧ Sparse.get none s'.err.log (m % 4096) = some { r with seq := m } ∧
        (∀ j, j ≠ m % 4096 → Sparse.get none s'.err.log j = Sparse.get none s.err.log j) ∧
        (r.cls < 3 → Sparse.get [] s'.err.queues n = rest ∧ s'.err.journal = s.err.journal ∧ s' = { s with regs := s'.regs, err := s'.err, ports := s'.ports } ∧
          (r.code = 0xA8 → ∀ p, p < 2 → bit (s'.fget (blkJI p) F.JI.DEV_EVENT.CAUSE) 1 = true)) ∧
        (r.cls = 3 → s'.err.smbAlert = true ∧ s'.err.fatal = s.err.fatal ∧
          (r.code = 0xAA ∨ r.code = 0xA9 → s'.qState (r.block / 0x100) = 5)) ∧
        (r.cls = 4 → s'.err.fatal = true ∧ s'.err.smbAlert = true ∧ s'.threads = [] ∧ s'.cmds = [] ∧ s'.fabric.reqs = [] ∧ s'.alive = false ∧
          ∀ t, t < 18 → s'.tlState t = 0)) ∧
    (∀ (die : Fin 6) (n : BitVec 8) (t : Nat), s.pow.boot ≠ .held →
      let key := 256 * die.val + n.toNat
      ∃ s', exec (.sensorReading die n t) s = .next s' ∧ Sparse.get 0 s'.pow.temps key = t ∧ s'.mem = s.mem ∧
        (t < 115 → Sparse.get 0 s'.pow.hot key = 0 ∧ s'.pow.thermtrip = s.pow.thermtrip) ∧
        (115 ≤ t → s.pow.thermtrip = false → 0 < Sparse.get 0 s.pow.hot key → tripped s') ∧
        (115 ≤ t → Sparse.get 0 s.pow.hot key = 0 → Sparse.get 0 s'.pow.hot key = 1 ∧ s'.pow.thermtrip = s.pow.thermtrip)) ∧
    (∀ (k : Fin 24) (t : Nat), s.pow.boot ≠ .held → ∃ s', exec (.stackTempReading k t) s = .next s' ∧ s'.mem = s.mem ∧
      s'.fget (blkSTACK k.val) F.STACK.STACK_STATUS.TEMP = min t 255 ∧
      s'.fget (blkSTACK k.val) F.STACK.STACK_STATUS.REFRESH_2X =
        (if 85 < t then 1 else if t ≤ 80 then 0 else s.fget (blkSTACK k.val) F.STACK.STACK_STATUS.REFRESH_2X) ∧
      (t < 105 → s'.pow.thermtrip = s.pow.thermtrip) ∧
      (105 ≤ t → s.pow.thermtrip = false → 0 < Sparse.get 0 s.pow.hot (4096 + k.val) → tripped s'))

/-- R387 to R390, R412, R413: a lost rail, PWR_GOOD, COLD_RST_N and firmware's COLD hold the device, with the cause recorded and only what the Ledger, the
MRAM and the flash hold kept; from the release the start-up goes from step to step, and fails where neither image bank is good. -/
def Obligations.ColdStart : Prop :=
  ∀ s : State,
    let cold (s' : State) (cause : Nat) : Prop := s'.pow.boot = .held ∧ s'.mem = ⟨[], [], []⟩ ∧ s'.threads = [] ∧ s'.jobs = [] ∧ s'.cmds = [] ∧
      s'.trust.ledger = s.trust.ledger ∧ s'.pending = s.pending ∧ s'.err.journal = s.err.journal ∧ s'.err.log = [] ∧
      s'.fget blkHCTL F.HCTL.PWR_STATUS.LAST_CAUSE = cause ∧ (∀ q, q < 4 → s'.qState q = 0)
    (s.pow.boot ≠ .held →
      (∀ rail : Fin 14, rail.val ≠ 12 → ∃ s', exec (.railOutOfTolerance rail true) s = .next s' ∧ cold s' 3 ∧
        s'.fget blkHCTL F.HCTL.PWR_STATUS.LAST_RAIL = rail.val ∧ s'.pow.rails.getLsbD rail.val = false) ∧
      (∃ s', exec (.railOutOfTolerance 12 true) s = .next s' ∧ cold s' 0 ∧ s'.pow.rails.getLsbD 12 = false) ∧
      (∃ s', exec .pwrGoodLow s = .next s' ∧ cold s' 1 ∧ s'.pow.pwrGood = false) ∧
      (∃ s', exec .coldRstNLow s = .next s' ∧ cold s' 2 ∧ s'.pow.coldRstN = false)) ∧
    (s.pow.boot = .running ∨ s.pow.boot = .warm → ∃ s', exec (.cold .firmware) s = .next s' ∧ cold s' 4) ∧
    (s.pow.boot = .held → ∃ s', exec (.coldResetRelease true) s = .next s' ∧ s'.pow.boot = .released ∧ s'.pow.pwrGood = true ∧
      s'.pow.coldRstN = true ∧ s'.pow.rails = BitVec.allOnes 14 ∧ s'.fget blkCLK F.CLK.CLK_STATUS.PLL_LOCK = 1 ∧
      s'.clk.arith = 0 ∧ s' = { s with pow := s'.pow, regs := s'.regs, clk := s'.clk }) ∧
    (s.pow.boot = .released → ∃ s', exec .ledgerRead s = .next s' ∧ s'.pow.boot = .ledger ∧
      s'.fget blkSILPAOT F.SILPAOT.DEBUG.IN_EFFECT = s.fget blkSILPAOT F.SILPAOT.DEBUG.STATE % 2 ^ F.SILPAOT.DEBUG.IN_EFFECT.w ∧
      s'.trust = { s.trust with coresOn := s.trust.cores } ∧ s' = { s with pow := s'.pow, regs := s'.regs, trust := s'.trust }) ∧
    (s.pow.boot = .ledger →
      let floor := s.fget blkSILPAOT F.SILPAOT.SVN_FLOOR.FLOOR
      let good (b : FwBank) : Bool := b.ok && b.above floor
      ∃ s', exec .firmwareVerified s = .next s' ∧ s'.trust.ledger = s.trust.ledger ∧
        ((good s.trust.bankA = true ∨ good s.trust.bankB = true) → s'.pow.boot = .firmware) ∧
        (s.trust.sel = true → good s.trust.bankB = true →
          s'.fget blkSILPAOT F.SILPAOT.BOOT_STATUS.BANK = 1 ∧ s'.trust.digs = s.trust.bankB.digs) ∧
        (s.trust.sel = false → good s.trust.bankA = true →
          s'.fget blkSILPAOT F.SILPAOT.BOOT_STATUS.BANK = 0 ∧ s'.trust.digs = s.trust.bankA.digs) ∧
        (good s.trust.bankA = false → good s.trust.bankB = false → s'.pow.boot = .failed ∧ s'.alive = false ∧ ∀ q, q < 4 → s'.qState q = 0)) ∧
    (s.pow.boot = .firmware → ∃ s', exec (.stacksTrained [] []) s = .next s' ∧ s'.pow.boot = .training ∧
      ∀ k, k < 24 → s'.fget (blkSTACK k) F.STACK.STACK_STATUS.STATE = 1) ∧
    (s.pow.boot = .training → ∃ s', exec .quartersReady s = .next s' ∧ s'.pow.boot = .quarters ∧
      ∀ q, q < 4 → s'.qState q = if s.qState q = 5 then 5 else 1) ∧
    (∀ cls parts modes (role : Fin 5), (s.pow.boot = .quarters ∨ s.pow.boot = .warm) → ∃ s',
      exec (.profileApplied cls parts modes role) s = .next s' ∧ s'.pow.boot = (if s.pow.boot = .warm then .running else .profile) ∧
      s'.fbit blkHCTL F.HCTL.PWR_CLASS.CLASS = cls ∧ s'.fget blkGTC F.GTC.ROLE.ROLE = role.val ∧
      s'.fget (blkJI 0) F.JI.PARTITION.OWNED = (s.partition parts).1 ∧ s'.fget (blkJI 1) F.JI.PARTITION.OWNED = (s.partition parts).2) ∧
    (s.pow.boot = .profile → exec .configReady s = .next (s.setBoot .running))

/-- R391 to R395: WARM keeps the stacks' bytes, the log and the Ledger and loses every job and task; MGMT restarts the management core alone;
QRESET and CLUSTER_RESET wait for the work they end, and then only their quarter, or their clusters, lose their state. -/
def Obligations.ResetsRun : Prop :=
  ∀ s : State,
    let keeps (s' : State) : Prop := ∀ a, a < 0x024000000000 → (∀ x ∈ s.wbacks, a / 16 ∉ x.cws) → s'.mem.byte a = s.mem.byte a
    (s.pow.boot = .running → s.clk.mgmtOnly = false →
      ∀ i ∈ [Instr.warmRstN, .warm .firmware], ∃ s', exec i s = .next s' ∧ s'.pow.boot = .warm ∧ s'.jobs = [] ∧ s'.threads = [] ∧
        s'.cmds = [] ∧ s'.fabric.reqs = [] ∧ s'.clk.arith = 0 ∧ s'.trust = s.trust ∧ s'.err.log = s.err.log ∧ s'.pending = s.pending ∧ keeps s' ∧
        s'.fget blkHCTL F.HCTL.LOST.WARM = 1) ∧
    (∀ i ∈ [Instr.smbusMgmtReset, .mgmt .firmware, .mgmt (.port 0), .mgmt (.port 1), .mgmtWdExpire],
      s.pow.mgmtReset = false → s.pow.boot = .running → (s.cmds.map (·.id)).Nodup →
      (i = .mgmtWdExpire → let l := s.fget blkHCTL F.HCTL.MGMT_WD.LIMIT
        l ≠ 0 ∧ l * 1048576 * 5 ≤ s.pow.wdN * 4) →
      ∃ s', exec i s = .next s' ∧ s'.pow.mgmtReset = true ∧ s'.pow.boot = .running ∧ s'.trust.reqs = [] ∧ s'.trust.ledger = s.trust.ledger ∧
        s'.mem = s.mem ∧ s'.fget blkHCTL F.HCTL.LOST.MGMT = 1 ∧
        (∀ c ∈ s'.cmds, c.unit.isFlash = true → c.phase = .ending ∨ c.phase = .signalled)) ∧
    (exec (.kick .firmware) s = .next (s.setPow { s.pow with wdN := 0 })) ∧
    (∀ (q : Fin 4) (rq : Requester), s.fwOrOwner rq q.val = true →
      (2 ≤ s.qState q.val → ∃ s', exec (.qreset q rq) s = .next s' ∧ s'.fget (blkQCTL q.val) F.QCTL.Q_STATUS.CMD_REJECT = 1 ∧
        s' = { s with regs := s'.regs }) ∧
      (s.qState q.val < 2 → s.pow.boot = .running → ∃ s', exec (.qreset q rq) s = .next s' ∧ s'.pow.qreset.getLsbD q.val = true ∧
        s'.mem = s.mem ∧ (s.pow.qreset.getLsbD q.val = false → (∀ x ∈ s.jobs, s.jobIn q.val x = false) → s'.jobs = s.jobs ∧ s'.cmds = s.cmds)) ∧
      (∀ mask : BitVec 16, mask ≠ 0 →
        (2 ≤ s.qState q.val → ∃ s', exec (.clusterReset q mask rq) s = .next s' ∧
          s'.fget (blkQCTL q.val) F.QCTL.Q_STATUS.CMD_REJECT = 1 ∧ s' = { s with regs := s'.regs }) ∧
        (s.qState q.val < 2 → s.pow.boot = .running → s.pow.qreset.getLsbD q.val = false → ∃ s', exec (.clusterReset q mask rq) s = .next s' ∧
          s'.mem = s.mem ∧ ∀ i, i < 16 → mask.getLsbD i = true → s'.pow.creset.getLsbD (16 * q.val + i) = true))) ∧
    (∀ q : Fin 4, s.alive = true →
      (s.pow.qreset.getLsbD q.val = true → (∀ x ∈ s.jobs, s.jobIn q.val x = false) → ∃ s', exec (.quarterResetProceed q) s = .next s' ∧
        s'.pow.qreset.getLsbD q.val = false ∧ s'.fget (blkQCTL q.val) F.QCTL.Q_STATUS.Q_LOST = 1 ∧ keeps s' ∧
        (∀ e ∈ s'.tasks, e.1 / 16384 ≠ q.val) ∧ (∀ e ∈ s'.objs, e.1 / 65536 ≠ q.val)) ∧
      (s.qUp q.val = true →
        let named (cl : Nat) : Bool := cl / 16 == q.val && s.pow.creset.getLsbD cl
        (∃ cl, cl < 64 ∧ named cl = true) → (∀ cl, cl < 64 → named cl = true → s.clusterClear cl = true) →
        ∃ s', exec (.clusterResetProceed q) s = .next s' ∧ keeps s' ∧
          (∀ cl, cl < 64 → named cl = true → s'.pow.creset.getLsbD cl = false ∧
            bit (s'.fget (blkQCTL q.val) F.QCTL.CLUSTER_PWR.CL_LOST) (cl % 16) = true ∧
            ∀ a, scratchAddr (64 * cl) 0 ≤ a → a < scratchAddr (64 * cl + 64) 0 → s'.mem.byte a = 0) ∧
          (∀ e ∈ s.threads, named (e.1 / 4096) = false → e ∈ s'.threads)))

/-- R396 to R398, R400 to R404: the throttle level follows power and temperature, at least FLOOR, and is 12 while PWR_ALERT_N is low; an idle cluster
goes off and comes on when it is wanted; a free, empty quarter enters and leaves standby; D3hot holds a port's records. -/
def Obligations.PowerStates : Prop :=
  ∀ s : State,
    let b := blkHCTL
    (∀ est : Nat, s.now % 14000 = 0 → s.thrAt ≠ s.now + 1 → s.pow.boot ≠ .held → s.clk.mgmtOnly = false →
      let p := s.pow
      let target := (if s.fbit b F.HCTL.PWR_CLASS.CLASS then 2800 else 2200) * (100 - s.fget b F.HCTL.THROTTLE_CTL.MARGIN)
      let tj := s.fget b F.HCTL.THROTTLE_CTL.T_JUNC
      let ts := s.fget b F.HCTL.THROTTLE_CTL.T_STACK
      let hot := tj ≤ p.juncWin ∨ ts ≤ p.stackWin
      let low := est * 10000 < 97 * target ∧ p.juncWin + 3 ≤ tj ∧ p.stackWin + 3 ≤ ts
      let fl := s.fget b F.HCTL.THROTTLE_CTL.FLOOR
      ∃ s', exec (.throttleUpdate est) s = .next s' ∧ (p.alertN = false → s'.pow.level = 12) ∧
        (p.alertN = true → (target < est * 100 ∨ hot) → s'.pow.level = max (min (p.level + 1) 12) fl) ∧
        (p.alertN = true → ¬(target < est * 100 ∨ hot) → low → s'.pow.level = max (p.level - 1) fl) ∧
        (p.alertN = true → ¬(target < est * 100 ∨ hot) → ¬low → s'.pow.level = max p.level fl) ∧
        (s'.pow.thermWarn = true ↔ hot) ∧ s'.fget b F.HCTL.PWR_EST.WATTS = min est 65535 ∧
        s' = { s with regs := s'.regs, thrAt := s.now + 1, pow := s'.pow }) ∧
    (s.pow.alertN = true → ∃ s', exec .pwrAlertNLow s = .next s' ∧ s'.pow = { s.pow with alertN := false, level := 12 } ∧
      s'.fget b F.HCTL.ALERT_COUNT.COUNT = min (s.fget b F.HCTL.ALERT_COUNT.COUNT + 1) (2 ^ F.HCTL.ALERT_COUNT.COUNT.w - 1) ∧
      s' = { s with regs := s'.regs, pow := s'.pow }) ∧
    (exec .pwrAlertNHigh s = .next (s.setPow { s.pow with alertN := true })) ∧
    (∀ cl : Fin 64, s.alive = true → s.qUp (cl.val / 16) = true →
      let qb := blkQCTL (cl.val / 16)
      let n := s.fget qb F.QCTL.IDLE_LIMIT.LIMIT
      let t := Sparse.get 0 s.pow.idleAt cl.val
      (s.fbit qb F.QCTL.Q_CTL.CL_OFF_EN = true → n ≠ 0 → s.clusterOff cl.val = false → s.clusterIdle cl.val = true → t ≠ 0 →
        t + n * 65536 ≤ s.clk.arith + 1 → s.pow.creset.getLsbD cl.val = false → ∃ s', exec (.clusterPowerOff cl) s = .next s' ∧
          s'.clusterOff cl.val = true ∧ (∀ c, c < 64 → c ≠ cl.val → s'.clusterOff c = s.clusterOff c) ∧
          s' = { s with regs := s'.regs }) ∧
      (s.clusterOff cl.val = true → (s.wantsCluster cl.val || s.reachesCluster cl.val) = true → ∃ s',
        exec (.clusterPowerOn cl) s = .next s' ∧ s'.clusterOff cl.val = false ∧
        bit (s'.fget qb F.QCTL.CLUSTER_PWR.CL_LOST) (cl.val % 16) = true ∧
        (∀ a, scratchAddr (64 * cl.val) 0 ≤ a → a < scratchAddr (64 * cl.val + 64) 0 → s'.mem.byte a = 0) ∧
        BytesOutside s.mem s'.mem (scratchAddr (64 * cl.val) 0) (scratchAddr (64 * cl.val + 64) 0 - scratchAddr (64 * cl.val) 0))) ∧
    (∀ (q : Fin 4) (rq : Requester), isHostOrFw rq = true →
      let qb := blkQCTL q.val
      let free := s.owned q.val = false ∧ s.qUp q.val = true ∧ s.quarterEmpty q.val = true ∧ s.pow.qreset.getLsbD q.val = false
      (¬free → ∃ s', exec (.standbyEnter q rq) s = .next s' ∧ s'.fget qb F.QCTL.Q_STATUS.CMD_REJECT = 1 ∧ s' = { s with regs := s'.regs }) ∧
      (free → ∃ s', exec (.standbyEnter q rq) s = .next s' ∧ s'.qState q.val = 2 ∧ s'.fget qb F.QCTL.Q_CTL.STANDBY = 1 ∧
        s'.pow.standbyCache.getLsbD q.val = s.cacheOn q.val ∧ s' = { s with regs := s'.regs, pow := s'.pow }) ∧
      (s.qState q.val = 2 ∨ s.qState q.val = 3 → ∃ s', exec (.standbyExit q rq) s = .next s' ∧ s'.qState q.val = 4 ∧
        s'.fget qb F.QCTL.Q_CTL.STANDBY = 0 ∧ s' = { s with regs := s'.regs })) ∧
    (∀ q : Fin 4, s.alive = true →
      (s.qState q.val = 2 → s.cacheOn q.val = false → ∃ s', exec (.standbyEntryDone q) s = .next s' ∧ s'.qState q.val = 3 ∧ s'.mem = s.mem ∧
        (∀ i, i < 56 → s'.bankOwn q.val i F.CELLAR.BANK_STATUS.POWER_STATE =
          if s.bankOwn q.val i F.CELLAR.BANK_STATUS.POWER_STATE = 0 then 1 else s.bankOwn q.val i F.CELLAR.BANK_STATUS.POWER_STATE)) ∧
      (s.qState q.val = 4 → ∃ s', exec (.standbyExitDone q) s = .next s' ∧ s'.qState q.val = 1 ∧
        s'.fget (blkQCTL q.val) F.QCTL.Q_STATUS.Q_LOST = 1 ∧ (∀ e ∈ s'.tasks, e.1 / 16384 ≠ q.val))) ∧
    (∀ p : Fin 2,
      exec (.d3hotEntry p) s = .next (s.setPort p.val { s.port p.val with d3hot := true }) ∧
      ((∀ r, r < 64 → (s.ring p.val r).held = []) → exec (.d0Return p) s = .next (s.setPort p.val { s.port p.val with d3hot := false })))

/-! ### Silpaot (chapter 18) -/

/-- R414 to R416, R423: a port's request queues behind those before it and is BUSY till firmware answers with one result; the first check that
fails names it and nothing changes; an accepted one installs the bank not in use, raises the floor, changes the owner key
or moves the debug state, the last three with a record in the Ledger. -/
def Obligations.SignedRequests : Prop :=
  (∀ (p : Fin 2) (v : Word) (s : State),
    let ix := 16 * p.val
    let busy := s.fbit blkSILPAOT F.SILPAOT.REQ_STATUS.BUSY ix
    let new : TrustReq := ⟨p.val, bits v.toNat 0 49, s.ctrl⟩
    ∀ rq ∈ [Requester.firmware, .port p],
      (busy = true → ∃ s', exec (.reqAddrWrite p rq v) s = .next s' ∧ s'.fget blkSILPAOT F.SILPAOT.REQ_STATUS.REJECT ix = 1 ∧
        s' = { s with regs := s'.regs }) ∧
      (busy = false → ∃ s', exec (.reqAddrWrite p rq v) s = .next s' ∧ s'.fget blkSILPAOT F.SILPAOT.REQ_STATUS.BUSY ix = 1 ∧
        ((∀ x ∈ s.trust.reqs, x.at_ ≠ s.ctrl) → s'.trust.reqs = s.trust.reqs ++ [new]) ∧
        (∀ l y, s.trust.reqs = l ++ [y] → (∀ x ∈ l, x.at_ ≠ s.ctrl) → y.at_ = s.ctrl → p = 0 → s'.trust.reqs = l ++ [new, y]) ∧
        s'.trust.ledger = s.trust.ledger ∧ s'.mem = s.mem)) ∧
  (∀ (s : State) (q : TrustReq) (rest : List TrustReq) (sig : Bool) (images : BitVec 3), Plain s → s.pow.mgmtReset = false →
    s.trust.reqs = q :: rest → q.port < 2 → q.addr % 64 = 0 → InStacks q.addr 192 →
    let r : SReq := ⟨s.viewNat q.addr 192⟩
    let b := blkSILPAOT
    let ix := 16 * q.port
    ∀ c ∈ [(1, Instr.fwUpdate sig images), (2, .raiseFloor sig), (3, .ownerKey sig), (4, .debug sig)], r.kind = c.1 →
      let res := s.reqResult r sig (if c.1 = 1 then images else 0)
      ∃ s', exec c.2 s = .next s' ∧ s'.trust.reqs = rest ∧ s'.fget b F.SILPAOT.REQ_STATUS.BUSY ix = 0 ∧
        s'.fget b F.SILPAOT.REQ_STATUS.DONE ix = 1 ∧ s'.fget b F.SILPAOT.REQ_STATUS.RESULT ix = res ∧ s'.mem = s.mem ∧
        (r.formOk = false → res = 1) ∧
        (res ≠ 0 → s'.trust = { s.trust with reqs := rest } ∧ s' = { s with regs := s'.regs, trust := s'.trust }) ∧
        (res = 0 → r.kind = 1 → ∃ l, s.newBank r = some l ∧ s'.trust.ledger = s.trust.ledger ∧
          (s.fbit b F.SILPAOT.BOOT_STATUS.BANK = false → s'.trust.bankB = FwBank.ofImages l ∧ s'.trust.sel = true ∧ s'.trust.bankA = s.trust.bankA) ∧
          (s.fbit b F.SILPAOT.BOOT_STATUS.BANK = true → s'.trust.bankA = FwBank.ofImages l ∧ s'.trust.sel = false ∧ s'.trust.bankB = s.trust.bankB)) ∧
        (res = 0 → r.kind = 2 → s'.fget b F.SILPAOT.SVN_FLOOR.FLOOR = r.arg0 ∧ s.fget b F.SILPAOT.SVN_FLOOR.FLOOR < r.arg0) ∧
        (res = 0 → r.kind = 3 → s'.ownerKey = r.newKey) ∧
        (res = 0 → r.kind = 4 → s'.fget b F.SILPAOT.DEBUG.STATE = r.arg0 ∧ debugMove (s.fget b F.SILPAOT.DEBUG.STATE) r.arg0 = true ∧
          (r.arg0 = 2 → s'.trust.erased = true ∧ s'.ownerKey = 0)) ∧
        (res = 0 → r.kind ≠ 1 → ∃ e : LedgerRec, s'.trust.ledger = s.trust.ledger ++ [e] ∧ e.signer = r.signer ∧ e.num = s.ledgerSeq ∧
          e.kind = (if r.kind = 2 then 1 else if r.kind = 3 then 2 else 3)))

/-- R419, R423: a port's mailbox goes from version to capabilities to algorithms; then digests, certificates, challenges and measurements are
answered; what comes too early, another slot, an index that is not there, and a challenge after the identity key has been
erased are answered with an ERROR. -/
def Obligations.Attestation : Prop :=
  ∀ (p : Fin 2) (s : State), s.pow.boot = .running → (s.port p.val).link = true →
    let x := s.spdm p.val
    let gives (i : Instr) (y : Spdm) : Prop := ∃ s', exec i s = .next s' ∧ s'.spdm p.val = y ∧
      s'.spdm (1 - p.val) = s.spdm (1 - p.val) ∧ s'.trust.ledger = s.trust.ledger ∧ s' = { s with trust := s'.trust }
    let late : List Instr := [.getDigests p] ++ ((List.range 8).map (fun i => Instr.getCertificate p (Fin.ofNat 8 i) 0 0)) ++
      [.challenge p 0 0, .getMeasurements p 0xFF false 0]
    (s.pow.mgmtReset = true → ∀ i ∈ [Instr.getVersion p, .getCapabilities p, .negotiateAlgorithms p true] ++ late, gives i { x with reply := .error 3 }) ∧
    (s.pow.mgmtReset = false →
      gives (.getVersion p) ⟨1, .version⟩ ∧
      (x.stage < 1 → gives (.getCapabilities p) { x with reply := .error 4 }) ∧
      (1 ≤ x.stage → gives (.getCapabilities p) ⟨2, .capabilities⟩) ∧
      (x.stage < 2 → ∀ o, gives (.negotiateAlgorithms p o) { x with reply := .error 4 }) ∧
      (2 ≤ x.stage → gives (.negotiateAlgorithms p true) ⟨3, .algorithms⟩ ∧ gives (.negotiateAlgorithms p false) ⟨2, .error 1⟩) ∧
      (x.stage < 3 → ∀ i ∈ late, gives i { x with reply := .error 4 }) ∧
      (3 ≤ x.stage → gives (.getDigests p) ⟨3, .digests⟩ ∧
        (∀ (slot : Fin 8) (off len : BitVec 16), gives (.getCertificate p slot off len)
          ⟨3, if slot = 0 then .certificate off.toNat len.toNat else .error 1⟩) ∧
        (∀ (slot : Fin 8) (n : Nat), gives (.challenge p slot n)
          ⟨3, if slot ≠ 0 then .error 1 else if s.trust.erased = true then .error 5 else .challengeAuth n⟩) ∧
        (∀ (i : BitVec 8) (signed : Bool) (n : Nat),
          (i = 0 ∨ 6 < i.toNat ∧ i ≠ 0xFF → gives (.getMeasurements p i signed n) ⟨3, .error 1⟩) ∧
          (1 ≤ i.toNat → i.toNat ≤ 6 → signed = false ∨ s.trust.erased = false → ∃ v, s.measure i.toNat = some v ∧
            gives (.getMeasurements p i signed n) ⟨3, .measurements [(i.toNat, v)] signed n⟩) ∧
          (signed = true → s.trust.erased = true → gives (.getMeasurements p i signed n) ⟨3, .error 1⟩))))

/-! ### The block as a whole -/

/-- A step takes the command in front and runs it on the state with the rest of the queue; an empty queue lets one ARITH cycle pass (the
model's choice, log entry 23), in which the time counter goes on and, where no access and no bag waits, no byte changes, unless COLD
reset holds the device. -/
def Obligations.StepRunsFront : Prop :=
  (∀ (c : Instr) (rest : List Instr) (s : State), s.pending = c :: rest → step s = exec c { s with pending := rest }) ∧
  (∀ s : State, s.pending = [] →
    (s.pow.boot = .held → step s = .next s) ∧
    (s.pow.boot ≠ .held → s.clk.mgmtOnly = false → s.gtc.adj = 0 → (s.port 0).inq = [] → (s.port 1).inq = [] → ∃ s', step s = .next s' ∧
      s'.clk.arith = s.clk.arith + 1 ∧ s'.gtc.count = (s.gtc.count + 1) % 2 ^ 64 ∧ s'.pending = [] ∧
      (s.bags = [] → s'.mem = s.mem ∧ (s.liveThreads = [] → s'.threads = s.threads))))

/-- R8, R278, R298, R396 and the register tables: what reset leaves. Six fields of the registers are at the value their tables give, in every block;
every quarter is in service with its cache on and 56 banks; every byte of memory reads as zero (the model's choice, log entry 6) with clean codewords;
no thread, command, job or request is there, the queue is empty, the Ledger is within its limits. -/
def Obligations.ResetState : Prop :=
  let s := State.reset
  (s.pending = [] ∧ s.threads = [] ∧ s.cmds = [] ∧ s.jobs = [] ∧ s.fabric.reqs = [] ∧ s.memsOk = true ∧ LedgerOk s ∧ s.alive = true) ∧
  (∀ b f, b % 0x100 ≠ blkSYNC 0 → b < 4096 → f ∈ [F.STACK.STACK_CTL.LAT_SHARE, F.HCTL.THROTTLE_CTL.T_JUNC, F.CELLAR.CACHE_STATUS.ENABLED,
    F.CELLAR.BANK_OWN.OWNER_KIND, F.QCTL.IDLE_LIMIT.LIMIT, F.FM.FM_STATUS.STATE] → s.fget b f = f.rst) ∧
  (∀ q, q < 4 → s.qState q = 1 ∧ s.cacheOn q = true ∧ (s.cacheBanks q).length = 56) ∧
  (∀ a, s.mem.byte a = 0 ∧ s.mem.cw (a / 16) = .clean) ∧
  (∀ k : Fin 262144, (s.thread k.val).st = .free)

/-- Every command completes, and no command or cycle touches the queue: a step answers a next state whose queue is the rest. -/
def Obligations.StepCompletes : Prop :=
  ∀ s : State, ∃ s', step s = .next s' ∧ s'.pending = s.pending.tail

/-- R8, R420: whatever command or cycle comes, no kind of Ledger change is ever made beyond its limit, for every state in which none is. -/
def Obligations.LedgerLimits : Prop :=
  ∀ s s' : State, LedgerOk s → step s = .next s' → LedgerOk s'

/-- The memories stay in their canonical form at every step, so that equal memories are equal data. -/
def Obligations.MemoriesStayCanonical : Prop :=
  ∀ s s' : State, s.memsOk = true → step s = .next s' → s'.memsOk = true
end

