-- ==== Sys2Proof/Laws/Sparse.lean ====
section
/-! SUPPORT. Laws of the sparse maps: reading after writing, and that every operation keeps the canonical form. -/

namespace Sys2Proof.Machine

section
variable {α : Type}

theorem Sparse.get_del (d : α) (l : Sparse α) (k j : Nat) :
    Sparse.get d (Sparse.del l k) j = if j = k then d else Sparse.get d l j := by
  induction l with
  | nil => simp [Sparse.del, Sparse.get]
  | cons e l ih =>
    obtain ⟨k', v⟩ := e
    unfold Sparse.del at ih ⊢
    by_cases h : k' = k
    · subst h
      simp only [List.filter, bne_self_eq_false, ih, Sparse.get]
      by_cases hj : j = k'
      · simp [hj]
      · simp [hj, Ne.symm hj]
    · have hb : (k' != k) = true := by simpa using h
      simp only [List.filter, hb, Sparse.get, ih]
      by_cases hk : k' = j
      · subst hk; simp [h]
      · simp [hk]

theorem Sparse.get_ins (d : α) (l : Sparse α) (k j : Nat) (v : α) (h : ∀ e ∈ l, e.1 ≠ k) :
    Sparse.get d (Sparse.ins l k v) j = if j = k then v else Sparse.get d l j := by
  induction l with
  | nil =>
    by_cases hj : j = k
    · simp [Sparse.ins, Sparse.get, hj]
    · simp [Sparse.ins, Sparse.get, hj, Ne.symm hj]
  | cons e l ih =>
    obtain ⟨k', v'⟩ := e
    have hk : k' ≠ k := h (k', v') (by simp)
    have ih := ih (fun e he => h e (by simp [he]))
    unfold Sparse.ins
    split
    · by_cases hj : j = k
      · simp [Sparse.get, hj]
      · simp [Sparse.get, hj, Ne.symm hj]
    · by_cases hj : k' = j
      · subst hj; simp [Sparse.get, hk]
      · simp [Sparse.get, hj, ih]
theorem Sparse.get_filter (d : α) (p : Nat → Bool) (l : Sparse α) (j : Nat) :
    Sparse.get d (l.filter (fun e => p e.1)) j = if p j then Sparse.get d l j else d := by
  induction l with
  | nil => simp [Sparse.get]
  | cons e l ih =>
    obtain ⟨k, v⟩ := e
    by_cases h : p k
    · simp only [List.filter, h, Sparse.get, ih]
      by_cases hk : k = j
      · subst hk; simp [h]
      · simp [hk]
    · simp only [List.filter, h, Sparse.get, ih]
      by_cases hk : k = j
      · subst hk; simp [h]
      · simp [hk]

theorem Sparse.get_clearRange (d : α) (l : Sparse α) (lo hi j : Nat) :
    Sparse.get d (Sparse.clearRange l lo hi) j = if lo ≤ j ∧ j < hi then d else Sparse.get d l j := by
  have h := Sparse.get_filter d (fun k => decide (k < lo) || decide (hi ≤ k)) l j
  unfold Sparse.clearRange
  rw [h]
  by_cases h1 : lo ≤ j <;> by_cases h2 : j < hi <;> simp [h1, h2]

variable [DecidableEq α]

/-- Reading after a write: the value at the key written, every other key as before. -/
theorem Sparse.get_put (d : α) (l : Sparse α) (k j : Nat) (v : α) :
    Sparse.get d (Sparse.put d l k v) j = if j = k then v else Sparse.get d l j := by
  unfold Sparse.put
  split
  · next h => rw [Sparse.get_del, h]
  · rw [Sparse.get_ins, Sparse.get_del]
    · split <;> rfl
    · intro e he
      simp [Sparse.del] at he
      exact he.2

@[simp] theorem Sparse.get_put_same (d : α) (l : Sparse α) (k : Nat) (v : α) :
    Sparse.get d (Sparse.put d l k v) k = v := by simp [Sparse.get_put]

theorem Sparse.get_put_ne (d : α) (l : Sparse α) (k j : Nat) (v : α) (h : j ≠ k) :
    Sparse.get d (Sparse.put d l k v) j = Sparse.get d l j := by simp [Sparse.get_put, h]

/-! ### The canonical form -/

/-- The form as a statement about the list: keys rising, no entry at the default. -/
theorem Sparse.wf_iff (d : α) (l : Sparse α) :
    Sparse.wf d l = true ↔ l.Pairwise (fun a b => a.1 < b.1) ∧ ∀ e ∈ l, e.2 ≠ d := by
  induction l with
  | nil => simp [Sparse.wf]
  | cons e l ih =>
    obtain ⟨k, v⟩ := e
    cases l with
    | nil => simp [Sparse.wf]
    | cons e' l =>
      obtain ⟨k', v'⟩ := e'
      simp only [Sparse.wf, Bool.and_eq_true, ih, List.pairwise_cons, List.mem_cons, bne_iff_ne, decide_eq_true_eq,
        forall_eq_or_imp]
      constructor
      · rintro ⟨⟨h1, h2⟩, ⟨h3, h4⟩, h5⟩
        exact ⟨⟨⟨h2, fun a ha => lt_trans h2 (h3 a ha)⟩, h3, h4⟩, h1, h5⟩
      · rintro ⟨⟨⟨h1, _⟩, h3, h4⟩, h5, h6⟩
        exact ⟨⟨h5, h1⟩, ⟨h3, h4⟩, h6⟩

theorem Sparse.wf_filter (d : α) (l : Sparse α) (p : Nat × α → Bool) (h : Sparse.wf d l = true) :
    Sparse.wf d (l.filter p) = true := by
  rw [Sparse.wf_iff] at h ⊢
  exact ⟨h.1.sublist (List.filter_sublist), fun e he => h.2 e (List.mem_of_mem_filter he)⟩

theorem Sparse.wf_del (d : α) (l : Sparse α) (k : Nat) (h : Sparse.wf d l = true) : Sparse.wf d (Sparse.del l k) = true :=
  Sparse.wf_filter d l _ h

theorem Sparse.wf_clearRange (d : α) (l : Sparse α) (lo hi : Nat) (h : Sparse.wf d l = true) :
    Sparse.wf d (Sparse.clearRange l lo hi) = true :=
  Sparse.wf_filter d l _ h

theorem Sparse.mem_ins (l : Sparse α) (k : Nat) (v : α) (e : Nat × α) :
    e ∈ Sparse.ins l k v ↔ e = (k, v) ∨ e ∈ l := by
  induction l with
  | nil => simp [Sparse.ins]
  | cons x l ih =>
    obtain ⟨k', v'⟩ := x
    unfold Sparse.ins
    split
    · simp
    · simp [ih]; tauto

theorem Sparse.wf_put (d : α) (l : Sparse α) (k : Nat) (v : α) (h : Sparse.wf d l = true) :
    Sparse.wf d (Sparse.put d l k v) = true := by
  unfold Sparse.put
  split
  · exact Sparse.wf_del d l k h
  · next hv =>
    have h' := Sparse.wf_del d l k h
    have hk : ∀ e ∈ Sparse.del l k, e.1 ≠ k := fun e he => by simp [Sparse.del] at he; exact he.2
    generalize Sparse.del l k = m at h' hk
    rw [Sparse.wf_iff] at h' ⊢
    obtain ⟨hp, hd⟩ := h'
    refine ⟨?_, fun e he => ?_⟩
    · clear hd h
      induction m with
      | nil => simp [Sparse.ins]
      | cons x m ih =>
        obtain ⟨k', v'⟩ := x
        rw [List.pairwise_cons] at hp
        have hne : k' ≠ k := hk (k', v') (by simp)
        unfold Sparse.ins
        split
        · next hlt =>
          refine List.pairwise_cons.2 ⟨fun e he => ?_, List.pairwise_cons.2 hp⟩
          rcases List.mem_cons.1 he with rfl | he
          · exact hlt
          · exact lt_trans hlt (hp.1 e he)
        · next hlt =>
          refine List.pairwise_cons.2 ⟨fun e he => ?_, ih (fun e he => hk e (List.mem_cons_of_mem _ he)) hp.2⟩
          rcases (Sparse.mem_ins m k v e).1 he with rfl | he
          · simp; omega
          · exact hp.1 e he
    · rcases (Sparse.mem_ins m k v e).1 he with rfl | he
      · exact hv
      · exact hd e he

end

end Sys2Proof.Machine
end

