-- ==== Sys2Proof/Laws/Memory.lean ====
section
/-! SUPPORT. The memory's laws: what a read gives after each operation, and that every operation keeps the canonical form. -/

namespace Sys2Proof.Machine

/-! ### Reads -/

theorem Mem.byte_setByte (m : Mem) (a b : Nat) (v : Byte) : (m.setByte a v).byte b = if b = a then v else m.byte b := by
  simp only [Mem.byte, Mem.setByte, Sparse.get_put]

theorem Mem.byte_setPoison (m : Mem) (c a : Nat) (v : Bool) : (m.setPoison c v).byte a = m.byte a := rfl

theorem Mem.byte_mergeCw (m : Mem) (w : Bool) (c a : Nat) : (m.mergeCw w c).byte a = m.byte a := by
  unfold Mem.mergeCw
  split
  · rfl
  · split <;> rfl

/-- After a write of `bs` at `a`, byte `b` is the written one inside the range, the old one outside. -/
theorem Mem.byte_writeBytes (m : Mem) (a b : Nat) (bs : List Byte) :
    (m.writeBytes a bs).byte b = if a ≤ b ∧ b < a + bs.length then bs.getD (b - a) 0 else m.byte b := by
  induction bs generalizing m a with
  | nil => simp [Mem.writeBytes]
  | cons v l ih =>
    simp only [Mem.writeBytes, ih, Mem.byte_setByte, List.length_cons]
    by_cases h : b = a
    · subst h
      simp
    · by_cases h1 : a + 1 ≤ b ∧ b < a + 1 + l.length
      · have e : b - a = (b - (a + 1)) + 1 := by omega
        rw [if_pos h1, if_pos (by omega), e, List.getD_cons_succ]
      · rw [if_neg h1, if_neg h, if_neg (by omega)]

theorem Mem.byte_foldl_merge (m : Mem) (p : Nat → Bool) (l : List Nat) (b : Nat) :
    (l.foldl (fun m c => m.mergeCw (p c) c) m).byte b = m.byte b := by
  induction l generalizing m with
  | nil => rfl
  | cons c l ih => rw [List.foldl_cons, ih, Mem.byte_mergeCw]

theorem Mem.byte_write (m : Mem) (a b : Nat) (bs : List Byte) :
    (m.write a bs).byte b = if a ≤ b ∧ b < a + bs.length then bs.getD (b - a) 0 else m.byte b := by
  rw [Mem.write, Mem.byte_writeBytes, Mem.byte_foldl_merge]

theorem Mem.byte_write_outside (m : Mem) (a b : Nat) (bs : List Byte) (h : b < a ∨ a + bs.length ≤ b) :
    (m.write a bs).byte b = m.byte b := by
  rw [Mem.byte_write, if_neg (by omega)]

theorem Mem.byte_writePoison (m : Mem) (a n b : Nat) : (m.writePoison a n).byte b = m.byte b := by
  unfold Mem.writePoison
  generalize cws a n = l
  induction l generalizing m with
  | nil => rfl
  | cons c l ih => rw [List.foldl_cons, ih, Mem.byte_setPoison]

theorem Mem.byte_zero (m : Mem) (lo hi b : Nat) : (m.zero lo hi).byte b = if lo ≤ b ∧ b < hi then 0 else m.byte b := by
  simp only [Mem.byte, Mem.zero, Sparse.get_clearRange]

/-! ### The canonical form -/

theorem Mem.wf_iff (m : Mem) :
    m.wf = true ↔ Sparse.wf 0 m.bytes = true ∧ Sparse.wf false m.poison = true ∧ Sparse.wf 0 m.upset = true := by
  simp [Mem.wf, and_assoc]

theorem Mem.wf_empty : (Mem.mk [] [] []).wf = true := rfl

theorem Mem.wf_setByte (m : Mem) (a : Nat) (v : Byte) (h : m.wf = true) : (m.setByte a v).wf = true := by
  rw [Mem.wf_iff] at *
  exact ⟨Sparse.wf_put _ _ _ _ h.1, h.2⟩

theorem Mem.wf_delUpset (m : Mem) (c : Nat) (h : m.wf = true) : Mem.wf { m with upset := Sparse.del m.upset c } = true := by
  rw [Mem.wf_iff] at *
  exact ⟨h.1, h.2.1, Sparse.wf_del _ _ _ h.2.2⟩

theorem Mem.wf_setPoison (m : Mem) (c : Nat) (v : Bool) (h : m.wf = true) : (m.setPoison c v).wf = true := by
  rw [Mem.wf_iff] at *
  exact ⟨h.1, Sparse.wf_put _ _ _ _ h.2.1, Sparse.wf_del _ _ _ h.2.2⟩

theorem Mem.wf_mergeCw (m : Mem) (w : Bool) (c : Nat) (h : m.wf = true) : (m.mergeCw w c).wf = true := by
  unfold Mem.mergeCw
  split
  · exact Mem.wf_setPoison m c false h
  · split
    · exact h
    · exact Mem.wf_delUpset m c h
    · exact Mem.wf_setPoison m c true h
    · exact h

theorem Mem.wf_writeBytes (m : Mem) (a : Nat) (bs : List Byte) (h : m.wf = true) : (m.writeBytes a bs).wf = true := by
  induction bs generalizing m a with
  | nil => exact h
  | cons v l ih => exact ih _ _ (Mem.wf_setByte m a v h)

theorem Mem.wf_write (m : Mem) (a : Nat) (bs : List Byte) (h : m.wf = true) : (m.write a bs).wf = true := by
  refine Mem.wf_writeBytes _ _ _ ?_
  generalize cws a bs.length = l
  generalize bs.length = n
  induction l generalizing m with
  | nil => exact h
  | cons c l ih => exact ih _ (Mem.wf_mergeCw m _ c h)

theorem Mem.wf_writePoison (m : Mem) (a n : Nat) (h : m.wf = true) : (m.writePoison a n).wf = true := by
  unfold Mem.writePoison
  generalize cws a n = l
  induction l generalizing m with
  | nil => exact h
  | cons c l ih => exact ih _ (Mem.wf_setPoison m c true h)

theorem Mem.wf_writeP (m : Mem) (a : Nat) (bs : List Byte) (p : Bool) (h : m.wf = true) : (m.writeP a bs p).wf = true := by
  unfold Mem.writeP
  split
  · exact Mem.wf_writePoison m a _ h
  · exact Mem.wf_write m a bs h

theorem Mem.wf_zero (m : Mem) (lo hi : Nat) (h : m.wf = true) : (m.zero lo hi).wf = true := by
  rw [Mem.wf_iff] at *
  exact ⟨Sparse.wf_clearRange _ _ _ _ h.1, Sparse.wf_clearRange _ _ _ _ h.2.1, Sparse.wf_clearRange _ _ _ _ h.2.2⟩

theorem wf_copyRange {α : Type} [DecidableEq α] (d : α) (dst src : Sparse α) (lo hi : Nat) (hl : lo ≤ hi)
    (h : Sparse.wf d dst = true) (h' : Sparse.wf d src = true) : Sparse.wf d (copyRange dst src lo hi) = true := by
  rw [Sparse.wf_iff] at *
  refine ⟨?_, ?_⟩
  · unfold copyRange
    rw [List.pairwise_append, List.pairwise_append]
    refine ⟨⟨h.1.sublist List.filter_sublist, h'.1.sublist List.filter_sublist, ?_⟩, h.1.sublist List.filter_sublist, ?_⟩
    · intro x hx y hy
      simp only [List.mem_filter, decide_eq_true_eq, Bool.and_eq_true] at hx hy
      omega
    · intro x hx y hy
      simp only [List.mem_append, List.mem_filter, decide_eq_true_eq, Bool.and_eq_true] at hx hy
      omega
  · intro e he
    simp only [copyRange, List.mem_append, List.mem_filter] at he
    rcases he with (he | he) | he
    · exact h.2 e he.1
    · exact h'.2 e he.1
    · exact h.2 e he.1

theorem Mem.wf_copyLine (m n : Mem) (line : Nat) (h : m.wf = true) (h' : n.wf = true) : (m.copyLine n line).wf = true := by
  rw [Mem.wf_iff] at *
  exact ⟨wf_copyRange _ _ _ _ _ (by omega) h.1 h'.1, wf_copyRange _ _ _ _ _ (by omega) h.2.1 h'.2.1,
    wf_copyRange _ _ _ _ _ (by omega) h.2.2 h'.2.2⟩

/-- Reset's memories have the form. -/
theorem reset_mem_wf : State.reset.mem.wf = true ∧ State.reset.cmem.wf = true := ⟨rfl, rfl⟩

end Sys2Proof.Machine
end

