-- ==== Sys2Proof/Laws/State.lean ====
section
/-! SUPPORT. What the named updates of the state leave as it was, field by field, and what they write. -/

namespace Sys2Proof.Machine

variable (s : State)

@[simp] theorem State.setThread_frame (k : Nat) (x : Thread) :
    (s.setThread k x).pending = s.pending ∧ (s.setThread k x).freeCtr = s.freeCtr ∧ (s.setThread k x).regs = s.regs ∧
    (s.setThread k x).mem = s.mem ∧ (s.setThread k x).host = s.host ∧ (s.setThread k x).clk = s.clk ∧
    (s.setThread k x).fabric = s.fabric ∧ (s.setThread k x).ports = s.ports ∧ (s.setThread k x).rings = s.rings ∧
    (s.setThread k x).hostReads = s.hostReads ∧ (s.setThread k x).jobs = s.jobs ∧ (s.setThread k x).cores = s.cores ∧
    (s.setThread k x).tasks = s.tasks ∧ (s.setThread k x).scheds = s.scheds ∧ (s.setThread k x).spawns = s.spawns ∧
    (s.setThread k x).flagMsgs = s.flagMsgs ∧ (s.setThread k x).err = s.err ∧ (s.setThread k x).pow = s.pow ∧
    (s.setThread k x).arrs = s.arrs ∧ (s.setThread k x).vecs = s.vecs ∧ (s.setThread k x).digNew = s.digNew ∧
    (s.setThread k x).ctxs = s.ctxs ∧ (s.setThread k x).hops = s.hops ∧ (s.setThread k x).objs = s.objs ∧
    (s.setThread k x).syncMsgs = s.syncMsgs ∧ (s.setThread k x).wakes = s.wakes ∧ (s.setThread k x).wds = s.wds ∧
    (s.setThread k x).cmds = s.cmds ∧ (s.setThread k x).heldSubs = s.heldSubs ∧ (s.setThread k x).slots = s.slots ∧
    (s.setThread k x).bags = s.bags ∧ (s.setThread k x).upds = s.upds ∧ (s.setThread k x).defers = s.defers ∧
    (s.setThread k x).moves = s.moves ∧ (s.setThread k x).shards = s.shards ∧ (s.setThread k x).sketch = s.sketch ∧
    (s.setThread k x).sketchN = s.sketchN ∧ (s.setThread k x).flashes = s.flashes ∧ (s.setThread k x).oadds = s.oadds ∧
    (s.setThread k x).cmem = s.cmem ∧ (s.setThread k x).clines = s.clines ∧ (s.setThread k x).plru = s.plru ∧
    (s.setThread k x).wbacks = s.wbacks ∧ (s.setThread k x).dets = s.dets ∧ (s.setThread k x).misses = s.misses ∧
    (s.setThread k x).bankTrs = s.bankTrs ∧ (s.setThread k x).marches = s.marches ∧ (s.setThread k x).cellars = s.cellars ∧
    (s.setThread k x).pcs = s.pcs ∧ (s.setThread k x).stkSts = s.stkSts ∧ (s.setThread k x).tports = s.tports ∧
    (s.setThread k x).routes = s.routes ∧ (s.setThread k x).routeN = s.routeN ∧ (s.setThread k x).percs = s.percs ∧
    (s.setThread k x).colls = s.colls ∧ (s.setThread k x).gtc = s.gtc ∧ (s.setThread k x).modeAt = s.modeAt ∧
    (s.setThread k x).modeAb = s.modeAb ∧ (s.setThread k x).thrAt = s.thrAt ∧ (s.setThread k x).trust = s.trust :=
  by and_intros <;> rfl
@[simp] theorem State.setThread_reads (k : Nat) (x : Thread) :
    (∀ k', (s.setThread k x).core k' = s.core k') ∧
    (∀ k', (s.setThread k x).entry k' = s.entry k') ∧
    (∀ k', (s.setThread k x).port k' = s.port k') ∧
    (∀ a' b', (s.setThread k x).ring a' b' = s.ring a' b') ∧
    (∀ k', (s.setThread k x).ctx k' = s.ctx k') ∧
    (∀ k', (s.setThread k x).obj k' = s.obj k') ∧
    (∀ k', (s.setThread k x).arr k' = s.arr k') ∧
    (∀ j', (s.setThread k x).job? j' = s.job? j') ∧
    (∀ a' g' i', (s.setThread k x).fget a' g' i' = s.fget a' g' i') ∧
    (∀ q', (s.setThread k x).qState q' = s.qState q') :=
  by and_intros <;> intros <;> rfl
@[simp] theorem State.thread_setThread (k : Nat) (x : Thread) (j : Nat) : (s.setThread k x).thread j = if j = k then x else s.thread j := by
  simp [State.thread, State.setThread, Sparse.get_put]
@[simp] theorem State.setCore_frame (k : Nat) (x : Core) :
    (s.setCore k x).pending = s.pending ∧ (s.setCore k x).freeCtr = s.freeCtr ∧ (s.setCore k x).regs = s.regs ∧
    (s.setCore k x).mem = s.mem ∧ (s.setCore k x).host = s.host ∧ (s.setCore k x).clk = s.clk ∧
    (s.setCore k x).fabric = s.fabric ∧ (s.setCore k x).ports = s.ports ∧ (s.setCore k x).rings = s.rings ∧
    (s.setCore k x).hostReads = s.hostReads ∧ (s.setCore k x).jobs = s.jobs ∧ (s.setCore k x).threads = s.threads ∧
    (s.setCore k x).tasks = s.tasks ∧ (s.setCore k x).scheds = s.scheds ∧ (s.setCore k x).spawns = s.spawns ∧
    (s.setCore k x).flagMsgs = s.flagMsgs ∧ (s.setCore k x).err = s.err ∧ (s.setCore k x).pow = s.pow ∧
    (s.setCore k x).arrs = s.arrs ∧ (s.setCore k x).vecs = s.vecs ∧ (s.setCore k x).digNew = s.digNew ∧
    (s.setCore k x).ctxs = s.ctxs ∧ (s.setCore k x).hops = s.hops ∧ (s.setCore k x).objs = s.objs ∧
    (s.setCore k x).syncMsgs = s.syncMsgs ∧ (s.setCore k x).wakes = s.wakes ∧ (s.setCore k x).wds = s.wds ∧
    (s.setCore k x).cmds = s.cmds ∧ (s.setCore k x).heldSubs = s.heldSubs ∧ (s.setCore k x).slots = s.slots ∧
    (s.setCore k x).bags = s.bags ∧ (s.setCore k x).upds = s.upds ∧ (s.setCore k x).defers = s.defers ∧
    (s.setCore k x).moves = s.moves ∧ (s.setCore k x).shards = s.shards ∧ (s.setCore k x).sketch = s.sketch ∧
    (s.setCore k x).sketchN = s.sketchN ∧ (s.setCore k x).flashes = s.flashes ∧ (s.setCore k x).oadds = s.oadds ∧
    (s.setCore k x).cmem = s.cmem ∧ (s.setCore k x).clines = s.clines ∧ (s.setCore k x).plru = s.plru ∧
    (s.setCore k x).wbacks = s.wbacks ∧ (s.setCore k x).dets = s.dets ∧ (s.setCore k x).misses = s.misses ∧
    (s.setCore k x).bankTrs = s.bankTrs ∧ (s.setCore k x).marches = s.marches ∧ (s.setCore k x).cellars = s.cellars ∧
    (s.setCore k x).pcs = s.pcs ∧ (s.setCore k x).stkSts = s.stkSts ∧ (s.setCore k x).tports = s.tports ∧
    (s.setCore k x).routes = s.routes ∧ (s.setCore k x).routeN = s.routeN ∧ (s.setCore k x).percs = s.percs ∧
    (s.setCore k x).colls = s.colls ∧ (s.setCore k x).gtc = s.gtc ∧ (s.setCore k x).modeAt = s.modeAt ∧
    (s.setCore k x).modeAb = s.modeAb ∧ (s.setCore k x).thrAt = s.thrAt ∧ (s.setCore k x).trust = s.trust :=
  by and_intros <;> rfl
@[simp] theorem State.setCore_reads (k : Nat) (x : Core) :
    (∀ k', (s.setCore k x).thread k' = s.thread k') ∧
    (∀ k', (s.setCore k x).entry k' = s.entry k') ∧
    (∀ k', (s.setCore k x).port k' = s.port k') ∧
    (∀ a' b', (s.setCore k x).ring a' b' = s.ring a' b') ∧
    (∀ k', (s.setCore k x).ctx k' = s.ctx k') ∧
    (∀ k', (s.setCore k x).obj k' = s.obj k') ∧
    (∀ k', (s.setCore k x).arr k' = s.arr k') ∧
    (∀ j', (s.setCore k x).job? j' = s.job? j') ∧
    (∀ a' g' i', (s.setCore k x).fget a' g' i' = s.fget a' g' i') ∧
    (∀ q', (s.setCore k x).qState q' = s.qState q') :=
  by and_intros <;> intros <;> rfl
@[simp] theorem State.core_setCore (k : Nat) (x : Core) (j : Nat) : (s.setCore k x).core j = if j = k then x else s.core j := by
  simp [State.core, State.setCore, Sparse.get_put]
@[simp] theorem State.setPort_frame (k : Nat) (x : Port) :
    (s.setPort k x).pending = s.pending ∧ (s.setPort k x).freeCtr = s.freeCtr ∧ (s.setPort k x).regs = s.regs ∧
    (s.setPort k x).mem = s.mem ∧ (s.setPort k x).host = s.host ∧ (s.setPort k x).clk = s.clk ∧
    (s.setPort k x).fabric = s.fabric ∧ (s.setPort k x).rings = s.rings ∧ (s.setPort k x).hostReads = s.hostReads ∧
    (s.setPort k x).jobs = s.jobs ∧ (s.setPort k x).threads = s.threads ∧ (s.setPort k x).cores = s.cores ∧
    (s.setPort k x).tasks = s.tasks ∧ (s.setPort k x).scheds = s.scheds ∧ (s.setPort k x).spawns = s.spawns ∧
    (s.setPort k x).flagMsgs = s.flagMsgs ∧ (s.setPort k x).err = s.err ∧ (s.setPort k x).pow = s.pow ∧
    (s.setPort k x).arrs = s.arrs ∧ (s.setPort k x).vecs = s.vecs ∧ (s.setPort k x).digNew = s.digNew ∧
    (s.setPort k x).ctxs = s.ctxs ∧ (s.setPort k x).hops = s.hops ∧ (s.setPort k x).objs = s.objs ∧
    (s.setPort k x).syncMsgs = s.syncMsgs ∧ (s.setPort k x).wakes = s.wakes ∧ (s.setPort k x).wds = s.wds ∧
    (s.setPort k x).cmds = s.cmds ∧ (s.setPort k x).heldSubs = s.heldSubs ∧ (s.setPort k x).slots = s.slots ∧
    (s.setPort k x).bags = s.bags ∧ (s.setPort k x).upds = s.upds ∧ (s.setPort k x).defers = s.defers ∧
    (s.setPort k x).moves = s.moves ∧ (s.setPort k x).shards = s.shards ∧ (s.setPort k x).sketch = s.sketch ∧
    (s.setPort k x).sketchN = s.sketchN ∧ (s.setPort k x).flashes = s.flashes ∧ (s.setPort k x).oadds = s.oadds ∧
    (s.setPort k x).cmem = s.cmem ∧ (s.setPort k x).clines = s.clines ∧ (s.setPort k x).plru = s.plru ∧
    (s.setPort k x).wbacks = s.wbacks ∧ (s.setPort k x).dets = s.dets ∧ (s.setPort k x).misses = s.misses ∧
    (s.setPort k x).bankTrs = s.bankTrs ∧ (s.setPort k x).marches = s.marches ∧ (s.setPort k x).cellars = s.cellars ∧
    (s.setPort k x).pcs = s.pcs ∧ (s.setPort k x).stkSts = s.stkSts ∧ (s.setPort k x).tports = s.tports ∧
    (s.setPort k x).routes = s.routes ∧ (s.setPort k x).routeN = s.routeN ∧ (s.setPort k x).percs = s.percs ∧
    (s.setPort k x).colls = s.colls ∧ (s.setPort k x).gtc = s.gtc ∧ (s.setPort k x).modeAt = s.modeAt ∧
    (s.setPort k x).modeAb = s.modeAb ∧ (s.setPort k x).thrAt = s.thrAt ∧ (s.setPort k x).trust = s.trust :=
  by and_intros <;> rfl
@[simp] theorem State.setPort_reads (k : Nat) (x : Port) :
    (∀ k', (s.setPort k x).thread k' = s.thread k') ∧
    (∀ k', (s.setPort k x).core k' = s.core k') ∧
    (∀ k', (s.setPort k x).entry k' = s.entry k') ∧
    (∀ a' b', (s.setPort k x).ring a' b' = s.ring a' b') ∧
    (∀ k', (s.setPort k x).ctx k' = s.ctx k') ∧
    (∀ k', (s.setPort k x).obj k' = s.obj k') ∧
    (∀ k', (s.setPort k x).arr k' = s.arr k') ∧
    (∀ j', (s.setPort k x).job? j' = s.job? j') ∧
    (∀ a' g' i', (s.setPort k x).fget a' g' i' = s.fget a' g' i') ∧
    (∀ q', (s.setPort k x).qState q' = s.qState q') :=
  by and_intros <;> intros <;> rfl
@[simp] theorem State.port_setPort (k : Nat) (x : Port) (j : Nat) : (s.setPort k x).port j = if j = k then x else s.port j := by
  simp [State.port, State.setPort, Sparse.get_put]
@[simp] theorem State.setRing_frame (p r : Nat) (x : Ring) :
    (s.setRing p r x).pending = s.pending ∧ (s.setRing p r x).freeCtr = s.freeCtr ∧ (s.setRing p r x).regs = s.regs ∧
    (s.setRing p r x).mem = s.mem ∧ (s.setRing p r x).host = s.host ∧ (s.setRing p r x).clk = s.clk ∧
    (s.setRing p r x).fabric = s.fabric ∧ (s.setRing p r x).ports = s.ports ∧ (s.setRing p r x).hostReads = s.hostReads ∧
    (s.setRing p r x).jobs = s.jobs ∧ (s.setRing p r x).threads = s.threads ∧ (s.setRing p r x).cores = s.cores ∧
    (s.setRing p r x).tasks = s.tasks ∧ (s.setRing p r x).scheds = s.scheds ∧ (s.setRing p r x).spawns = s.spawns ∧
    (s.setRing p r x).flagMsgs = s.flagMsgs ∧ (s.setRing p r x).err = s.err ∧ (s.setRing p r x).pow = s.pow ∧
    (s.setRing p r x).arrs = s.arrs ∧ (s.setRing p r x).vecs = s.vecs ∧ (s.setRing p r x).digNew = s.digNew ∧
    (s.setRing p r x).ctxs = s.ctxs ∧ (s.setRing p r x).hops = s.hops ∧ (s.setRing p r x).objs = s.objs ∧
    (s.setRing p r x).syncMsgs = s.syncMsgs ∧ (s.setRing p r x).wakes = s.wakes ∧ (s.setRing p r x).wds = s.wds ∧
    (s.setRing p r x).cmds = s.cmds ∧ (s.setRing p r x).heldSubs = s.heldSubs ∧ (s.setRing p r x).slots = s.slots ∧
    (s.setRing p r x).bags = s.bags ∧ (s.setRing p r x).upds = s.upds ∧ (s.setRing p r x).defers = s.defers ∧
    (s.setRing p r x).moves = s.moves ∧ (s.setRing p r x).shards = s.shards ∧ (s.setRing p r x).sketch = s.sketch ∧
    (s.setRing p r x).sketchN = s.sketchN ∧ (s.setRing p r x).flashes = s.flashes ∧ (s.setRing p r x).oadds = s.oadds ∧
    (s.setRing p r x).cmem = s.cmem ∧ (s.setRing p r x).clines = s.clines ∧ (s.setRing p r x).plru = s.plru ∧
    (s.setRing p r x).wbacks = s.wbacks ∧ (s.setRing p r x).dets = s.dets ∧ (s.setRing p r x).misses = s.misses ∧
    (s.setRing p r x).bankTrs = s.bankTrs ∧ (s.setRing p r x).marches = s.marches ∧ (s.setRing p r x).cellars = s.cellars ∧
    (s.setRing p r x).pcs = s.pcs ∧ (s.setRing p r x).stkSts = s.stkSts ∧ (s.setRing p r x).tports = s.tports ∧
    (s.setRing p r x).routes = s.routes ∧ (s.setRing p r x).routeN = s.routeN ∧ (s.setRing p r x).percs = s.percs ∧
    (s.setRing p r x).colls = s.colls ∧ (s.setRing p r x).gtc = s.gtc ∧ (s.setRing p r x).modeAt = s.modeAt ∧
    (s.setRing p r x).modeAb = s.modeAb ∧ (s.setRing p r x).thrAt = s.thrAt ∧ (s.setRing p r x).trust = s.trust :=
  by and_intros <;> rfl
@[simp] theorem State.setRing_reads (p r : Nat) (x : Ring) :
    (∀ k', (s.setRing p r x).thread k' = s.thread k') ∧
    (∀ k', (s.setRing p r x).core k' = s.core k') ∧
    (∀ k', (s.setRing p r x).entry k' = s.entry k') ∧
    (∀ k', (s.setRing p r x).port k' = s.port k') ∧
    (∀ k', (s.setRing p r x).ctx k' = s.ctx k') ∧
    (∀ k', (s.setRing p r x).obj k' = s.obj k') ∧
    (∀ k', (s.setRing p r x).arr k' = s.arr k') ∧
    (∀ j', (s.setRing p r x).job? j' = s.job? j') ∧
    (∀ a' g' i', (s.setRing p r x).fget a' g' i' = s.fget a' g' i') ∧
    (∀ q', (s.setRing p r x).qState q' = s.qState q') :=
  by and_intros <;> intros <;> rfl
@[simp] theorem State.setEntry_frame (k : Nat) (x : Entry) :
    (s.setEntry k x).pending = s.pending ∧ (s.setEntry k x).freeCtr = s.freeCtr ∧ (s.setEntry k x).regs = s.regs ∧
    (s.setEntry k x).mem = s.mem ∧ (s.setEntry k x).host = s.host ∧ (s.setEntry k x).clk = s.clk ∧
    (s.setEntry k x).fabric = s.fabric ∧ (s.setEntry k x).ports = s.ports ∧ (s.setEntry k x).rings = s.rings ∧
    (s.setEntry k x).hostReads = s.hostReads ∧ (s.setEntry k x).jobs = s.jobs ∧ (s.setEntry k x).threads = s.threads ∧
    (s.setEntry k x).cores = s.cores ∧ (s.setEntry k x).scheds = s.scheds ∧ (s.setEntry k x).spawns = s.spawns ∧
    (s.setEntry k x).flagMsgs = s.flagMsgs ∧ (s.setEntry k x).err = s.err ∧ (s.setEntry k x).pow = s.pow ∧
    (s.setEntry k x).arrs = s.arrs ∧ (s.setEntry k x).vecs = s.vecs ∧ (s.setEntry k x).digNew = s.digNew ∧
    (s.setEntry k x).ctxs = s.ctxs ∧ (s.setEntry k x).hops = s.hops ∧ (s.setEntry k x).objs = s.objs ∧
    (s.setEntry k x).syncMsgs = s.syncMsgs ∧ (s.setEntry k x).wakes = s.wakes ∧ (s.setEntry k x).wds = s.wds ∧
    (s.setEntry k x).cmds = s.cmds ∧ (s.setEntry k x).heldSubs = s.heldSubs ∧ (s.setEntry k x).slots = s.slots ∧
    (s.setEntry k x).bags = s.bags ∧ (s.setEntry k x).upds = s.upds ∧ (s.setEntry k x).defers = s.defers ∧
    (s.setEntry k x).moves = s.moves ∧ (s.setEntry k x).shards = s.shards ∧ (s.setEntry k x).sketch = s.sketch ∧
    (s.setEntry k x).sketchN = s.sketchN ∧ (s.setEntry k x).flashes = s.flashes ∧ (s.setEntry k x).oadds = s.oadds ∧
    (s.setEntry k x).cmem = s.cmem ∧ (s.setEntry k x).clines = s.clines ∧ (s.setEntry k x).plru = s.plru ∧
    (s.setEntry k x).wbacks = s.wbacks ∧ (s.setEntry k x).dets = s.dets ∧ (s.setEntry k x).misses = s.misses ∧
    (s.setEntry k x).bankTrs = s.bankTrs ∧ (s.setEntry k x).marches = s.marches ∧ (s.setEntry k x).cellars = s.cellars ∧
    (s.setEntry k x).pcs = s.pcs ∧ (s.setEntry k x).stkSts = s.stkSts ∧ (s.setEntry k x).tports = s.tports ∧
    (s.setEntry k x).routes = s.routes ∧ (s.setEntry k x).routeN = s.routeN ∧ (s.setEntry k x).percs = s.percs ∧
    (s.setEntry k x).colls = s.colls ∧ (s.setEntry k x).gtc = s.gtc ∧ (s.setEntry k x).modeAt = s.modeAt ∧
    (s.setEntry k x).modeAb = s.modeAb ∧ (s.setEntry k x).thrAt = s.thrAt ∧ (s.setEntry k x).trust = s.trust :=
  by and_intros <;> rfl
@[simp] theorem State.setEntry_reads (k : Nat) (x : Entry) :
    (∀ k', (s.setEntry k x).thread k' = s.thread k') ∧
    (∀ k', (s.setEntry k x).core k' = s.core k') ∧
    (∀ k', (s.setEntry k x).port k' = s.port k') ∧
    (∀ a' b', (s.setEntry k x).ring a' b' = s.ring a' b') ∧
    (∀ k', (s.setEntry k x).ctx k' = s.ctx k') ∧
    (∀ k', (s.setEntry k x).obj k' = s.obj k') ∧
    (∀ k', (s.setEntry k x).arr k' = s.arr k') ∧
    (∀ j', (s.setEntry k x).job? j' = s.job? j') ∧
    (∀ a' g' i', (s.setEntry k x).fget a' g' i' = s.fget a' g' i') ∧
    (∀ q', (s.setEntry k x).qState q' = s.qState q') :=
  by and_intros <;> intros <;> rfl
@[simp] theorem State.entry_setEntry (k : Nat) (x : Entry) (j : Nat) : (s.setEntry k x).entry j = if j = k then x else s.entry j := by
  simp [State.entry, State.setEntry, Sparse.get_put]
@[simp] theorem State.setSched_frame (k : Nat) (x : Sched) :
    (s.setSched k x).pending = s.pending ∧ (s.setSched k x).freeCtr = s.freeCtr ∧ (s.setSched k x).regs = s.regs ∧
    (s.setSched k x).mem = s.mem ∧ (s.setSched k x).host = s.host ∧ (s.setSched k x).clk = s.clk ∧
    (s.setSched k x).fabric = s.fabric ∧ (s.setSched k x).ports = s.ports ∧ (s.setSched k x).rings = s.rings ∧
    (s.setSched k x).hostReads = s.hostReads ∧ (s.setSched k x).jobs = s.jobs ∧ (s.setSched k x).threads = s.threads ∧
    (s.setSched k x).cores = s.cores ∧ (s.setSched k x).tasks = s.tasks ∧ (s.setSched k x).spawns = s.spawns ∧
    (s.setSched k x).flagMsgs = s.flagMsgs ∧ (s.setSched k x).err = s.err ∧ (s.setSched k x).pow = s.pow ∧
    (s.setSched k x).arrs = s.arrs ∧ (s.setSched k x).vecs = s.vecs ∧ (s.setSched k x).digNew = s.digNew ∧
    (s.setSched k x).ctxs = s.ctxs ∧ (s.setSched k x).hops = s.hops ∧ (s.setSched k x).objs = s.objs ∧
    (s.setSched k x).syncMsgs = s.syncMsgs ∧ (s.setSched k x).wakes = s.wakes ∧ (s.setSched k x).wds = s.wds ∧
    (s.setSched k x).cmds = s.cmds ∧ (s.setSched k x).heldSubs = s.heldSubs ∧ (s.setSched k x).slots = s.slots ∧
    (s.setSched k x).bags = s.bags ∧ (s.setSched k x).upds = s.upds ∧ (s.setSched k x).defers = s.defers ∧
    (s.setSched k x).moves = s.moves ∧ (s.setSched k x).shards = s.shards ∧ (s.setSched k x).sketch = s.sketch ∧
    (s.setSched k x).sketchN = s.sketchN ∧ (s.setSched k x).flashes = s.flashes ∧ (s.setSched k x).oadds = s.oadds ∧
    (s.setSched k x).cmem = s.cmem ∧ (s.setSched k x).clines = s.clines ∧ (s.setSched k x).plru = s.plru ∧
    (s.setSched k x).wbacks = s.wbacks ∧ (s.setSched k x).dets = s.dets ∧ (s.setSched k x).misses = s.misses ∧
    (s.setSched k x).bankTrs = s.bankTrs ∧ (s.setSched k x).marches = s.marches ∧ (s.setSched k x).cellars = s.cellars ∧
    (s.setSched k x).pcs = s.pcs ∧ (s.setSched k x).stkSts = s.stkSts ∧ (s.setSched k x).tports = s.tports ∧
    (s.setSched k x).routes = s.routes ∧ (s.setSched k x).routeN = s.routeN ∧ (s.setSched k x).percs = s.percs ∧
    (s.setSched k x).colls = s.colls ∧ (s.setSched k x).gtc = s.gtc ∧ (s.setSched k x).modeAt = s.modeAt ∧
    (s.setSched k x).modeAb = s.modeAb ∧ (s.setSched k x).thrAt = s.thrAt ∧ (s.setSched k x).trust = s.trust :=
  by and_intros <;> rfl
@[simp] theorem State.setSched_reads (k : Nat) (x : Sched) :
    (∀ k', (s.setSched k x).thread k' = s.thread k') ∧
    (∀ k', (s.setSched k x).core k' = s.core k') ∧
    (∀ k', (s.setSched k x).entry k' = s.entry k') ∧
    (∀ k', (s.setSched k x).port k' = s.port k') ∧
    (∀ a' b', (s.setSched k x).ring a' b' = s.ring a' b') ∧
    (∀ k', (s.setSched k x).ctx k' = s.ctx k') ∧
    (∀ k', (s.setSched k x).obj k' = s.obj k') ∧
    (∀ k', (s.setSched k x).arr k' = s.arr k') ∧
    (∀ j', (s.setSched k x).job? j' = s.job? j') ∧
    (∀ a' g' i', (s.setSched k x).fget a' g' i' = s.fget a' g' i') ∧
    (∀ q', (s.setSched k x).qState q' = s.qState q') :=
  by and_intros <;> intros <;> rfl
@[simp] theorem State.sched_setSched (k : Nat) (x : Sched) (j : Nat) : (s.setSched k x).sched j = if j = k then x else s.sched j := by
  simp [State.sched, State.setSched, Sparse.get_put]
@[simp] theorem State.updJob_frame (j : JobId) (f : Job → Job) :
    (s.updJob j f).pending = s.pending ∧ (s.updJob j f).freeCtr = s.freeCtr ∧ (s.updJob j f).regs = s.regs ∧
    (s.updJob j f).mem = s.mem ∧ (s.updJob j f).host = s.host ∧ (s.updJob j f).clk = s.clk ∧
    (s.updJob j f).fabric = s.fabric ∧ (s.updJob j f).ports = s.ports ∧ (s.updJob j f).rings = s.rings ∧
    (s.updJob j f).hostReads = s.hostReads ∧ (s.updJob j f).threads = s.threads ∧ (s.updJob j f).cores = s.cores ∧
    (s.updJob j f).tasks = s.tasks ∧ (s.updJob j f).scheds = s.scheds ∧ (s.updJob j f).spawns = s.spawns ∧
    (s.updJob j f).flagMsgs = s.flagMsgs ∧ (s.updJob j f).err = s.err ∧ (s.updJob j f).pow = s.pow ∧
    (s.updJob j f).arrs = s.arrs ∧ (s.updJob j f).vecs = s.vecs ∧ (s.updJob j f).digNew = s.digNew ∧
    (s.updJob j f).ctxs = s.ctxs ∧ (s.updJob j f).hops = s.hops ∧ (s.updJob j f).objs = s.objs ∧
    (s.updJob j f).syncMsgs = s.syncMsgs ∧ (s.updJob j f).wakes = s.wakes ∧ (s.updJob j f).wds = s.wds ∧
    (s.updJob j f).cmds = s.cmds ∧ (s.updJob j f).heldSubs = s.heldSubs ∧ (s.updJob j f).slots = s.slots ∧
    (s.updJob j f).bags = s.bags ∧ (s.updJob j f).upds = s.upds ∧ (s.updJob j f).defers = s.defers ∧
    (s.updJob j f).moves = s.moves ∧ (s.updJob j f).shards = s.shards ∧ (s.updJob j f).sketch = s.sketch ∧
    (s.updJob j f).sketchN = s.sketchN ∧ (s.updJob j f).flashes = s.flashes ∧ (s.updJob j f).oadds = s.oadds ∧
    (s.updJob j f).cmem = s.cmem ∧ (s.updJob j f).clines = s.clines ∧ (s.updJob j f).plru = s.plru ∧
    (s.updJob j f).wbacks = s.wbacks ∧ (s.updJob j f).dets = s.dets ∧ (s.updJob j f).misses = s.misses ∧
    (s.updJob j f).bankTrs = s.bankTrs ∧ (s.updJob j f).marches = s.marches ∧ (s.updJob j f).cellars = s.cellars ∧
    (s.updJob j f).pcs = s.pcs ∧ (s.updJob j f).stkSts = s.stkSts ∧ (s.updJob j f).tports = s.tports ∧
    (s.updJob j f).routes = s.routes ∧ (s.updJob j f).routeN = s.routeN ∧ (s.updJob j f).percs = s.percs ∧
    (s.updJob j f).colls = s.colls ∧ (s.updJob j f).gtc = s.gtc ∧ (s.updJob j f).modeAt = s.modeAt ∧
    (s.updJob j f).modeAb = s.modeAb ∧ (s.updJob j f).thrAt = s.thrAt ∧ (s.updJob j f).trust = s.trust :=
  by and_intros <;> rfl
@[simp] theorem State.updJob_reads (j : JobId) (f : Job → Job) :
    (∀ k', (s.updJob j f).thread k' = s.thread k') ∧
    (∀ k', (s.updJob j f).core k' = s.core k') ∧
    (∀ k', (s.updJob j f).entry k' = s.entry k') ∧
    (∀ k', (s.updJob j f).port k' = s.port k') ∧
    (∀ a' b', (s.updJob j f).ring a' b' = s.ring a' b') ∧
    (∀ k', (s.updJob j f).ctx k' = s.ctx k') ∧
    (∀ k', (s.updJob j f).obj k' = s.obj k') ∧
    (∀ k', (s.updJob j f).arr k' = s.arr k') ∧
    (∀ a' g' i', (s.updJob j f).fget a' g' i' = s.fget a' g' i') ∧
    (∀ q', (s.updJob j f).qState q' = s.qState q') :=
  by and_intros <;> intros <;> rfl
@[simp] theorem State.dropJob_frame (j : JobId) :
    (s.dropJob j).pending = s.pending ∧ (s.dropJob j).freeCtr = s.freeCtr ∧ (s.dropJob j).regs = s.regs ∧
    (s.dropJob j).mem = s.mem ∧ (s.dropJob j).host = s.host ∧ (s.dropJob j).clk = s.clk ∧ (s.dropJob j).fabric = s.fabric ∧
    (s.dropJob j).ports = s.ports ∧ (s.dropJob j).rings = s.rings ∧ (s.dropJob j).hostReads = s.hostReads ∧
    (s.dropJob j).threads = s.threads ∧ (s.dropJob j).cores = s.cores ∧ (s.dropJob j).tasks = s.tasks ∧
    (s.dropJob j).scheds = s.scheds ∧ (s.dropJob j).spawns = s.spawns ∧ (s.dropJob j).flagMsgs = s.flagMsgs ∧
    (s.dropJob j).err = s.err ∧ (s.dropJob j).pow = s.pow ∧ (s.dropJob j).arrs = s.arrs ∧ (s.dropJob j).vecs = s.vecs ∧
    (s.dropJob j).digNew = s.digNew ∧ (s.dropJob j).ctxs = s.ctxs ∧ (s.dropJob j).hops = s.hops ∧
    (s.dropJob j).objs = s.objs ∧ (s.dropJob j).syncMsgs = s.syncMsgs ∧ (s.dropJob j).wakes = s.wakes ∧
    (s.dropJob j).wds = s.wds ∧ (s.dropJob j).cmds = s.cmds ∧ (s.dropJob j).heldSubs = s.heldSubs ∧
    (s.dropJob j).slots = s.slots ∧ (s.dropJob j).bags = s.bags ∧ (s.dropJob j).upds = s.upds ∧
    (s.dropJob j).defers = s.defers ∧ (s.dropJob j).moves = s.moves ∧ (s.dropJob j).shards = s.shards ∧
    (s.dropJob j).sketch = s.sketch ∧ (s.dropJob j).sketchN = s.sketchN ∧ (s.dropJob j).flashes = s.flashes ∧
    (s.dropJob j).oadds = s.oadds ∧ (s.dropJob j).cmem = s.cmem ∧ (s.dropJob j).clines = s.clines ∧
    (s.dropJob j).plru = s.plru ∧ (s.dropJob j).wbacks = s.wbacks ∧ (s.dropJob j).dets = s.dets ∧
    (s.dropJob j).misses = s.misses ∧ (s.dropJob j).bankTrs = s.bankTrs ∧ (s.dropJob j).marches = s.marches ∧
    (s.dropJob j).cellars = s.cellars ∧ (s.dropJob j).pcs = s.pcs ∧ (s.dropJob j).stkSts = s.stkSts ∧
    (s.dropJob j).tports = s.tports ∧ (s.dropJob j).routes = s.routes ∧ (s.dropJob j).routeN = s.routeN ∧
    (s.dropJob j).percs = s.percs ∧ (s.dropJob j).colls = s.colls ∧ (s.dropJob j).gtc = s.gtc ∧
    (s.dropJob j).modeAt = s.modeAt ∧ (s.dropJob j).modeAb = s.modeAb ∧ (s.dropJob j).thrAt = s.thrAt ∧
    (s.dropJob j).trust = s.trust :=
  by and_intros <;> rfl
@[simp] theorem State.dropJob_reads (j : JobId) :
    (∀ k', (s.dropJob j).thread k' = s.thread k') ∧
    (∀ k', (s.dropJob j).core k' = s.core k') ∧
    (∀ k', (s.dropJob j).entry k' = s.entry k') ∧
    (∀ k', (s.dropJob j).port k' = s.port k') ∧
    (∀ a' b', (s.dropJob j).ring a' b' = s.ring a' b') ∧
    (∀ k', (s.dropJob j).ctx k' = s.ctx k') ∧
    (∀ k', (s.dropJob j).obj k' = s.obj k') ∧
    (∀ k', (s.dropJob j).arr k' = s.arr k') ∧
    (∀ a' g' i', (s.dropJob j).fget a' g' i' = s.fget a' g' i') ∧
    (∀ q', (s.dropJob j).qState q' = s.qState q') :=
  by and_intros <;> intros <;> rfl
@[simp] theorem State.setArr_frame (k : Nat) (x : Arr) :
    (s.setArr k x).pending = s.pending ∧ (s.setArr k x).freeCtr = s.freeCtr ∧ (s.setArr k x).regs = s.regs ∧
    (s.setArr k x).mem = s.mem ∧ (s.setArr k x).host = s.host ∧ (s.setArr k x).clk = s.clk ∧
    (s.setArr k x).fabric = s.fabric ∧ (s.setArr k x).ports = s.ports ∧ (s.setArr k x).rings = s.rings ∧
    (s.setArr k x).hostReads = s.hostReads ∧ (s.setArr k x).jobs = s.jobs ∧ (s.setArr k x).threads = s.threads ∧
    (s.setArr k x).cores = s.cores ∧ (s.setArr k x).tasks = s.tasks ∧ (s.setArr k x).scheds = s.scheds ∧
    (s.setArr k x).spawns = s.spawns ∧ (s.setArr k x).flagMsgs = s.flagMsgs ∧ (s.setArr k x).err = s.err ∧
    (s.setArr k x).pow = s.pow ∧ (s.setArr k x).vecs = s.vecs ∧ (s.setArr k x).digNew = s.digNew ∧
    (s.setArr k x).ctxs = s.ctxs ∧ (s.setArr k x).hops = s.hops ∧ (s.setArr k x).objs = s.objs ∧
    (s.setArr k x).syncMsgs = s.syncMsgs ∧ (s.setArr k x).wakes = s.wakes ∧ (s.setArr k x).wds = s.wds ∧
    (s.setArr k x).cmds = s.cmds ∧ (s.setArr k x).heldSubs = s.heldSubs ∧ (s.setArr k x).slots = s.slots ∧
    (s.setArr k x).bags = s.bags ∧ (s.setArr k x).upds = s.upds ∧ (s.setArr k x).defers = s.defers ∧
    (s.setArr k x).moves = s.moves ∧ (s.setArr k x).shards = s.shards ∧ (s.setArr k x).sketch = s.sketch ∧
    (s.setArr k x).sketchN = s.sketchN ∧ (s.setArr k x).flashes = s.flashes ∧ (s.setArr k x).oadds = s.oadds ∧
    (s.setArr k x).cmem = s.cmem ∧ (s.setArr k x).clines = s.clines ∧ (s.setArr k x).plru = s.plru ∧
    (s.setArr k x).wbacks = s.wbacks ∧ (s.setArr k x).dets = s.dets ∧ (s.setArr k x).misses = s.misses ∧
    (s.setArr k x).bankTrs = s.bankTrs ∧ (s.setArr k x).marches = s.marches ∧ (s.setArr k x).cellars = s.cellars ∧
    (s.setArr k x).pcs = s.pcs ∧ (s.setArr k x).stkSts = s.stkSts ∧ (s.setArr k x).tports = s.tports ∧
    (s.setArr k x).routes = s.routes ∧ (s.setArr k x).routeN = s.routeN ∧ (s.setArr k x).percs = s.percs ∧
    (s.setArr k x).colls = s.colls ∧ (s.setArr k x).gtc = s.gtc ∧ (s.setArr k x).modeAt = s.modeAt ∧
    (s.setArr k x).modeAb = s.modeAb ∧ (s.setArr k x).thrAt = s.thrAt ∧ (s.setArr k x).trust = s.trust :=
  by and_intros <;> rfl
@[simp] theorem State.setArr_reads (k : Nat) (x : Arr) :
    (∀ k', (s.setArr k x).thread k' = s.thread k') ∧
    (∀ k', (s.setArr k x).core k' = s.core k') ∧
    (∀ k', (s.setArr k x).entry k' = s.entry k') ∧
    (∀ k', (s.setArr k x).port k' = s.port k') ∧
    (∀ a' b', (s.setArr k x).ring a' b' = s.ring a' b') ∧
    (∀ k', (s.setArr k x).ctx k' = s.ctx k') ∧
    (∀ k', (s.setArr k x).obj k' = s.obj k') ∧
    (∀ j', (s.setArr k x).job? j' = s.job? j') ∧
    (∀ a' g' i', (s.setArr k x).fget a' g' i' = s.fget a' g' i') ∧
    (∀ q', (s.setArr k x).qState q' = s.qState q') :=
  by and_intros <;> intros <;> rfl
@[simp] theorem State.arr_setArr (k : Nat) (x : Arr) (j : Nat) : (s.setArr k x).arr j = if j = k then x else s.arr j := by
  simp [State.arr, State.setArr, Sparse.get_put]
@[simp] theorem State.setVec_frame (k : Nat) (x : List VecOp) :
    (s.setVec k x).pending = s.pending ∧ (s.setVec k x).freeCtr = s.freeCtr ∧ (s.setVec k x).regs = s.regs ∧
    (s.setVec k x).mem = s.mem ∧ (s.setVec k x).host = s.host ∧ (s.setVec k x).clk = s.clk ∧
    (s.setVec k x).fabric = s.fabric ∧ (s.setVec k x).ports = s.ports ∧ (s.setVec k x).rings = s.rings ∧
    (s.setVec k x).hostReads = s.hostReads ∧ (s.setVec k x).jobs = s.jobs ∧ (s.setVec k x).threads = s.threads ∧
    (s.setVec k x).cores = s.cores ∧ (s.setVec k x).tasks = s.tasks ∧ (s.setVec k x).scheds = s.scheds ∧
    (s.setVec k x).spawns = s.spawns ∧ (s.setVec k x).flagMsgs = s.flagMsgs ∧ (s.setVec k x).err = s.err ∧
    (s.setVec k x).pow = s.pow ∧ (s.setVec k x).arrs = s.arrs ∧ (s.setVec k x).digNew = s.digNew ∧
    (s.setVec k x).ctxs = s.ctxs ∧ (s.setVec k x).hops = s.hops ∧ (s.setVec k x).objs = s.objs ∧
    (s.setVec k x).syncMsgs = s.syncMsgs ∧ (s.setVec k x).wakes = s.wakes ∧ (s.setVec k x).wds = s.wds ∧
    (s.setVec k x).cmds = s.cmds ∧ (s.setVec k x).heldSubs = s.heldSubs ∧ (s.setVec k x).slots = s.slots ∧
    (s.setVec k x).bags = s.bags ∧ (s.setVec k x).upds = s.upds ∧ (s.setVec k x).defers = s.defers ∧
    (s.setVec k x).moves = s.moves ∧ (s.setVec k x).shards = s.shards ∧ (s.setVec k x).sketch = s.sketch ∧
    (s.setVec k x).sketchN = s.sketchN ∧ (s.setVec k x).flashes = s.flashes ∧ (s.setVec k x).oadds = s.oadds ∧
    (s.setVec k x).cmem = s.cmem ∧ (s.setVec k x).clines = s.clines ∧ (s.setVec k x).plru = s.plru ∧
    (s.setVec k x).wbacks = s.wbacks ∧ (s.setVec k x).dets = s.dets ∧ (s.setVec k x).misses = s.misses ∧
    (s.setVec k x).bankTrs = s.bankTrs ∧ (s.setVec k x).marches = s.marches ∧ (s.setVec k x).cellars = s.cellars ∧
    (s.setVec k x).pcs = s.pcs ∧ (s.setVec k x).stkSts = s.stkSts ∧ (s.setVec k x).tports = s.tports ∧
    (s.setVec k x).routes = s.routes ∧ (s.setVec k x).routeN = s.routeN ∧ (s.setVec k x).percs = s.percs ∧
    (s.setVec k x).colls = s.colls ∧ (s.setVec k x).gtc = s.gtc ∧ (s.setVec k x).modeAt = s.modeAt ∧
    (s.setVec k x).modeAb = s.modeAb ∧ (s.setVec k x).thrAt = s.thrAt ∧ (s.setVec k x).trust = s.trust :=
  by and_intros <;> rfl
@[simp] theorem State.setVec_reads (k : Nat) (x : List VecOp) :
    (∀ k', (s.setVec k x).thread k' = s.thread k') ∧
    (∀ k', (s.setVec k x).core k' = s.core k') ∧
    (∀ k', (s.setVec k x).entry k' = s.entry k') ∧
    (∀ k', (s.setVec k x).port k' = s.port k') ∧
    (∀ a' b', (s.setVec k x).ring a' b' = s.ring a' b') ∧
    (∀ k', (s.setVec k x).ctx k' = s.ctx k') ∧
    (∀ k', (s.setVec k x).obj k' = s.obj k') ∧
    (∀ k', (s.setVec k x).arr k' = s.arr k') ∧
    (∀ j', (s.setVec k x).job? j' = s.job? j') ∧
    (∀ a' g' i', (s.setVec k x).fget a' g' i' = s.fget a' g' i') ∧
    (∀ q', (s.setVec k x).qState q' = s.qState q') :=
  by and_intros <;> intros <;> rfl
@[simp] theorem State.vec_setVec (k : Nat) (x : List VecOp) (j : Nat) : (s.setVec k x).vec j = if j = k then x else s.vec j := by
  simp [State.vec, State.setVec, Sparse.get_put]
@[simp] theorem State.setCtx_frame (k : Nat) (x : Ctx) :
    (s.setCtx k x).pending = s.pending ∧ (s.setCtx k x).freeCtr = s.freeCtr ∧ (s.setCtx k x).regs = s.regs ∧
    (s.setCtx k x).mem = s.mem ∧ (s.setCtx k x).host = s.host ∧ (s.setCtx k x).clk = s.clk ∧
    (s.setCtx k x).fabric = s.fabric ∧ (s.setCtx k x).ports = s.ports ∧ (s.setCtx k x).rings = s.rings ∧
    (s.setCtx k x).hostReads = s.hostReads ∧ (s.setCtx k x).jobs = s.jobs ∧ (s.setCtx k x).threads = s.threads ∧
    (s.setCtx k x).cores = s.cores ∧ (s.setCtx k x).tasks = s.tasks ∧ (s.setCtx k x).scheds = s.scheds ∧
    (s.setCtx k x).spawns = s.spawns ∧ (s.setCtx k x).flagMsgs = s.flagMsgs ∧ (s.setCtx k x).err = s.err ∧
    (s.setCtx k x).pow = s.pow ∧ (s.setCtx k x).arrs = s.arrs ∧ (s.setCtx k x).vecs = s.vecs ∧
    (s.setCtx k x).digNew = s.digNew ∧ (s.setCtx k x).hops = s.hops ∧ (s.setCtx k x).objs = s.objs ∧
    (s.setCtx k x).syncMsgs = s.syncMsgs ∧ (s.setCtx k x).wakes = s.wakes ∧ (s.setCtx k x).wds = s.wds ∧
    (s.setCtx k x).cmds = s.cmds ∧ (s.setCtx k x).heldSubs = s.heldSubs ∧ (s.setCtx k x).slots = s.slots ∧
    (s.setCtx k x).bags = s.bags ∧ (s.setCtx k x).upds = s.upds ∧ (s.setCtx k x).defers = s.defers ∧
    (s.setCtx k x).moves = s.moves ∧ (s.setCtx k x).shards = s.shards ∧ (s.setCtx k x).sketch = s.sketch ∧
    (s.setCtx k x).sketchN = s.sketchN ∧ (s.setCtx k x).flashes = s.flashes ∧ (s.setCtx k x).oadds = s.oadds ∧
    (s.setCtx k x).cmem = s.cmem ∧ (s.setCtx k x).clines = s.clines ∧ (s.setCtx k x).plru = s.plru ∧
    (s.setCtx k x).wbacks = s.wbacks ∧ (s.setCtx k x).dets = s.dets ∧ (s.setCtx k x).misses = s.misses ∧
    (s.setCtx k x).bankTrs = s.bankTrs ∧ (s.setCtx k x).marches = s.marches ∧ (s.setCtx k x).cellars = s.cellars ∧
    (s.setCtx k x).pcs = s.pcs ∧ (s.setCtx k x).stkSts = s.stkSts ∧ (s.setCtx k x).tports = s.tports ∧
    (s.setCtx k x).routes = s.routes ∧ (s.setCtx k x).routeN = s.routeN ∧ (s.setCtx k x).percs = s.percs ∧
    (s.setCtx k x).colls = s.colls ∧ (s.setCtx k x).gtc = s.gtc ∧ (s.setCtx k x).modeAt = s.modeAt ∧
    (s.setCtx k x).modeAb = s.modeAb ∧ (s.setCtx k x).thrAt = s.thrAt ∧ (s.setCtx k x).trust = s.trust :=
  by and_intros <;> rfl
@[simp] theorem State.setCtx_reads (k : Nat) (x : Ctx) :
    (∀ k', (s.setCtx k x).thread k' = s.thread k') ∧
    (∀ k', (s.setCtx k x).core k' = s.core k') ∧
    (∀ k', (s.setCtx k x).entry k' = s.entry k') ∧
    (∀ k', (s.setCtx k x).port k' = s.port k') ∧
    (∀ a' b', (s.setCtx k x).ring a' b' = s.ring a' b') ∧
    (∀ k', (s.setCtx k x).obj k' = s.obj k') ∧
    (∀ k', (s.setCtx k x).arr k' = s.arr k') ∧
    (∀ j', (s.setCtx k x).job? j' = s.job? j') ∧
    (∀ a' g' i', (s.setCtx k x).fget a' g' i' = s.fget a' g' i') ∧
    (∀ q', (s.setCtx k x).qState q' = s.qState q') :=
  by and_intros <;> intros <;> rfl
@[simp] theorem State.ctx_setCtx (k : Nat) (x : Ctx) (j : Nat) : (s.setCtx k x).ctx j = if j = k then x else s.ctx j := by
  simp [State.ctx, State.setCtx, Sparse.get_put]
@[simp] theorem State.setObj_frame (k : Nat) (x : Obj) :
    (s.setObj k x).pending = s.pending ∧ (s.setObj k x).freeCtr = s.freeCtr ∧ (s.setObj k x).regs = s.regs ∧
    (s.setObj k x).mem = s.mem ∧ (s.setObj k x).host = s.host ∧ (s.setObj k x).clk = s.clk ∧
    (s.setObj k x).fabric = s.fabric ∧ (s.setObj k x).ports = s.ports ∧ (s.setObj k x).rings = s.rings ∧
    (s.setObj k x).hostReads = s.hostReads ∧ (s.setObj k x).jobs = s.jobs ∧ (s.setObj k x).threads = s.threads ∧
    (s.setObj k x).cores = s.cores ∧ (s.setObj k x).tasks = s.tasks ∧ (s.setObj k x).scheds = s.scheds ∧
    (s.setObj k x).spawns = s.spawns ∧ (s.setObj k x).flagMsgs = s.flagMsgs ∧ (s.setObj k x).err = s.err ∧
    (s.setObj k x).pow = s.pow ∧ (s.setObj k x).arrs = s.arrs ∧ (s.setObj k x).vecs = s.vecs ∧
    (s.setObj k x).digNew = s.digNew ∧ (s.setObj k x).ctxs = s.ctxs ∧ (s.setObj k x).hops = s.hops ∧
    (s.setObj k x).syncMsgs = s.syncMsgs ∧ (s.setObj k x).wakes = s.wakes ∧ (s.setObj k x).wds = s.wds ∧
    (s.setObj k x).cmds = s.cmds ∧ (s.setObj k x).heldSubs = s.heldSubs ∧ (s.setObj k x).slots = s.slots ∧
    (s.setObj k x).bags = s.bags ∧ (s.setObj k x).upds = s.upds ∧ (s.setObj k x).defers = s.defers ∧
    (s.setObj k x).moves = s.moves ∧ (s.setObj k x).shards = s.shards ∧ (s.setObj k x).sketch = s.sketch ∧
    (s.setObj k x).sketchN = s.sketchN ∧ (s.setObj k x).flashes = s.flashes ∧ (s.setObj k x).oadds = s.oadds ∧
    (s.setObj k x).cmem = s.cmem ∧ (s.setObj k x).clines = s.clines ∧ (s.setObj k x).plru = s.plru ∧
    (s.setObj k x).wbacks = s.wbacks ∧ (s.setObj k x).dets = s.dets ∧ (s.setObj k x).misses = s.misses ∧
    (s.setObj k x).bankTrs = s.bankTrs ∧ (s.setObj k x).marches = s.marches ∧ (s.setObj k x).cellars = s.cellars ∧
    (s.setObj k x).pcs = s.pcs ∧ (s.setObj k x).stkSts = s.stkSts ∧ (s.setObj k x).tports = s.tports ∧
    (s.setObj k x).routes = s.routes ∧ (s.setObj k x).routeN = s.routeN ∧ (s.setObj k x).percs = s.percs ∧
    (s.setObj k x).colls = s.colls ∧ (s.setObj k x).gtc = s.gtc ∧ (s.setObj k x).modeAt = s.modeAt ∧
    (s.setObj k x).modeAb = s.modeAb ∧ (s.setObj k x).thrAt = s.thrAt ∧ (s.setObj k x).trust = s.trust :=
  by and_intros <;> rfl
@[simp] theorem State.setObj_reads (k : Nat) (x : Obj) :
    (∀ k', (s.setObj k x).thread k' = s.thread k') ∧
    (∀ k', (s.setObj k x).core k' = s.core k') ∧
    (∀ k', (s.setObj k x).entry k' = s.entry k') ∧
    (∀ k', (s.setObj k x).port k' = s.port k') ∧
    (∀ a' b', (s.setObj k x).ring a' b' = s.ring a' b') ∧
    (∀ k', (s.setObj k x).ctx k' = s.ctx k') ∧
    (∀ k', (s.setObj k x).arr k' = s.arr k') ∧
    (∀ j', (s.setObj k x).job? j' = s.job? j') ∧
    (∀ a' g' i', (s.setObj k x).fget a' g' i' = s.fget a' g' i') ∧
    (∀ q', (s.setObj k x).qState q' = s.qState q') :=
  by and_intros <;> intros <;> rfl
@[simp] theorem State.obj_setObj (k : Nat) (x : Obj) (j : Nat) : (s.setObj k x).obj j = if j = k then x else s.obj j := by
  simp [State.obj, State.setObj, Sparse.get_put]
@[simp] theorem State.setWd_frame (k : Nat) (x : Wd) :
    (s.setWd k x).pending = s.pending ∧ (s.setWd k x).freeCtr = s.freeCtr ∧ (s.setWd k x).regs = s.regs ∧
    (s.setWd k x).mem = s.mem ∧ (s.setWd k x).host = s.host ∧ (s.setWd k x).clk = s.clk ∧ (s.setWd k x).fabric = s.fabric ∧
    (s.setWd k x).ports = s.ports ∧ (s.setWd k x).rings = s.rings ∧ (s.setWd k x).hostReads = s.hostReads ∧
    (s.setWd k x).jobs = s.jobs ∧ (s.setWd k x).threads = s.threads ∧ (s.setWd k x).cores = s.cores ∧
    (s.setWd k x).tasks = s.tasks ∧ (s.setWd k x).scheds = s.scheds ∧ (s.setWd k x).spawns = s.spawns ∧
    (s.setWd k x).flagMsgs = s.flagMsgs ∧ (s.setWd k x).err = s.err ∧ (s.setWd k x).pow = s.pow ∧
    (s.setWd k x).arrs = s.arrs ∧ (s.setWd k x).vecs = s.vecs ∧ (s.setWd k x).digNew = s.digNew ∧
    (s.setWd k x).ctxs = s.ctxs ∧ (s.setWd k x).hops = s.hops ∧ (s.setWd k x).objs = s.objs ∧
    (s.setWd k x).syncMsgs = s.syncMsgs ∧ (s.setWd k x).wakes = s.wakes ∧ (s.setWd k x).cmds = s.cmds ∧
    (s.setWd k x).heldSubs = s.heldSubs ∧ (s.setWd k x).slots = s.slots ∧ (s.setWd k x).bags = s.bags ∧
    (s.setWd k x).upds = s.upds ∧ (s.setWd k x).defers = s.defers ∧ (s.setWd k x).moves = s.moves ∧
    (s.setWd k x).shards = s.shards ∧ (s.setWd k x).sketch = s.sketch ∧ (s.setWd k x).sketchN = s.sketchN ∧
    (s.setWd k x).flashes = s.flashes ∧ (s.setWd k x).oadds = s.oadds ∧ (s.setWd k x).cmem = s.cmem ∧
    (s.setWd k x).clines = s.clines ∧ (s.setWd k x).plru = s.plru ∧ (s.setWd k x).wbacks = s.wbacks ∧
    (s.setWd k x).dets = s.dets ∧ (s.setWd k x).misses = s.misses ∧ (s.setWd k x).bankTrs = s.bankTrs ∧
    (s.setWd k x).marches = s.marches ∧ (s.setWd k x).cellars = s.cellars ∧ (s.setWd k x).pcs = s.pcs ∧
    (s.setWd k x).stkSts = s.stkSts ∧ (s.setWd k x).tports = s.tports ∧ (s.setWd k x).routes = s.routes ∧
    (s.setWd k x).routeN = s.routeN ∧ (s.setWd k x).percs = s.percs ∧ (s.setWd k x).colls = s.colls ∧
    (s.setWd k x).gtc = s.gtc ∧ (s.setWd k x).modeAt = s.modeAt ∧ (s.setWd k x).modeAb = s.modeAb ∧
    (s.setWd k x).thrAt = s.thrAt ∧ (s.setWd k x).trust = s.trust :=
  by and_intros <;> rfl
@[simp] theorem State.setWd_reads (k : Nat) (x : Wd) :
    (∀ k', (s.setWd k x).thread k' = s.thread k') ∧
    (∀ k', (s.setWd k x).core k' = s.core k') ∧
    (∀ k', (s.setWd k x).entry k' = s.entry k') ∧
    (∀ k', (s.setWd k x).port k' = s.port k') ∧
    (∀ a' b', (s.setWd k x).ring a' b' = s.ring a' b') ∧
    (∀ k', (s.setWd k x).ctx k' = s.ctx k') ∧
    (∀ k', (s.setWd k x).obj k' = s.obj k') ∧
    (∀ k', (s.setWd k x).arr k' = s.arr k') ∧
    (∀ j', (s.setWd k x).job? j' = s.job? j') ∧
    (∀ a' g' i', (s.setWd k x).fget a' g' i' = s.fget a' g' i') ∧
    (∀ q', (s.setWd k x).qState q' = s.qState q') :=
  by and_intros <;> intros <;> rfl
@[simp] theorem State.wd_setWd (k : Nat) (x : Wd) (j : Nat) : (s.setWd k x).wd j = if j = k then x else s.wd j := by
  simp [State.wd, State.setWd, Sparse.get_put]
@[simp] theorem State.updCmd_frame (id : Nat) (f : Cmd → Cmd) :
    (s.updCmd id f).pending = s.pending ∧ (s.updCmd id f).freeCtr = s.freeCtr ∧ (s.updCmd id f).regs = s.regs ∧
    (s.updCmd id f).mem = s.mem ∧ (s.updCmd id f).host = s.host ∧ (s.updCmd id f).clk = s.clk ∧
    (s.updCmd id f).fabric = s.fabric ∧ (s.updCmd id f).ports = s.ports ∧ (s.updCmd id f).rings = s.rings ∧
    (s.updCmd id f).hostReads = s.hostReads ∧ (s.updCmd id f).jobs = s.jobs ∧ (s.updCmd id f).threads = s.threads ∧
    (s.updCmd id f).cores = s.cores ∧ (s.updCmd id f).tasks = s.tasks ∧ (s.updCmd id f).scheds = s.scheds ∧
    (s.updCmd id f).spawns = s.spawns ∧ (s.updCmd id f).flagMsgs = s.flagMsgs ∧ (s.updCmd id f).err = s.err ∧
    (s.updCmd id f).pow = s.pow ∧ (s.updCmd id f).arrs = s.arrs ∧ (s.updCmd id f).vecs = s.vecs ∧
    (s.updCmd id f).digNew = s.digNew ∧ (s.updCmd id f).ctxs = s.ctxs ∧ (s.updCmd id f).hops = s.hops ∧
    (s.updCmd id f).objs = s.objs ∧ (s.updCmd id f).syncMsgs = s.syncMsgs ∧ (s.updCmd id f).wakes = s.wakes ∧
    (s.updCmd id f).wds = s.wds ∧ (s.updCmd id f).heldSubs = s.heldSubs ∧ (s.updCmd id f).slots = s.slots ∧
    (s.updCmd id f).bags = s.bags ∧ (s.updCmd id f).upds = s.upds ∧ (s.updCmd id f).defers = s.defers ∧
    (s.updCmd id f).moves = s.moves ∧ (s.updCmd id f).shards = s.shards ∧ (s.updCmd id f).sketch = s.sketch ∧
    (s.updCmd id f).sketchN = s.sketchN ∧ (s.updCmd id f).flashes = s.flashes ∧ (s.updCmd id f).oadds = s.oadds ∧
    (s.updCmd id f).cmem = s.cmem ∧ (s.updCmd id f).clines = s.clines ∧ (s.updCmd id f).plru = s.plru ∧
    (s.updCmd id f).wbacks = s.wbacks ∧ (s.updCmd id f).dets = s.dets ∧ (s.updCmd id f).misses = s.misses ∧
    (s.updCmd id f).bankTrs = s.bankTrs ∧ (s.updCmd id f).marches = s.marches ∧ (s.updCmd id f).cellars = s.cellars ∧
    (s.updCmd id f).pcs = s.pcs ∧ (s.updCmd id f).stkSts = s.stkSts ∧ (s.updCmd id f).tports = s.tports ∧
    (s.updCmd id f).routes = s.routes ∧ (s.updCmd id f).routeN = s.routeN ∧ (s.updCmd id f).percs = s.percs ∧
    (s.updCmd id f).colls = s.colls ∧ (s.updCmd id f).gtc = s.gtc ∧ (s.updCmd id f).modeAt = s.modeAt ∧
    (s.updCmd id f).modeAb = s.modeAb ∧ (s.updCmd id f).thrAt = s.thrAt ∧ (s.updCmd id f).trust = s.trust :=
  by and_intros <;> rfl
@[simp] theorem State.updCmd_reads (id : Nat) (f : Cmd → Cmd) :
    (∀ k', (s.updCmd id f).thread k' = s.thread k') ∧
    (∀ k', (s.updCmd id f).core k' = s.core k') ∧
    (∀ k', (s.updCmd id f).entry k' = s.entry k') ∧
    (∀ k', (s.updCmd id f).port k' = s.port k') ∧
    (∀ a' b', (s.updCmd id f).ring a' b' = s.ring a' b') ∧
    (∀ k', (s.updCmd id f).ctx k' = s.ctx k') ∧
    (∀ k', (s.updCmd id f).obj k' = s.obj k') ∧
    (∀ k', (s.updCmd id f).arr k' = s.arr k') ∧
    (∀ j', (s.updCmd id f).job? j' = s.job? j') ∧
    (∀ a' g' i', (s.updCmd id f).fget a' g' i' = s.fget a' g' i') ∧
    (∀ q', (s.updCmd id f).qState q' = s.qState q') :=
  by and_intros <;> intros <;> rfl
@[simp] theorem State.dropCmd_frame (id : Nat) :
    (s.dropCmd id).pending = s.pending ∧ (s.dropCmd id).freeCtr = s.freeCtr ∧ (s.dropCmd id).regs = s.regs ∧
    (s.dropCmd id).mem = s.mem ∧ (s.dropCmd id).host = s.host ∧ (s.dropCmd id).clk = s.clk ∧
    (s.dropCmd id).fabric = s.fabric ∧ (s.dropCmd id).ports = s.ports ∧ (s.dropCmd id).rings = s.rings ∧
    (s.dropCmd id).hostReads = s.hostReads ∧ (s.dropCmd id).jobs = s.jobs ∧ (s.dropCmd id).threads = s.threads ∧
    (s.dropCmd id).cores = s.cores ∧ (s.dropCmd id).tasks = s.tasks ∧ (s.dropCmd id).scheds = s.scheds ∧
    (s.dropCmd id).spawns = s.spawns ∧ (s.dropCmd id).flagMsgs = s.flagMsgs ∧ (s.dropCmd id).err = s.err ∧
    (s.dropCmd id).pow = s.pow ∧ (s.dropCmd id).arrs = s.arrs ∧ (s.dropCmd id).vecs = s.vecs ∧
    (s.dropCmd id).digNew = s.digNew ∧ (s.dropCmd id).ctxs = s.ctxs ∧ (s.dropCmd id).hops = s.hops ∧
    (s.dropCmd id).objs = s.objs ∧ (s.dropCmd id).syncMsgs = s.syncMsgs ∧ (s.dropCmd id).wakes = s.wakes ∧
    (s.dropCmd id).wds = s.wds ∧ (s.dropCmd id).heldSubs = s.heldSubs ∧ (s.dropCmd id).slots = s.slots ∧
    (s.dropCmd id).bags = s.bags ∧ (s.dropCmd id).upds = s.upds ∧ (s.dropCmd id).defers = s.defers ∧
    (s.dropCmd id).moves = s.moves ∧ (s.dropCmd id).shards = s.shards ∧ (s.dropCmd id).sketch = s.sketch ∧
    (s.dropCmd id).sketchN = s.sketchN ∧ (s.dropCmd id).flashes = s.flashes ∧ (s.dropCmd id).oadds = s.oadds ∧
    (s.dropCmd id).cmem = s.cmem ∧ (s.dropCmd id).clines = s.clines ∧ (s.dropCmd id).plru = s.plru ∧
    (s.dropCmd id).wbacks = s.wbacks ∧ (s.dropCmd id).dets = s.dets ∧ (s.dropCmd id).misses = s.misses ∧
    (s.dropCmd id).bankTrs = s.bankTrs ∧ (s.dropCmd id).marches = s.marches ∧ (s.dropCmd id).cellars = s.cellars ∧
    (s.dropCmd id).pcs = s.pcs ∧ (s.dropCmd id).stkSts = s.stkSts ∧ (s.dropCmd id).tports = s.tports ∧
    (s.dropCmd id).routes = s.routes ∧ (s.dropCmd id).routeN = s.routeN ∧ (s.dropCmd id).percs = s.percs ∧
    (s.dropCmd id).colls = s.colls ∧ (s.dropCmd id).gtc = s.gtc ∧ (s.dropCmd id).modeAt = s.modeAt ∧
    (s.dropCmd id).modeAb = s.modeAb ∧ (s.dropCmd id).thrAt = s.thrAt ∧ (s.dropCmd id).trust = s.trust :=
  by and_intros <;> rfl
@[simp] theorem State.dropCmd_reads (id : Nat) :
    (∀ k', (s.dropCmd id).thread k' = s.thread k') ∧
    (∀ k', (s.dropCmd id).core k' = s.core k') ∧
    (∀ k', (s.dropCmd id).entry k' = s.entry k') ∧
    (∀ k', (s.dropCmd id).port k' = s.port k') ∧
    (∀ a' b', (s.dropCmd id).ring a' b' = s.ring a' b') ∧
    (∀ k', (s.dropCmd id).ctx k' = s.ctx k') ∧
    (∀ k', (s.dropCmd id).obj k' = s.obj k') ∧
    (∀ k', (s.dropCmd id).arr k' = s.arr k') ∧
    (∀ j', (s.dropCmd id).job? j' = s.job? j') ∧
    (∀ a' g' i', (s.dropCmd id).fget a' g' i' = s.fget a' g' i') ∧
    (∀ q', (s.dropCmd id).qState q' = s.qState q') :=
  by and_intros <;> intros <;> rfl
@[simp] theorem State.updReq_frame (id : Nat) (f : Req → Req) :
    (s.updReq id f).pending = s.pending ∧ (s.updReq id f).freeCtr = s.freeCtr ∧ (s.updReq id f).regs = s.regs ∧
    (s.updReq id f).mem = s.mem ∧ (s.updReq id f).host = s.host ∧ (s.updReq id f).clk = s.clk ∧
    (s.updReq id f).ports = s.ports ∧ (s.updReq id f).rings = s.rings ∧ (s.updReq id f).hostReads = s.hostReads ∧
    (s.updReq id f).jobs = s.jobs ∧ (s.updReq id f).threads = s.threads ∧ (s.updReq id f).cores = s.cores ∧
    (s.updReq id f).tasks = s.tasks ∧ (s.updReq id f).scheds = s.scheds ∧ (s.updReq id f).spawns = s.spawns ∧
    (s.updReq id f).flagMsgs = s.flagMsgs ∧ (s.updReq id f).err = s.err ∧ (s.updReq id f).pow = s.pow ∧
    (s.updReq id f).arrs = s.arrs ∧ (s.updReq id f).vecs = s.vecs ∧ (s.updReq id f).digNew = s.digNew ∧
    (s.updReq id f).ctxs = s.ctxs ∧ (s.updReq id f).hops = s.hops ∧ (s.updReq id f).objs = s.objs ∧
    (s.updReq id f).syncMsgs = s.syncMsgs ∧ (s.updReq id f).wakes = s.wakes ∧ (s.updReq id f).wds = s.wds ∧
    (s.updReq id f).cmds = s.cmds ∧ (s.updReq id f).heldSubs = s.heldSubs ∧ (s.updReq id f).slots = s.slots ∧
    (s.updReq id f).bags = s.bags ∧ (s.updReq id f).upds = s.upds ∧ (s.updReq id f).defers = s.defers ∧
    (s.updReq id f).moves = s.moves ∧ (s.updReq id f).shards = s.shards ∧ (s.updReq id f).sketch = s.sketch ∧
    (s.updReq id f).sketchN = s.sketchN ∧ (s.updReq id f).flashes = s.flashes ∧ (s.updReq id f).oadds = s.oadds ∧
    (s.updReq id f).cmem = s.cmem ∧ (s.updReq id f).clines = s.clines ∧ (s.updReq id f).plru = s.plru ∧
    (s.updReq id f).wbacks = s.wbacks ∧ (s.updReq id f).dets = s.dets ∧ (s.updReq id f).misses = s.misses ∧
    (s.updReq id f).bankTrs = s.bankTrs ∧ (s.updReq id f).marches = s.marches ∧ (s.updReq id f).cellars = s.cellars ∧
    (s.updReq id f).pcs = s.pcs ∧ (s.updReq id f).stkSts = s.stkSts ∧ (s.updReq id f).tports = s.tports ∧
    (s.updReq id f).routes = s.routes ∧ (s.updReq id f).routeN = s.routeN ∧ (s.updReq id f).percs = s.percs ∧
    (s.updReq id f).colls = s.colls ∧ (s.updReq id f).gtc = s.gtc ∧ (s.updReq id f).modeAt = s.modeAt ∧
    (s.updReq id f).modeAb = s.modeAb ∧ (s.updReq id f).thrAt = s.thrAt ∧ (s.updReq id f).trust = s.trust :=
  by and_intros <;> rfl
@[simp] theorem State.updReq_reads (id : Nat) (f : Req → Req) :
    (∀ k', (s.updReq id f).thread k' = s.thread k') ∧
    (∀ k', (s.updReq id f).core k' = s.core k') ∧
    (∀ k', (s.updReq id f).entry k' = s.entry k') ∧
    (∀ k', (s.updReq id f).port k' = s.port k') ∧
    (∀ a' b', (s.updReq id f).ring a' b' = s.ring a' b') ∧
    (∀ k', (s.updReq id f).ctx k' = s.ctx k') ∧
    (∀ k', (s.updReq id f).obj k' = s.obj k') ∧
    (∀ k', (s.updReq id f).arr k' = s.arr k') ∧
    (∀ j', (s.updReq id f).job? j' = s.job? j') ∧
    (∀ a' g' i', (s.updReq id f).fget a' g' i' = s.fget a' g' i') ∧
    (∀ q', (s.updReq id f).qState q' = s.qState q') :=
  by and_intros <;> intros <;> rfl
@[simp] theorem State.dropReq_frame (id : Nat) :
    (s.dropReq id).pending = s.pending ∧ (s.dropReq id).freeCtr = s.freeCtr ∧ (s.dropReq id).regs = s.regs ∧
    (s.dropReq id).mem = s.mem ∧ (s.dropReq id).host = s.host ∧ (s.dropReq id).clk = s.clk ∧
    (s.dropReq id).ports = s.ports ∧ (s.dropReq id).rings = s.rings ∧ (s.dropReq id).hostReads = s.hostReads ∧
    (s.dropReq id).jobs = s.jobs ∧ (s.dropReq id).threads = s.threads ∧ (s.dropReq id).cores = s.cores ∧
    (s.dropReq id).tasks = s.tasks ∧ (s.dropReq id).scheds = s.scheds ∧ (s.dropReq id).spawns = s.spawns ∧
    (s.dropReq id).flagMsgs = s.flagMsgs ∧ (s.dropReq id).err = s.err ∧ (s.dropReq id).pow = s.pow ∧
    (s.dropReq id).arrs = s.arrs ∧ (s.dropReq id).vecs = s.vecs ∧ (s.dropReq id).digNew = s.digNew ∧
    (s.dropReq id).ctxs = s.ctxs ∧ (s.dropReq id).hops = s.hops ∧ (s.dropReq id).objs = s.objs ∧
    (s.dropReq id).syncMsgs = s.syncMsgs ∧ (s.dropReq id).wakes = s.wakes ∧ (s.dropReq id).wds = s.wds ∧
    (s.dropReq id).cmds = s.cmds ∧ (s.dropReq id).heldSubs = s.heldSubs ∧ (s.dropReq id).slots = s.slots ∧
    (s.dropReq id).bags = s.bags ∧ (s.dropReq id).upds = s.upds ∧ (s.dropReq id).defers = s.defers ∧
    (s.dropReq id).moves = s.moves ∧ (s.dropReq id).shards = s.shards ∧ (s.dropReq id).sketch = s.sketch ∧
    (s.dropReq id).sketchN = s.sketchN ∧ (s.dropReq id).flashes = s.flashes ∧ (s.dropReq id).oadds = s.oadds ∧
    (s.dropReq id).cmem = s.cmem ∧ (s.dropReq id).clines = s.clines ∧ (s.dropReq id).plru = s.plru ∧
    (s.dropReq id).wbacks = s.wbacks ∧ (s.dropReq id).dets = s.dets ∧ (s.dropReq id).misses = s.misses ∧
    (s.dropReq id).bankTrs = s.bankTrs ∧ (s.dropReq id).marches = s.marches ∧ (s.dropReq id).cellars = s.cellars ∧
    (s.dropReq id).pcs = s.pcs ∧ (s.dropReq id).stkSts = s.stkSts ∧ (s.dropReq id).tports = s.tports ∧
    (s.dropReq id).routes = s.routes ∧ (s.dropReq id).routeN = s.routeN ∧ (s.dropReq id).percs = s.percs ∧
    (s.dropReq id).colls = s.colls ∧ (s.dropReq id).gtc = s.gtc ∧ (s.dropReq id).modeAt = s.modeAt ∧
    (s.dropReq id).modeAb = s.modeAb ∧ (s.dropReq id).thrAt = s.thrAt ∧ (s.dropReq id).trust = s.trust :=
  by and_intros <;> rfl
@[simp] theorem State.dropReq_reads (id : Nat) :
    (∀ k', (s.dropReq id).thread k' = s.thread k') ∧
    (∀ k', (s.dropReq id).core k' = s.core k') ∧
    (∀ k', (s.dropReq id).entry k' = s.entry k') ∧
    (∀ k', (s.dropReq id).port k' = s.port k') ∧
    (∀ a' b', (s.dropReq id).ring a' b' = s.ring a' b') ∧
    (∀ k', (s.dropReq id).ctx k' = s.ctx k') ∧
    (∀ k', (s.dropReq id).obj k' = s.obj k') ∧
    (∀ k', (s.dropReq id).arr k' = s.arr k') ∧
    (∀ j', (s.dropReq id).job? j' = s.job? j') ∧
    (∀ a' g' i', (s.dropReq id).fget a' g' i' = s.fget a' g' i') ∧
    (∀ q', (s.dropReq id).qState q' = s.qState q') :=
  by and_intros <;> intros <;> rfl
@[simp] theorem State.setFrame_frame (o : Node × Node) (f : Frame) :
    (s.setFrame o f).pending = s.pending ∧ (s.setFrame o f).freeCtr = s.freeCtr ∧ (s.setFrame o f).regs = s.regs ∧
    (s.setFrame o f).mem = s.mem ∧ (s.setFrame o f).host = s.host ∧ (s.setFrame o f).clk = s.clk ∧
    (s.setFrame o f).ports = s.ports ∧ (s.setFrame o f).rings = s.rings ∧ (s.setFrame o f).hostReads = s.hostReads ∧
    (s.setFrame o f).jobs = s.jobs ∧ (s.setFrame o f).threads = s.threads ∧ (s.setFrame o f).cores = s.cores ∧
    (s.setFrame o f).tasks = s.tasks ∧ (s.setFrame o f).scheds = s.scheds ∧ (s.setFrame o f).spawns = s.spawns ∧
    (s.setFrame o f).flagMsgs = s.flagMsgs ∧ (s.setFrame o f).err = s.err ∧ (s.setFrame o f).pow = s.pow ∧
    (s.setFrame o f).arrs = s.arrs ∧ (s.setFrame o f).vecs = s.vecs ∧ (s.setFrame o f).digNew = s.digNew ∧
    (s.setFrame o f).ctxs = s.ctxs ∧ (s.setFrame o f).hops = s.hops ∧ (s.setFrame o f).objs = s.objs ∧
    (s.setFrame o f).syncMsgs = s.syncMsgs ∧ (s.setFrame o f).wakes = s.wakes ∧ (s.setFrame o f).wds = s.wds ∧
    (s.setFrame o f).cmds = s.cmds ∧ (s.setFrame o f).heldSubs = s.heldSubs ∧ (s.setFrame o f).slots = s.slots ∧
    (s.setFrame o f).bags = s.bags ∧ (s.setFrame o f).upds = s.upds ∧ (s.setFrame o f).defers = s.defers ∧
    (s.setFrame o f).moves = s.moves ∧ (s.setFrame o f).shards = s.shards ∧ (s.setFrame o f).sketch = s.sketch ∧
    (s.setFrame o f).sketchN = s.sketchN ∧ (s.setFrame o f).flashes = s.flashes ∧ (s.setFrame o f).oadds = s.oadds ∧
    (s.setFrame o f).cmem = s.cmem ∧ (s.setFrame o f).clines = s.clines ∧ (s.setFrame o f).plru = s.plru ∧
    (s.setFrame o f).wbacks = s.wbacks ∧ (s.setFrame o f).dets = s.dets ∧ (s.setFrame o f).misses = s.misses ∧
    (s.setFrame o f).bankTrs = s.bankTrs ∧ (s.setFrame o f).marches = s.marches ∧ (s.setFrame o f).cellars = s.cellars ∧
    (s.setFrame o f).pcs = s.pcs ∧ (s.setFrame o f).stkSts = s.stkSts ∧ (s.setFrame o f).tports = s.tports ∧
    (s.setFrame o f).routes = s.routes ∧ (s.setFrame o f).routeN = s.routeN ∧ (s.setFrame o f).percs = s.percs ∧
    (s.setFrame o f).colls = s.colls ∧ (s.setFrame o f).gtc = s.gtc ∧ (s.setFrame o f).modeAt = s.modeAt ∧
    (s.setFrame o f).modeAb = s.modeAb ∧ (s.setFrame o f).thrAt = s.thrAt ∧ (s.setFrame o f).trust = s.trust :=
  by and_intros <;> rfl
@[simp] theorem State.setFrame_reads (o : Node × Node) (f : Frame) :
    (∀ k', (s.setFrame o f).thread k' = s.thread k') ∧
    (∀ k', (s.setFrame o f).core k' = s.core k') ∧
    (∀ k', (s.setFrame o f).entry k' = s.entry k') ∧
    (∀ k', (s.setFrame o f).port k' = s.port k') ∧
    (∀ a' b', (s.setFrame o f).ring a' b' = s.ring a' b') ∧
    (∀ k', (s.setFrame o f).ctx k' = s.ctx k') ∧
    (∀ k', (s.setFrame o f).obj k' = s.obj k') ∧
    (∀ k', (s.setFrame o f).arr k' = s.arr k') ∧
    (∀ j', (s.setFrame o f).job? j' = s.job? j') ∧
    (∀ a' g' i', (s.setFrame o f).fget a' g' i' = s.fget a' g' i') ∧
    (∀ q', (s.setFrame o f).qState q' = s.qState q') :=
  by and_intros <;> intros <;> rfl
@[simp] theorem State.setCellar_frame (k : Nat) (x : CellarSt) :
    (s.setCellar k x).pending = s.pending ∧ (s.setCellar k x).freeCtr = s.freeCtr ∧ (s.setCellar k x).regs = s.regs ∧
    (s.setCellar k x).mem = s.mem ∧ (s.setCellar k x).host = s.host ∧ (s.setCellar k x).clk = s.clk ∧
    (s.setCellar k x).fabric = s.fabric ∧ (s.setCellar k x).ports = s.ports ∧ (s.setCellar k x).rings = s.rings ∧
    (s.setCellar k x).hostReads = s.hostReads ∧ (s.setCellar k x).jobs = s.jobs ∧ (s.setCellar k x).threads = s.threads ∧
    (s.setCellar k x).cores = s.cores ∧ (s.setCellar k x).tasks = s.tasks ∧ (s.setCellar k x).scheds = s.scheds ∧
    (s.setCellar k x).spawns = s.spawns ∧ (s.setCellar k x).flagMsgs = s.flagMsgs ∧ (s.setCellar k x).err = s.err ∧
    (s.setCellar k x).pow = s.pow ∧ (s.setCellar k x).arrs = s.arrs ∧ (s.setCellar k x).vecs = s.vecs ∧
    (s.setCellar k x).digNew = s.digNew ∧ (s.setCellar k x).ctxs = s.ctxs ∧ (s.setCellar k x).hops = s.hops ∧
    (s.setCellar k x).objs = s.objs ∧ (s.setCellar k x).syncMsgs = s.syncMsgs ∧ (s.setCellar k x).wakes = s.wakes ∧
    (s.setCellar k x).wds = s.wds ∧ (s.setCellar k x).cmds = s.cmds ∧ (s.setCellar k x).heldSubs = s.heldSubs ∧
    (s.setCellar k x).slots = s.slots ∧ (s.setCellar k x).bags = s.bags ∧ (s.setCellar k x).upds = s.upds ∧
    (s.setCellar k x).defers = s.defers ∧ (s.setCellar k x).moves = s.moves ∧ (s.setCellar k x).shards = s.shards ∧
    (s.setCellar k x).sketch = s.sketch ∧ (s.setCellar k x).sketchN = s.sketchN ∧ (s.setCellar k x).flashes = s.flashes ∧
    (s.setCellar k x).oadds = s.oadds ∧ (s.setCellar k x).cmem = s.cmem ∧ (s.setCellar k x).clines = s.clines ∧
    (s.setCellar k x).plru = s.plru ∧ (s.setCellar k x).wbacks = s.wbacks ∧ (s.setCellar k x).dets = s.dets ∧
    (s.setCellar k x).misses = s.misses ∧ (s.setCellar k x).bankTrs = s.bankTrs ∧ (s.setCellar k x).marches = s.marches ∧
    (s.setCellar k x).pcs = s.pcs ∧ (s.setCellar k x).stkSts = s.stkSts ∧ (s.setCellar k x).tports = s.tports ∧
    (s.setCellar k x).routes = s.routes ∧ (s.setCellar k x).routeN = s.routeN ∧ (s.setCellar k x).percs = s.percs ∧
    (s.setCellar k x).colls = s.colls ∧ (s.setCellar k x).gtc = s.gtc ∧ (s.setCellar k x).modeAt = s.modeAt ∧
    (s.setCellar k x).modeAb = s.modeAb ∧ (s.setCellar k x).thrAt = s.thrAt ∧ (s.setCellar k x).trust = s.trust :=
  by and_intros <;> rfl
@[simp] theorem State.setCellar_reads (k : Nat) (x : CellarSt) :
    (∀ k', (s.setCellar k x).thread k' = s.thread k') ∧
    (∀ k', (s.setCellar k x).core k' = s.core k') ∧
    (∀ k', (s.setCellar k x).entry k' = s.entry k') ∧
    (∀ k', (s.setCellar k x).port k' = s.port k') ∧
    (∀ a' b', (s.setCellar k x).ring a' b' = s.ring a' b') ∧
    (∀ k', (s.setCellar k x).ctx k' = s.ctx k') ∧
    (∀ k', (s.setCellar k x).obj k' = s.obj k') ∧
    (∀ k', (s.setCellar k x).arr k' = s.arr k') ∧
    (∀ j', (s.setCellar k x).job? j' = s.job? j') ∧
    (∀ a' g' i', (s.setCellar k x).fget a' g' i' = s.fget a' g' i') ∧
    (∀ q', (s.setCellar k x).qState q' = s.qState q') :=
  by and_intros <;> intros <;> rfl
@[simp] theorem State.cellarSt_setCellar (k : Nat) (x : CellarSt) (j : Nat) : (s.setCellar k x).cellarSt j = if j = k then x else s.cellarSt j := by
  simp [State.cellarSt, State.setCellar, Sparse.get_put]
@[simp] theorem State.setBankTr_frame (q b : Nat) (x : Option BankTr) :
    (s.setBankTr q b x).pending = s.pending ∧ (s.setBankTr q b x).freeCtr = s.freeCtr ∧ (s.setBankTr q b x).regs = s.regs ∧
    (s.setBankTr q b x).mem = s.mem ∧ (s.setBankTr q b x).host = s.host ∧ (s.setBankTr q b x).clk = s.clk ∧
    (s.setBankTr q b x).fabric = s.fabric ∧ (s.setBankTr q b x).ports = s.ports ∧ (s.setBankTr q b x).rings = s.rings ∧
    (s.setBankTr q b x).hostReads = s.hostReads ∧ (s.setBankTr q b x).jobs = s.jobs ∧
    (s.setBankTr q b x).threads = s.threads ∧ (s.setBankTr q b x).cores = s.cores ∧ (s.setBankTr q b x).tasks = s.tasks ∧
    (s.setBankTr q b x).scheds = s.scheds ∧ (s.setBankTr q b x).spawns = s.spawns ∧
    (s.setBankTr q b x).flagMsgs = s.flagMsgs ∧ (s.setBankTr q b x).err = s.err ∧ (s.setBankTr q b x).pow = s.pow ∧
    (s.setBankTr q b x).arrs = s.arrs ∧ (s.setBankTr q b x).vecs = s.vecs ∧ (s.setBankTr q b x).digNew = s.digNew ∧
    (s.setBankTr q b x).ctxs = s.ctxs ∧ (s.setBankTr q b x).hops = s.hops ∧ (s.setBankTr q b x).objs = s.objs ∧
    (s.setBankTr q b x).syncMsgs = s.syncMsgs ∧ (s.setBankTr q b x).wakes = s.wakes ∧ (s.setBankTr q b x).wds = s.wds ∧
    (s.setBankTr q b x).cmds = s.cmds ∧ (s.setBankTr q b x).heldSubs = s.heldSubs ∧ (s.setBankTr q b x).slots = s.slots ∧
    (s.setBankTr q b x).bags = s.bags ∧ (s.setBankTr q b x).upds = s.upds ∧ (s.setBankTr q b x).defers = s.defers ∧
    (s.setBankTr q b x).moves = s.moves ∧ (s.setBankTr q b x).shards = s.shards ∧ (s.setBankTr q b x).sketch = s.sketch ∧
    (s.setBankTr q b x).sketchN = s.sketchN ∧ (s.setBankTr q b x).flashes = s.flashes ∧
    (s.setBankTr q b x).oadds = s.oadds ∧ (s.setBankTr q b x).cmem = s.cmem ∧ (s.setBankTr q b x).clines = s.clines ∧
    (s.setBankTr q b x).plru = s.plru ∧ (s.setBankTr q b x).wbacks = s.wbacks ∧ (s.setBankTr q b x).dets = s.dets ∧
    (s.setBankTr q b x).misses = s.misses ∧ (s.setBankTr q b x).marches = s.marches ∧
    (s.setBankTr q b x).cellars = s.cellars ∧ (s.setBankTr q b x).pcs = s.pcs ∧ (s.setBankTr q b x).stkSts = s.stkSts ∧
    (s.setBankTr q b x).tports = s.tports ∧ (s.setBankTr q b x).routes = s.routes ∧ (s.setBankTr q b x).routeN = s.routeN ∧
    (s.setBankTr q b x).percs = s.percs ∧ (s.setBankTr q b x).colls = s.colls ∧ (s.setBankTr q b x).gtc = s.gtc ∧
    (s.setBankTr q b x).modeAt = s.modeAt ∧ (s.setBankTr q b x).modeAb = s.modeAb ∧ (s.setBankTr q b x).thrAt = s.thrAt ∧
    (s.setBankTr q b x).trust = s.trust :=
  by and_intros <;> rfl
@[simp] theorem State.setBankTr_reads (q b : Nat) (x : Option BankTr) :
    (∀ k', (s.setBankTr q b x).thread k' = s.thread k') ∧
    (∀ k', (s.setBankTr q b x).core k' = s.core k') ∧
    (∀ k', (s.setBankTr q b x).entry k' = s.entry k') ∧
    (∀ k', (s.setBankTr q b x).port k' = s.port k') ∧
    (∀ a' b', (s.setBankTr q b x).ring a' b' = s.ring a' b') ∧
    (∀ k', (s.setBankTr q b x).ctx k' = s.ctx k') ∧
    (∀ k', (s.setBankTr q b x).obj k' = s.obj k') ∧
    (∀ k', (s.setBankTr q b x).arr k' = s.arr k') ∧
    (∀ j', (s.setBankTr q b x).job? j' = s.job? j') ∧
    (∀ a' g' i', (s.setBankTr q b x).fget a' g' i' = s.fget a' g' i') ∧
    (∀ q', (s.setBankTr q b x).qState q' = s.qState q') :=
  by and_intros <;> intros <;> rfl
@[simp] theorem State.setColl_frame (k : Nat) (x : Coll) :
    (s.setColl k x).pending = s.pending ∧ (s.setColl k x).freeCtr = s.freeCtr ∧ (s.setColl k x).regs = s.regs ∧
    (s.setColl k x).mem = s.mem ∧ (s.setColl k x).host = s.host ∧ (s.setColl k x).clk = s.clk ∧
    (s.setColl k x).fabric = s.fabric ∧ (s.setColl k x).ports = s.ports ∧ (s.setColl k x).rings = s.rings ∧
    (s.setColl k x).hostReads = s.hostReads ∧ (s.setColl k x).jobs = s.jobs ∧ (s.setColl k x).threads = s.threads ∧
    (s.setColl k x).cores = s.cores ∧ (s.setColl k x).tasks = s.tasks ∧ (s.setColl k x).scheds = s.scheds ∧
    (s.setColl k x).spawns = s.spawns ∧ (s.setColl k x).flagMsgs = s.flagMsgs ∧ (s.setColl k x).err = s.err ∧
    (s.setColl k x).pow = s.pow ∧ (s.setColl k x).arrs = s.arrs ∧ (s.setColl k x).vecs = s.vecs ∧
    (s.setColl k x).digNew = s.digNew ∧ (s.setColl k x).ctxs = s.ctxs ∧ (s.setColl k x).hops = s.hops ∧
    (s.setColl k x).objs = s.objs ∧ (s.setColl k x).syncMsgs = s.syncMsgs ∧ (s.setColl k x).wakes = s.wakes ∧
    (s.setColl k x).wds = s.wds ∧ (s.setColl k x).cmds = s.cmds ∧ (s.setColl k x).heldSubs = s.heldSubs ∧
    (s.setColl k x).slots = s.slots ∧ (s.setColl k x).bags = s.bags ∧ (s.setColl k x).upds = s.upds ∧
    (s.setColl k x).defers = s.defers ∧ (s.setColl k x).moves = s.moves ∧ (s.setColl k x).shards = s.shards ∧
    (s.setColl k x).sketch = s.sketch ∧ (s.setColl k x).sketchN = s.sketchN ∧ (s.setColl k x).flashes = s.flashes ∧
    (s.setColl k x).oadds = s.oadds ∧ (s.setColl k x).cmem = s.cmem ∧ (s.setColl k x).clines = s.clines ∧
    (s.setColl k x).plru = s.plru ∧ (s.setColl k x).wbacks = s.wbacks ∧ (s.setColl k x).dets = s.dets ∧
    (s.setColl k x).misses = s.misses ∧ (s.setColl k x).bankTrs = s.bankTrs ∧ (s.setColl k x).marches = s.marches ∧
    (s.setColl k x).cellars = s.cellars ∧ (s.setColl k x).pcs = s.pcs ∧ (s.setColl k x).stkSts = s.stkSts ∧
    (s.setColl k x).tports = s.tports ∧ (s.setColl k x).routes = s.routes ∧ (s.setColl k x).routeN = s.routeN ∧
    (s.setColl k x).percs = s.percs ∧ (s.setColl k x).gtc = s.gtc ∧ (s.setColl k x).modeAt = s.modeAt ∧
    (s.setColl k x).modeAb = s.modeAb ∧ (s.setColl k x).thrAt = s.thrAt ∧ (s.setColl k x).trust = s.trust :=
  by and_intros <;> rfl
@[simp] theorem State.setColl_reads (k : Nat) (x : Coll) :
    (∀ k', (s.setColl k x).thread k' = s.thread k') ∧
    (∀ k', (s.setColl k x).core k' = s.core k') ∧
    (∀ k', (s.setColl k x).entry k' = s.entry k') ∧
    (∀ k', (s.setColl k x).port k' = s.port k') ∧
    (∀ a' b', (s.setColl k x).ring a' b' = s.ring a' b') ∧
    (∀ k', (s.setColl k x).ctx k' = s.ctx k') ∧
    (∀ k', (s.setColl k x).obj k' = s.obj k') ∧
    (∀ k', (s.setColl k x).arr k' = s.arr k') ∧
    (∀ j', (s.setColl k x).job? j' = s.job? j') ∧
    (∀ a' g' i', (s.setColl k x).fget a' g' i' = s.fget a' g' i') ∧
    (∀ q', (s.setColl k x).qState q' = s.qState q') :=
  by and_intros <;> intros <;> rfl
@[simp] theorem State.coll_setColl (k : Nat) (x : Coll) (j : Nat) : (s.setColl k x).coll j = if j = k then x else s.coll j := by
  simp [State.coll, State.setColl, Sparse.get_put]
@[simp] theorem State.setFlash_frame (k : Nat) (x : Flash) :
    (s.setFlash k x).pending = s.pending ∧ (s.setFlash k x).freeCtr = s.freeCtr ∧ (s.setFlash k x).regs = s.regs ∧
    (s.setFlash k x).mem = s.mem ∧ (s.setFlash k x).host = s.host ∧ (s.setFlash k x).clk = s.clk ∧
    (s.setFlash k x).fabric = s.fabric ∧ (s.setFlash k x).ports = s.ports ∧ (s.setFlash k x).rings = s.rings ∧
    (s.setFlash k x).hostReads = s.hostReads ∧ (s.setFlash k x).jobs = s.jobs ∧ (s.setFlash k x).threads = s.threads ∧
    (s.setFlash k x).cores = s.cores ∧ (s.setFlash k x).tasks = s.tasks ∧ (s.setFlash k x).scheds = s.scheds ∧
    (s.setFlash k x).spawns = s.spawns ∧ (s.setFlash k x).flagMsgs = s.flagMsgs ∧ (s.setFlash k x).err = s.err ∧
    (s.setFlash k x).pow = s.pow ∧ (s.setFlash k x).arrs = s.arrs ∧ (s.setFlash k x).vecs = s.vecs ∧
    (s.setFlash k x).digNew = s.digNew ∧ (s.setFlash k x).ctxs = s.ctxs ∧ (s.setFlash k x).hops = s.hops ∧
    (s.setFlash k x).objs = s.objs ∧ (s.setFlash k x).syncMsgs = s.syncMsgs ∧ (s.setFlash k x).wakes = s.wakes ∧
    (s.setFlash k x).wds = s.wds ∧ (s.setFlash k x).cmds = s.cmds ∧ (s.setFlash k x).heldSubs = s.heldSubs ∧
    (s.setFlash k x).slots = s.slots ∧ (s.setFlash k x).bags = s.bags ∧ (s.setFlash k x).upds = s.upds ∧
    (s.setFlash k x).defers = s.defers ∧ (s.setFlash k x).moves = s.moves ∧ (s.setFlash k x).shards = s.shards ∧
    (s.setFlash k x).sketch = s.sketch ∧ (s.setFlash k x).sketchN = s.sketchN ∧ (s.setFlash k x).oadds = s.oadds ∧
    (s.setFlash k x).cmem = s.cmem ∧ (s.setFlash k x).clines = s.clines ∧ (s.setFlash k x).plru = s.plru ∧
    (s.setFlash k x).wbacks = s.wbacks ∧ (s.setFlash k x).dets = s.dets ∧ (s.setFlash k x).misses = s.misses ∧
    (s.setFlash k x).bankTrs = s.bankTrs ∧ (s.setFlash k x).marches = s.marches ∧ (s.setFlash k x).cellars = s.cellars ∧
    (s.setFlash k x).pcs = s.pcs ∧ (s.setFlash k x).stkSts = s.stkSts ∧ (s.setFlash k x).tports = s.tports ∧
    (s.setFlash k x).routes = s.routes ∧ (s.setFlash k x).routeN = s.routeN ∧ (s.setFlash k x).percs = s.percs ∧
    (s.setFlash k x).colls = s.colls ∧ (s.setFlash k x).gtc = s.gtc ∧ (s.setFlash k x).modeAt = s.modeAt ∧
    (s.setFlash k x).modeAb = s.modeAb ∧ (s.setFlash k x).thrAt = s.thrAt ∧ (s.setFlash k x).trust = s.trust :=
  by and_intros <;> rfl
@[simp] theorem State.setFlash_reads (k : Nat) (x : Flash) :
    (∀ k', (s.setFlash k x).thread k' = s.thread k') ∧
    (∀ k', (s.setFlash k x).core k' = s.core k') ∧
    (∀ k', (s.setFlash k x).entry k' = s.entry k') ∧
    (∀ k', (s.setFlash k x).port k' = s.port k') ∧
    (∀ a' b', (s.setFlash k x).ring a' b' = s.ring a' b') ∧
    (∀ k', (s.setFlash k x).ctx k' = s.ctx k') ∧
    (∀ k', (s.setFlash k x).obj k' = s.obj k') ∧
    (∀ k', (s.setFlash k x).arr k' = s.arr k') ∧
    (∀ j', (s.setFlash k x).job? j' = s.job? j') ∧
    (∀ a' g' i', (s.setFlash k x).fget a' g' i' = s.fget a' g' i') ∧
    (∀ q', (s.setFlash k x).qState q' = s.qState q') :=
  by and_intros <;> intros <;> rfl
@[simp] theorem State.flash_setFlash (k : Nat) (x : Flash) (j : Nat) : (s.setFlash k x).flash j = if j = k then x else s.flash j := by
  simp [State.flash, State.setFlash, Sparse.get_put]
@[simp] theorem State.setBag_frame (x : Bag) :
    (s.setBag x).pending = s.pending ∧ (s.setBag x).freeCtr = s.freeCtr ∧ (s.setBag x).regs = s.regs ∧
    (s.setBag x).mem = s.mem ∧ (s.setBag x).host = s.host ∧ (s.setBag x).clk = s.clk ∧ (s.setBag x).fabric = s.fabric ∧
    (s.setBag x).ports = s.ports ∧ (s.setBag x).rings = s.rings ∧ (s.setBag x).hostReads = s.hostReads ∧
    (s.setBag x).jobs = s.jobs ∧ (s.setBag x).threads = s.threads ∧ (s.setBag x).cores = s.cores ∧
    (s.setBag x).tasks = s.tasks ∧ (s.setBag x).scheds = s.scheds ∧ (s.setBag x).spawns = s.spawns ∧
    (s.setBag x).flagMsgs = s.flagMsgs ∧ (s.setBag x).err = s.err ∧ (s.setBag x).pow = s.pow ∧ (s.setBag x).arrs = s.arrs ∧
    (s.setBag x).vecs = s.vecs ∧ (s.setBag x).digNew = s.digNew ∧ (s.setBag x).ctxs = s.ctxs ∧ (s.setBag x).hops = s.hops ∧
    (s.setBag x).objs = s.objs ∧ (s.setBag x).syncMsgs = s.syncMsgs ∧ (s.setBag x).wakes = s.wakes ∧
    (s.setBag x).wds = s.wds ∧ (s.setBag x).cmds = s.cmds ∧ (s.setBag x).heldSubs = s.heldSubs ∧
    (s.setBag x).slots = s.slots ∧ (s.setBag x).upds = s.upds ∧ (s.setBag x).defers = s.defers ∧
    (s.setBag x).moves = s.moves ∧ (s.setBag x).shards = s.shards ∧ (s.setBag x).sketch = s.sketch ∧
    (s.setBag x).sketchN = s.sketchN ∧ (s.setBag x).flashes = s.flashes ∧ (s.setBag x).oadds = s.oadds ∧
    (s.setBag x).cmem = s.cmem ∧ (s.setBag x).clines = s.clines ∧ (s.setBag x).plru = s.plru ∧
    (s.setBag x).wbacks = s.wbacks ∧ (s.setBag x).dets = s.dets ∧ (s.setBag x).misses = s.misses ∧
    (s.setBag x).bankTrs = s.bankTrs ∧ (s.setBag x).marches = s.marches ∧ (s.setBag x).cellars = s.cellars ∧
    (s.setBag x).pcs = s.pcs ∧ (s.setBag x).stkSts = s.stkSts ∧ (s.setBag x).tports = s.tports ∧
    (s.setBag x).routes = s.routes ∧ (s.setBag x).routeN = s.routeN ∧ (s.setBag x).percs = s.percs ∧
    (s.setBag x).colls = s.colls ∧ (s.setBag x).gtc = s.gtc ∧ (s.setBag x).modeAt = s.modeAt ∧
    (s.setBag x).modeAb = s.modeAb ∧ (s.setBag x).thrAt = s.thrAt ∧ (s.setBag x).trust = s.trust :=
  by and_intros <;> rfl
@[simp] theorem State.setBag_reads (x : Bag) :
    (∀ k', (s.setBag x).thread k' = s.thread k') ∧
    (∀ k', (s.setBag x).core k' = s.core k') ∧
    (∀ k', (s.setBag x).entry k' = s.entry k') ∧
    (∀ k', (s.setBag x).port k' = s.port k') ∧
    (∀ a' b', (s.setBag x).ring a' b' = s.ring a' b') ∧
    (∀ k', (s.setBag x).ctx k' = s.ctx k') ∧
    (∀ k', (s.setBag x).obj k' = s.obj k') ∧
    (∀ k', (s.setBag x).arr k' = s.arr k') ∧
    (∀ j', (s.setBag x).job? j' = s.job? j') ∧
    (∀ a' g' i', (s.setBag x).fget a' g' i' = s.fget a' g' i') ∧
    (∀ q', (s.setBag x).qState q' = s.qState q') :=
  by and_intros <;> intros <;> rfl
@[simp] theorem State.setStack_frame (k : Nat) (x : StackSt) :
    (s.setStack k x).pending = s.pending ∧ (s.setStack k x).freeCtr = s.freeCtr ∧ (s.setStack k x).regs = s.regs ∧
    (s.setStack k x).mem = s.mem ∧ (s.setStack k x).host = s.host ∧ (s.setStack k x).clk = s.clk ∧
    (s.setStack k x).fabric = s.fabric ∧ (s.setStack k x).ports = s.ports ∧ (s.setStack k x).rings = s.rings ∧
    (s.setStack k x).hostReads = s.hostReads ∧ (s.setStack k x).jobs = s.jobs ∧ (s.setStack k x).threads = s.threads ∧
    (s.setStack k x).cores = s.cores ∧ (s.setStack k x).tasks = s.tasks ∧ (s.setStack k x).scheds = s.scheds ∧
    (s.setStack k x).spawns = s.spawns ∧ (s.setStack k x).flagMsgs = s.flagMsgs ∧ (s.setStack k x).err = s.err ∧
    (s.setStack k x).pow = s.pow ∧ (s.setStack k x).arrs = s.arrs ∧ (s.setStack k x).vecs = s.vecs ∧
    (s.setStack k x).digNew = s.digNew ∧ (s.setStack k x).ctxs = s.ctxs ∧ (s.setStack k x).hops = s.hops ∧
    (s.setStack k x).objs = s.objs ∧ (s.setStack k x).syncMsgs = s.syncMsgs ∧ (s.setStack k x).wakes = s.wakes ∧
    (s.setStack k x).wds = s.wds ∧ (s.setStack k x).cmds = s.cmds ∧ (s.setStack k x).heldSubs = s.heldSubs ∧
    (s.setStack k x).slots = s.slots ∧ (s.setStack k x).bags = s.bags ∧ (s.setStack k x).upds = s.upds ∧
    (s.setStack k x).defers = s.defers ∧ (s.setStack k x).moves = s.moves ∧ (s.setStack k x).shards = s.shards ∧
    (s.setStack k x).sketch = s.sketch ∧ (s.setStack k x).sketchN = s.sketchN ∧ (s.setStack k x).flashes = s.flashes ∧
    (s.setStack k x).oadds = s.oadds ∧ (s.setStack k x).cmem = s.cmem ∧ (s.setStack k x).clines = s.clines ∧
    (s.setStack k x).plru = s.plru ∧ (s.setStack k x).wbacks = s.wbacks ∧ (s.setStack k x).dets = s.dets ∧
    (s.setStack k x).misses = s.misses ∧ (s.setStack k x).bankTrs = s.bankTrs ∧ (s.setStack k x).marches = s.marches ∧
    (s.setStack k x).cellars = s.cellars ∧ (s.setStack k x).pcs = s.pcs ∧ (s.setStack k x).tports = s.tports ∧
    (s.setStack k x).routes = s.routes ∧ (s.setStack k x).routeN = s.routeN ∧ (s.setStack k x).percs = s.percs ∧
    (s.setStack k x).colls = s.colls ∧ (s.setStack k x).gtc = s.gtc ∧ (s.setStack k x).modeAt = s.modeAt ∧
    (s.setStack k x).modeAb = s.modeAb ∧ (s.setStack k x).thrAt = s.thrAt ∧ (s.setStack k x).trust = s.trust :=
  by and_intros <;> rfl
@[simp] theorem State.setStack_reads (k : Nat) (x : StackSt) :
    (∀ k', (s.setStack k x).thread k' = s.thread k') ∧
    (∀ k', (s.setStack k x).core k' = s.core k') ∧
    (∀ k', (s.setStack k x).entry k' = s.entry k') ∧
    (∀ k', (s.setStack k x).port k' = s.port k') ∧
    (∀ a' b', (s.setStack k x).ring a' b' = s.ring a' b') ∧
    (∀ k', (s.setStack k x).ctx k' = s.ctx k') ∧
    (∀ k', (s.setStack k x).obj k' = s.obj k') ∧
    (∀ k', (s.setStack k x).arr k' = s.arr k') ∧
    (∀ j', (s.setStack k x).job? j' = s.job? j') ∧
    (∀ a' g' i', (s.setStack k x).fget a' g' i' = s.fget a' g' i') ∧
    (∀ q', (s.setStack k x).qState q' = s.qState q') :=
  by and_intros <;> intros <;> rfl
@[simp] theorem State.stackSt_setStack (k : Nat) (x : StackSt) (j : Nat) : (s.setStack k x).stackSt j = if j = k then x else s.stackSt j := by
  simp [State.stackSt, State.setStack, Sparse.get_put]
@[simp] theorem State.setWay_frame (a w : Nat) (x : CLine) :
    (s.setWay a w x).pending = s.pending ∧ (s.setWay a w x).freeCtr = s.freeCtr ∧ (s.setWay a w x).regs = s.regs ∧
    (s.setWay a w x).mem = s.mem ∧ (s.setWay a w x).host = s.host ∧ (s.setWay a w x).clk = s.clk ∧
    (s.setWay a w x).fabric = s.fabric ∧ (s.setWay a w x).ports = s.ports ∧ (s.setWay a w x).rings = s.rings ∧
    (s.setWay a w x).hostReads = s.hostReads ∧ (s.setWay a w x).jobs = s.jobs ∧ (s.setWay a w x).threads = s.threads ∧
    (s.setWay a w x).cores = s.cores ∧ (s.setWay a w x).tasks = s.tasks ∧ (s.setWay a w x).scheds = s.scheds ∧
    (s.setWay a w x).spawns = s.spawns ∧ (s.setWay a w x).flagMsgs = s.flagMsgs ∧ (s.setWay a w x).err = s.err ∧
    (s.setWay a w x).pow = s.pow ∧ (s.setWay a w x).arrs = s.arrs ∧ (s.setWay a w x).vecs = s.vecs ∧
    (s.setWay a w x).digNew = s.digNew ∧ (s.setWay a w x).ctxs = s.ctxs ∧ (s.setWay a w x).hops = s.hops ∧
    (s.setWay a w x).objs = s.objs ∧ (s.setWay a w x).syncMsgs = s.syncMsgs ∧ (s.setWay a w x).wakes = s.wakes ∧
    (s.setWay a w x).wds = s.wds ∧ (s.setWay a w x).cmds = s.cmds ∧ (s.setWay a w x).heldSubs = s.heldSubs ∧
    (s.setWay a w x).slots = s.slots ∧ (s.setWay a w x).bags = s.bags ∧ (s.setWay a w x).upds = s.upds ∧
    (s.setWay a w x).defers = s.defers ∧ (s.setWay a w x).moves = s.moves ∧ (s.setWay a w x).shards = s.shards ∧
    (s.setWay a w x).sketch = s.sketch ∧ (s.setWay a w x).sketchN = s.sketchN ∧ (s.setWay a w x).flashes = s.flashes ∧
    (s.setWay a w x).oadds = s.oadds ∧ (s.setWay a w x).cmem = s.cmem ∧ (s.setWay a w x).plru = s.plru ∧
    (s.setWay a w x).wbacks = s.wbacks ∧ (s.setWay a w x).dets = s.dets ∧ (s.setWay a w x).misses = s.misses ∧
    (s.setWay a w x).bankTrs = s.bankTrs ∧ (s.setWay a w x).marches = s.marches ∧ (s.setWay a w x).cellars = s.cellars ∧
    (s.setWay a w x).pcs = s.pcs ∧ (s.setWay a w x).stkSts = s.stkSts ∧ (s.setWay a w x).tports = s.tports ∧
    (s.setWay a w x).routes = s.routes ∧ (s.setWay a w x).routeN = s.routeN ∧ (s.setWay a w x).percs = s.percs ∧
    (s.setWay a w x).colls = s.colls ∧ (s.setWay a w x).gtc = s.gtc ∧ (s.setWay a w x).modeAt = s.modeAt ∧
    (s.setWay a w x).modeAb = s.modeAb ∧ (s.setWay a w x).thrAt = s.thrAt ∧ (s.setWay a w x).trust = s.trust :=
  by and_intros <;> rfl
@[simp] theorem State.setWay_reads (a w : Nat) (x : CLine) :
    (∀ k', (s.setWay a w x).thread k' = s.thread k') ∧
    (∀ k', (s.setWay a w x).core k' = s.core k') ∧
    (∀ k', (s.setWay a w x).entry k' = s.entry k') ∧
    (∀ k', (s.setWay a w x).port k' = s.port k') ∧
    (∀ a' b', (s.setWay a w x).ring a' b' = s.ring a' b') ∧
    (∀ k', (s.setWay a w x).ctx k' = s.ctx k') ∧
    (∀ k', (s.setWay a w x).obj k' = s.obj k') ∧
    (∀ k', (s.setWay a w x).arr k' = s.arr k') ∧
    (∀ j', (s.setWay a w x).job? j' = s.job? j') ∧
    (∀ a' g' i', (s.setWay a w x).fget a' g' i' = s.fget a' g' i') ∧
    (∀ q', (s.setWay a w x).qState q' = s.qState q') :=
  by and_intros <;> intros <;> rfl
@[simp] theorem State.setDet_frame (q : Nat) (x : Det) :
    (s.setDet q x).pending = s.pending ∧ (s.setDet q x).freeCtr = s.freeCtr ∧ (s.setDet q x).regs = s.regs ∧
    (s.setDet q x).mem = s.mem ∧ (s.setDet q x).host = s.host ∧ (s.setDet q x).clk = s.clk ∧
    (s.setDet q x).fabric = s.fabric ∧ (s.setDet q x).ports = s.ports ∧ (s.setDet q x).rings = s.rings ∧
    (s.setDet q x).hostReads = s.hostReads ∧ (s.setDet q x).jobs = s.jobs ∧ (s.setDet q x).threads = s.threads ∧
    (s.setDet q x).cores = s.cores ∧ (s.setDet q x).tasks = s.tasks ∧ (s.setDet q x).scheds = s.scheds ∧
    (s.setDet q x).spawns = s.spawns ∧ (s.setDet q x).flagMsgs = s.flagMsgs ∧ (s.setDet q x).err = s.err ∧
    (s.setDet q x).pow = s.pow ∧ (s.setDet q x).arrs = s.arrs ∧ (s.setDet q x).vecs = s.vecs ∧
    (s.setDet q x).digNew = s.digNew ∧ (s.setDet q x).ctxs = s.ctxs ∧ (s.setDet q x).hops = s.hops ∧
    (s.setDet q x).objs = s.objs ∧ (s.setDet q x).syncMsgs = s.syncMsgs ∧ (s.setDet q x).wakes = s.wakes ∧
    (s.setDet q x).wds = s.wds ∧ (s.setDet q x).cmds = s.cmds ∧ (s.setDet q x).heldSubs = s.heldSubs ∧
    (s.setDet q x).slots = s.slots ∧ (s.setDet q x).bags = s.bags ∧ (s.setDet q x).upds = s.upds ∧
    (s.setDet q x).defers = s.defers ∧ (s.setDet q x).moves = s.moves ∧ (s.setDet q x).shards = s.shards ∧
    (s.setDet q x).sketch = s.sketch ∧ (s.setDet q x).sketchN = s.sketchN ∧ (s.setDet q x).flashes = s.flashes ∧
    (s.setDet q x).oadds = s.oadds ∧ (s.setDet q x).cmem = s.cmem ∧ (s.setDet q x).clines = s.clines ∧
    (s.setDet q x).plru = s.plru ∧ (s.setDet q x).wbacks = s.wbacks ∧ (s.setDet q x).misses = s.misses ∧
    (s.setDet q x).bankTrs = s.bankTrs ∧ (s.setDet q x).marches = s.marches ∧ (s.setDet q x).cellars = s.cellars ∧
    (s.setDet q x).pcs = s.pcs ∧ (s.setDet q x).stkSts = s.stkSts ∧ (s.setDet q x).tports = s.tports ∧
    (s.setDet q x).routes = s.routes ∧ (s.setDet q x).routeN = s.routeN ∧ (s.setDet q x).percs = s.percs ∧
    (s.setDet q x).colls = s.colls ∧ (s.setDet q x).gtc = s.gtc ∧ (s.setDet q x).modeAt = s.modeAt ∧
    (s.setDet q x).modeAb = s.modeAb ∧ (s.setDet q x).thrAt = s.thrAt ∧ (s.setDet q x).trust = s.trust :=
  by and_intros <;> rfl
@[simp] theorem State.setDet_reads (q : Nat) (x : Det) :
    (∀ k', (s.setDet q x).thread k' = s.thread k') ∧
    (∀ k', (s.setDet q x).core k' = s.core k') ∧
    (∀ k', (s.setDet q x).entry k' = s.entry k') ∧
    (∀ k', (s.setDet q x).port k' = s.port k') ∧
    (∀ a' b', (s.setDet q x).ring a' b' = s.ring a' b') ∧
    (∀ k', (s.setDet q x).ctx k' = s.ctx k') ∧
    (∀ k', (s.setDet q x).obj k' = s.obj k') ∧
    (∀ k', (s.setDet q x).arr k' = s.arr k') ∧
    (∀ j', (s.setDet q x).job? j' = s.job? j') ∧
    (∀ a' g' i', (s.setDet q x).fget a' g' i' = s.fget a' g' i') ∧
    (∀ q', (s.setDet q x).qState q' = s.qState q') :=
  by and_intros <;> intros <;> rfl
@[simp] theorem State.setPerc_frame (k : Nat) (x : Perc) :
    (s.setPerc k x).pending = s.pending ∧ (s.setPerc k x).freeCtr = s.freeCtr ∧ (s.setPerc k x).regs = s.regs ∧
    (s.setPerc k x).mem = s.mem ∧ (s.setPerc k x).host = s.host ∧ (s.setPerc k x).clk = s.clk ∧
    (s.setPerc k x).fabric = s.fabric ∧ (s.setPerc k x).ports = s.ports ∧ (s.setPerc k x).rings = s.rings ∧
    (s.setPerc k x).hostReads = s.hostReads ∧ (s.setPerc k x).jobs = s.jobs ∧ (s.setPerc k x).threads = s.threads ∧
    (s.setPerc k x).cores = s.cores ∧ (s.setPerc k x).tasks = s.tasks ∧ (s.setPerc k x).scheds = s.scheds ∧
    (s.setPerc k x).spawns = s.spawns ∧ (s.setPerc k x).flagMsgs = s.flagMsgs ∧ (s.setPerc k x).err = s.err ∧
    (s.setPerc k x).pow = s.pow ∧ (s.setPerc k x).arrs = s.arrs ∧ (s.setPerc k x).vecs = s.vecs ∧
    (s.setPerc k x).digNew = s.digNew ∧ (s.setPerc k x).ctxs = s.ctxs ∧ (s.setPerc k x).hops = s.hops ∧
    (s.setPerc k x).objs = s.objs ∧ (s.setPerc k x).syncMsgs = s.syncMsgs ∧ (s.setPerc k x).wakes = s.wakes ∧
    (s.setPerc k x).wds = s.wds ∧ (s.setPerc k x).cmds = s.cmds ∧ (s.setPerc k x).heldSubs = s.heldSubs ∧
    (s.setPerc k x).slots = s.slots ∧ (s.setPerc k x).bags = s.bags ∧ (s.setPerc k x).upds = s.upds ∧
    (s.setPerc k x).defers = s.defers ∧ (s.setPerc k x).moves = s.moves ∧ (s.setPerc k x).shards = s.shards ∧
    (s.setPerc k x).sketch = s.sketch ∧ (s.setPerc k x).sketchN = s.sketchN ∧ (s.setPerc k x).flashes = s.flashes ∧
    (s.setPerc k x).oadds = s.oadds ∧ (s.setPerc k x).cmem = s.cmem ∧ (s.setPerc k x).clines = s.clines ∧
    (s.setPerc k x).plru = s.plru ∧ (s.setPerc k x).wbacks = s.wbacks ∧ (s.setPerc k x).dets = s.dets ∧
    (s.setPerc k x).misses = s.misses ∧ (s.setPerc k x).bankTrs = s.bankTrs ∧ (s.setPerc k x).marches = s.marches ∧
    (s.setPerc k x).cellars = s.cellars ∧ (s.setPerc k x).pcs = s.pcs ∧ (s.setPerc k x).stkSts = s.stkSts ∧
    (s.setPerc k x).tports = s.tports ∧ (s.setPerc k x).routes = s.routes ∧ (s.setPerc k x).routeN = s.routeN ∧
    (s.setPerc k x).colls = s.colls ∧ (s.setPerc k x).gtc = s.gtc ∧ (s.setPerc k x).modeAt = s.modeAt ∧
    (s.setPerc k x).modeAb = s.modeAb ∧ (s.setPerc k x).thrAt = s.thrAt ∧ (s.setPerc k x).trust = s.trust :=
  by and_intros <;> rfl
@[simp] theorem State.setPerc_reads (k : Nat) (x : Perc) :
    (∀ k', (s.setPerc k x).thread k' = s.thread k') ∧
    (∀ k', (s.setPerc k x).core k' = s.core k') ∧
    (∀ k', (s.setPerc k x).entry k' = s.entry k') ∧
    (∀ k', (s.setPerc k x).port k' = s.port k') ∧
    (∀ a' b', (s.setPerc k x).ring a' b' = s.ring a' b') ∧
    (∀ k', (s.setPerc k x).ctx k' = s.ctx k') ∧
    (∀ k', (s.setPerc k x).obj k' = s.obj k') ∧
    (∀ k', (s.setPerc k x).arr k' = s.arr k') ∧
    (∀ j', (s.setPerc k x).job? j' = s.job? j') ∧
    (∀ a' g' i', (s.setPerc k x).fget a' g' i' = s.fget a' g' i') ∧
    (∀ q', (s.setPerc k x).qState q' = s.qState q') :=
  by and_intros <;> intros <;> rfl
@[simp] theorem State.perc_setPerc (k : Nat) (x : Perc) (j : Nat) : (s.setPerc k x).perc j = if j = k then x else s.perc j := by
  simp [State.perc, State.setPerc, Sparse.get_put]
@[simp] theorem State.setPow_frame (x : PowSt) :
    (s.setPow x).pending = s.pending ∧ (s.setPow x).freeCtr = s.freeCtr ∧ (s.setPow x).regs = s.regs ∧
    (s.setPow x).mem = s.mem ∧ (s.setPow x).host = s.host ∧ (s.setPow x).clk = s.clk ∧ (s.setPow x).fabric = s.fabric ∧
    (s.setPow x).ports = s.ports ∧ (s.setPow x).rings = s.rings ∧ (s.setPow x).hostReads = s.hostReads ∧
    (s.setPow x).jobs = s.jobs ∧ (s.setPow x).threads = s.threads ∧ (s.setPow x).cores = s.cores ∧
    (s.setPow x).tasks = s.tasks ∧ (s.setPow x).scheds = s.scheds ∧ (s.setPow x).spawns = s.spawns ∧
    (s.setPow x).flagMsgs = s.flagMsgs ∧ (s.setPow x).err = s.err ∧ (s.setPow x).arrs = s.arrs ∧
    (s.setPow x).vecs = s.vecs ∧ (s.setPow x).digNew = s.digNew ∧ (s.setPow x).ctxs = s.ctxs ∧ (s.setPow x).hops = s.hops ∧
    (s.setPow x).objs = s.objs ∧ (s.setPow x).syncMsgs = s.syncMsgs ∧ (s.setPow x).wakes = s.wakes ∧
    (s.setPow x).wds = s.wds ∧ (s.setPow x).cmds = s.cmds ∧ (s.setPow x).heldSubs = s.heldSubs ∧
    (s.setPow x).slots = s.slots ∧ (s.setPow x).bags = s.bags ∧ (s.setPow x).upds = s.upds ∧
    (s.setPow x).defers = s.defers ∧ (s.setPow x).moves = s.moves ∧ (s.setPow x).shards = s.shards ∧
    (s.setPow x).sketch = s.sketch ∧ (s.setPow x).sketchN = s.sketchN ∧ (s.setPow x).flashes = s.flashes ∧
    (s.setPow x).oadds = s.oadds ∧ (s.setPow x).cmem = s.cmem ∧ (s.setPow x).clines = s.clines ∧
    (s.setPow x).plru = s.plru ∧ (s.setPow x).wbacks = s.wbacks ∧ (s.setPow x).dets = s.dets ∧
    (s.setPow x).misses = s.misses ∧ (s.setPow x).bankTrs = s.bankTrs ∧ (s.setPow x).marches = s.marches ∧
    (s.setPow x).cellars = s.cellars ∧ (s.setPow x).pcs = s.pcs ∧ (s.setPow x).stkSts = s.stkSts ∧
    (s.setPow x).tports = s.tports ∧ (s.setPow x).routes = s.routes ∧ (s.setPow x).routeN = s.routeN ∧
    (s.setPow x).percs = s.percs ∧ (s.setPow x).colls = s.colls ∧ (s.setPow x).gtc = s.gtc ∧
    (s.setPow x).modeAt = s.modeAt ∧ (s.setPow x).modeAb = s.modeAb ∧ (s.setPow x).thrAt = s.thrAt ∧
    (s.setPow x).trust = s.trust :=
  by and_intros <;> rfl
@[simp] theorem State.setPow_reads (x : PowSt) :
    (∀ k', (s.setPow x).thread k' = s.thread k') ∧
    (∀ k', (s.setPow x).core k' = s.core k') ∧
    (∀ k', (s.setPow x).entry k' = s.entry k') ∧
    (∀ k', (s.setPow x).port k' = s.port k') ∧
    (∀ a' b', (s.setPow x).ring a' b' = s.ring a' b') ∧
    (∀ k', (s.setPow x).ctx k' = s.ctx k') ∧
    (∀ k', (s.setPow x).obj k' = s.obj k') ∧
    (∀ k', (s.setPow x).arr k' = s.arr k') ∧
    (∀ j', (s.setPow x).job? j' = s.job? j') ∧
    (∀ a' g' i', (s.setPow x).fget a' g' i' = s.fget a' g' i') ∧
    (∀ q', (s.setPow x).qState q' = s.qState q') :=
  by and_intros <;> intros <;> rfl
@[simp] theorem State.setPc_frame (k ch p : Nat) (x : Pc) :
    (s.setPc k ch p x).pending = s.pending ∧ (s.setPc k ch p x).freeCtr = s.freeCtr ∧ (s.setPc k ch p x).regs = s.regs ∧
    (s.setPc k ch p x).mem = s.mem ∧ (s.setPc k ch p x).host = s.host ∧ (s.setPc k ch p x).clk = s.clk ∧
    (s.setPc k ch p x).fabric = s.fabric ∧ (s.setPc k ch p x).ports = s.ports ∧ (s.setPc k ch p x).rings = s.rings ∧
    (s.setPc k ch p x).hostReads = s.hostReads ∧ (s.setPc k ch p x).jobs = s.jobs ∧ (s.setPc k ch p x).threads = s.threads ∧
    (s.setPc k ch p x).cores = s.cores ∧ (s.setPc k ch p x).tasks = s.tasks ∧ (s.setPc k ch p x).scheds = s.scheds ∧
    (s.setPc k ch p x).spawns = s.spawns ∧ (s.setPc k ch p x).flagMsgs = s.flagMsgs ∧ (s.setPc k ch p x).err = s.err ∧
    (s.setPc k ch p x).pow = s.pow ∧ (s.setPc k ch p x).arrs = s.arrs ∧ (s.setPc k ch p x).vecs = s.vecs ∧
    (s.setPc k ch p x).digNew = s.digNew ∧ (s.setPc k ch p x).ctxs = s.ctxs ∧ (s.setPc k ch p x).hops = s.hops ∧
    (s.setPc k ch p x).objs = s.objs ∧ (s.setPc k ch p x).syncMsgs = s.syncMsgs ∧ (s.setPc k ch p x).wakes = s.wakes ∧
    (s.setPc k ch p x).wds = s.wds ∧ (s.setPc k ch p x).cmds = s.cmds ∧ (s.setPc k ch p x).heldSubs = s.heldSubs ∧
    (s.setPc k ch p x).slots = s.slots ∧ (s.setPc k ch p x).bags = s.bags ∧ (s.setPc k ch p x).upds = s.upds ∧
    (s.setPc k ch p x).defers = s.defers ∧ (s.setPc k ch p x).moves = s.moves ∧ (s.setPc k ch p x).shards = s.shards ∧
    (s.setPc k ch p x).sketch = s.sketch ∧ (s.setPc k ch p x).sketchN = s.sketchN ∧ (s.setPc k ch p x).flashes = s.flashes ∧
    (s.setPc k ch p x).oadds = s.oadds ∧ (s.setPc k ch p x).cmem = s.cmem ∧ (s.setPc k ch p x).clines = s.clines ∧
    (s.setPc k ch p x).plru = s.plru ∧ (s.setPc k ch p x).wbacks = s.wbacks ∧ (s.setPc k ch p x).dets = s.dets ∧
    (s.setPc k ch p x).misses = s.misses ∧ (s.setPc k ch p x).bankTrs = s.bankTrs ∧ (s.setPc k ch p x).marches = s.marches ∧
    (s.setPc k ch p x).cellars = s.cellars ∧ (s.setPc k ch p x).stkSts = s.stkSts ∧ (s.setPc k ch p x).tports = s.tports ∧
    (s.setPc k ch p x).routes = s.routes ∧ (s.setPc k ch p x).routeN = s.routeN ∧ (s.setPc k ch p x).percs = s.percs ∧
    (s.setPc k ch p x).colls = s.colls ∧ (s.setPc k ch p x).gtc = s.gtc ∧ (s.setPc k ch p x).modeAt = s.modeAt ∧
    (s.setPc k ch p x).modeAb = s.modeAb ∧ (s.setPc k ch p x).thrAt = s.thrAt ∧ (s.setPc k ch p x).trust = s.trust :=
  by and_intros <;> rfl
@[simp] theorem State.setPc_reads (k ch p : Nat) (x : Pc) :
    (∀ k', (s.setPc k ch p x).thread k' = s.thread k') ∧
    (∀ k', (s.setPc k ch p x).core k' = s.core k') ∧
    (∀ k', (s.setPc k ch p x).entry k' = s.entry k') ∧
    (∀ k', (s.setPc k ch p x).port k' = s.port k') ∧
    (∀ a' b', (s.setPc k ch p x).ring a' b' = s.ring a' b') ∧
    (∀ k', (s.setPc k ch p x).ctx k' = s.ctx k') ∧
    (∀ k', (s.setPc k ch p x).obj k' = s.obj k') ∧
    (∀ k', (s.setPc k ch p x).arr k' = s.arr k') ∧
    (∀ j', (s.setPc k ch p x).job? j' = s.job? j') ∧
    (∀ a' g' i', (s.setPc k ch p x).fget a' g' i' = s.fget a' g' i') ∧
    (∀ q', (s.setPc k ch p x).qState q' = s.qState q') :=
  by and_intros <;> intros <;> rfl
@[simp] theorem State.setHop_frame (h : Hop) (x : HopSt) :
    (s.setHop h x).pending = s.pending ∧ (s.setHop h x).freeCtr = s.freeCtr ∧ (s.setHop h x).regs = s.regs ∧
    (s.setHop h x).mem = s.mem ∧ (s.setHop h x).host = s.host ∧ (s.setHop h x).clk = s.clk ∧
    (s.setHop h x).fabric = s.fabric ∧ (s.setHop h x).ports = s.ports ∧ (s.setHop h x).rings = s.rings ∧
    (s.setHop h x).hostReads = s.hostReads ∧ (s.setHop h x).jobs = s.jobs ∧ (s.setHop h x).threads = s.threads ∧
    (s.setHop h x).cores = s.cores ∧ (s.setHop h x).tasks = s.tasks ∧ (s.setHop h x).scheds = s.scheds ∧
    (s.setHop h x).spawns = s.spawns ∧ (s.setHop h x).flagMsgs = s.flagMsgs ∧ (s.setHop h x).err = s.err ∧
    (s.setHop h x).pow = s.pow ∧ (s.setHop h x).arrs = s.arrs ∧ (s.setHop h x).vecs = s.vecs ∧
    (s.setHop h x).digNew = s.digNew ∧ (s.setHop h x).ctxs = s.ctxs ∧ (s.setHop h x).objs = s.objs ∧
    (s.setHop h x).syncMsgs = s.syncMsgs ∧ (s.setHop h x).wakes = s.wakes ∧ (s.setHop h x).wds = s.wds ∧
    (s.setHop h x).cmds = s.cmds ∧ (s.setHop h x).heldSubs = s.heldSubs ∧ (s.setHop h x).slots = s.slots ∧
    (s.setHop h x).bags = s.bags ∧ (s.setHop h x).upds = s.upds ∧ (s.setHop h x).defers = s.defers ∧
    (s.setHop h x).moves = s.moves ∧ (s.setHop h x).shards = s.shards ∧ (s.setHop h x).sketch = s.sketch ∧
    (s.setHop h x).sketchN = s.sketchN ∧ (s.setHop h x).flashes = s.flashes ∧ (s.setHop h x).oadds = s.oadds ∧
    (s.setHop h x).cmem = s.cmem ∧ (s.setHop h x).clines = s.clines ∧ (s.setHop h x).plru = s.plru ∧
    (s.setHop h x).wbacks = s.wbacks ∧ (s.setHop h x).dets = s.dets ∧ (s.setHop h x).misses = s.misses ∧
    (s.setHop h x).bankTrs = s.bankTrs ∧ (s.setHop h x).marches = s.marches ∧ (s.setHop h x).cellars = s.cellars ∧
    (s.setHop h x).pcs = s.pcs ∧ (s.setHop h x).stkSts = s.stkSts ∧ (s.setHop h x).tports = s.tports ∧
    (s.setHop h x).routes = s.routes ∧ (s.setHop h x).routeN = s.routeN ∧ (s.setHop h x).percs = s.percs ∧
    (s.setHop h x).colls = s.colls ∧ (s.setHop h x).gtc = s.gtc ∧ (s.setHop h x).modeAt = s.modeAt ∧
    (s.setHop h x).modeAb = s.modeAb ∧ (s.setHop h x).thrAt = s.thrAt ∧ (s.setHop h x).trust = s.trust :=
  by and_intros <;> rfl
@[simp] theorem State.setHop_reads (h : Hop) (x : HopSt) :
    (∀ k', (s.setHop h x).thread k' = s.thread k') ∧
    (∀ k', (s.setHop h x).core k' = s.core k') ∧
    (∀ k', (s.setHop h x).entry k' = s.entry k') ∧
    (∀ k', (s.setHop h x).port k' = s.port k') ∧
    (∀ a' b', (s.setHop h x).ring a' b' = s.ring a' b') ∧
    (∀ k', (s.setHop h x).ctx k' = s.ctx k') ∧
    (∀ k', (s.setHop h x).obj k' = s.obj k') ∧
    (∀ k', (s.setHop h x).arr k' = s.arr k') ∧
    (∀ j', (s.setHop h x).job? j' = s.job? j') ∧
    (∀ a' g' i', (s.setHop h x).fget a' g' i' = s.fget a' g' i') ∧
    (∀ q', (s.setHop h x).qState q' = s.qState q') :=
  by and_intros <;> intros <;> rfl
@[simp] theorem State.setTport_frame (k : Nat) (x : TPort) :
    (s.setTport k x).pending = s.pending ∧ (s.setTport k x).freeCtr = s.freeCtr ∧ (s.setTport k x).regs = s.regs ∧
    (s.setTport k x).mem = s.mem ∧ (s.setTport k x).host = s.host ∧ (s.setTport k x).clk = s.clk ∧
    (s.setTport k x).fabric = s.fabric ∧ (s.setTport k x).ports = s.ports ∧ (s.setTport k x).rings = s.rings ∧
    (s.setTport k x).hostReads = s.hostReads ∧ (s.setTport k x).jobs = s.jobs ∧ (s.setTport k x).threads = s.threads ∧
    (s.setTport k x).cores = s.cores ∧ (s.setTport k x).tasks = s.tasks ∧ (s.setTport k x).scheds = s.scheds ∧
    (s.setTport k x).spawns = s.spawns ∧ (s.setTport k x).flagMsgs = s.flagMsgs ∧ (s.setTport k x).err = s.err ∧
    (s.setTport k x).pow = s.pow ∧ (s.setTport k x).arrs = s.arrs ∧ (s.setTport k x).vecs = s.vecs ∧
    (s.setTport k x).digNew = s.digNew ∧ (s.setTport k x).ctxs = s.ctxs ∧ (s.setTport k x).hops = s.hops ∧
    (s.setTport k x).objs = s.objs ∧ (s.setTport k x).syncMsgs = s.syncMsgs ∧ (s.setTport k x).wakes = s.wakes ∧
    (s.setTport k x).wds = s.wds ∧ (s.setTport k x).cmds = s.cmds ∧ (s.setTport k x).heldSubs = s.heldSubs ∧
    (s.setTport k x).slots = s.slots ∧ (s.setTport k x).bags = s.bags ∧ (s.setTport k x).upds = s.upds ∧
    (s.setTport k x).defers = s.defers ∧ (s.setTport k x).moves = s.moves ∧ (s.setTport k x).shards = s.shards ∧
    (s.setTport k x).sketch = s.sketch ∧ (s.setTport k x).sketchN = s.sketchN ∧ (s.setTport k x).flashes = s.flashes ∧
    (s.setTport k x).oadds = s.oadds ∧ (s.setTport k x).cmem = s.cmem ∧ (s.setTport k x).clines = s.clines ∧
    (s.setTport k x).plru = s.plru ∧ (s.setTport k x).wbacks = s.wbacks ∧ (s.setTport k x).dets = s.dets ∧
    (s.setTport k x).misses = s.misses ∧ (s.setTport k x).bankTrs = s.bankTrs ∧ (s.setTport k x).marches = s.marches ∧
    (s.setTport k x).cellars = s.cellars ∧ (s.setTport k x).pcs = s.pcs ∧ (s.setTport k x).stkSts = s.stkSts ∧
    (s.setTport k x).routes = s.routes ∧ (s.setTport k x).routeN = s.routeN ∧ (s.setTport k x).percs = s.percs ∧
    (s.setTport k x).colls = s.colls ∧ (s.setTport k x).gtc = s.gtc ∧ (s.setTport k x).modeAt = s.modeAt ∧
    (s.setTport k x).modeAb = s.modeAb ∧ (s.setTport k x).thrAt = s.thrAt ∧ (s.setTport k x).trust = s.trust :=
  by and_intros <;> rfl
@[simp] theorem State.setTport_reads (k : Nat) (x : TPort) :
    (∀ k', (s.setTport k x).thread k' = s.thread k') ∧
    (∀ k', (s.setTport k x).core k' = s.core k') ∧
    (∀ k', (s.setTport k x).entry k' = s.entry k') ∧
    (∀ k', (s.setTport k x).port k' = s.port k') ∧
    (∀ a' b', (s.setTport k x).ring a' b' = s.ring a' b') ∧
    (∀ k', (s.setTport k x).ctx k' = s.ctx k') ∧
    (∀ k', (s.setTport k x).obj k' = s.obj k') ∧
    (∀ k', (s.setTport k x).arr k' = s.arr k') ∧
    (∀ j', (s.setTport k x).job? j' = s.job? j') ∧
    (∀ a' g' i', (s.setTport k x).fget a' g' i' = s.fget a' g' i') ∧
    (∀ q', (s.setTport k x).qState q' = s.qState q') :=
  by and_intros <;> intros <;> rfl
@[simp] theorem State.tport_setTport (k : Nat) (x : TPort) (j : Nat) : (s.setTport k x).tport j = if j = k then x else s.tport j := by
  simp [State.tport, State.setTport, Sparse.get_put]
@[simp] theorem State.setGtc_frame (x : GtcSt) :
    (s.setGtc x).pending = s.pending ∧ (s.setGtc x).freeCtr = s.freeCtr ∧ (s.setGtc x).regs = s.regs ∧
    (s.setGtc x).mem = s.mem ∧ (s.setGtc x).host = s.host ∧ (s.setGtc x).clk = s.clk ∧ (s.setGtc x).fabric = s.fabric ∧
    (s.setGtc x).ports = s.ports ∧ (s.setGtc x).rings = s.rings ∧ (s.setGtc x).hostReads = s.hostReads ∧
    (s.setGtc x).jobs = s.jobs ∧ (s.setGtc x).threads = s.threads ∧ (s.setGtc x).cores = s.cores ∧
    (s.setGtc x).tasks = s.tasks ∧ (s.setGtc x).scheds = s.scheds ∧ (s.setGtc x).spawns = s.spawns ∧
    (s.setGtc x).flagMsgs = s.flagMsgs ∧ (s.setGtc x).err = s.err ∧ (s.setGtc x).pow = s.pow ∧ (s.setGtc x).arrs = s.arrs ∧
    (s.setGtc x).vecs = s.vecs ∧ (s.setGtc x).digNew = s.digNew ∧ (s.setGtc x).ctxs = s.ctxs ∧ (s.setGtc x).hops = s.hops ∧
    (s.setGtc x).objs = s.objs ∧ (s.setGtc x).syncMsgs = s.syncMsgs ∧ (s.setGtc x).wakes = s.wakes ∧
    (s.setGtc x).wds = s.wds ∧ (s.setGtc x).cmds = s.cmds ∧ (s.setGtc x).heldSubs = s.heldSubs ∧
    (s.setGtc x).slots = s.slots ∧ (s.setGtc x).bags = s.bags ∧ (s.setGtc x).upds = s.upds ∧
    (s.setGtc x).defers = s.defers ∧ (s.setGtc x).moves = s.moves ∧ (s.setGtc x).shards = s.shards ∧
    (s.setGtc x).sketch = s.sketch ∧ (s.setGtc x).sketchN = s.sketchN ∧ (s.setGtc x).flashes = s.flashes ∧
    (s.setGtc x).oadds = s.oadds ∧ (s.setGtc x).cmem = s.cmem ∧ (s.setGtc x).clines = s.clines ∧
    (s.setGtc x).plru = s.plru ∧ (s.setGtc x).wbacks = s.wbacks ∧ (s.setGtc x).dets = s.dets ∧
    (s.setGtc x).misses = s.misses ∧ (s.setGtc x).bankTrs = s.bankTrs ∧ (s.setGtc x).marches = s.marches ∧
    (s.setGtc x).cellars = s.cellars ∧ (s.setGtc x).pcs = s.pcs ∧ (s.setGtc x).stkSts = s.stkSts ∧
    (s.setGtc x).tports = s.tports ∧ (s.setGtc x).routes = s.routes ∧ (s.setGtc x).routeN = s.routeN ∧
    (s.setGtc x).percs = s.percs ∧ (s.setGtc x).colls = s.colls ∧ (s.setGtc x).modeAt = s.modeAt ∧
    (s.setGtc x).modeAb = s.modeAb ∧ (s.setGtc x).thrAt = s.thrAt ∧ (s.setGtc x).trust = s.trust :=
  by and_intros <;> rfl
@[simp] theorem State.setGtc_reads (x : GtcSt) :
    (∀ k', (s.setGtc x).thread k' = s.thread k') ∧
    (∀ k', (s.setGtc x).core k' = s.core k') ∧
    (∀ k', (s.setGtc x).entry k' = s.entry k') ∧
    (∀ k', (s.setGtc x).port k' = s.port k') ∧
    (∀ a' b', (s.setGtc x).ring a' b' = s.ring a' b') ∧
    (∀ k', (s.setGtc x).ctx k' = s.ctx k') ∧
    (∀ k', (s.setGtc x).obj k' = s.obj k') ∧
    (∀ k', (s.setGtc x).arr k' = s.arr k') ∧
    (∀ j', (s.setGtc x).job? j' = s.job? j') ∧
    (∀ a' g' i', (s.setGtc x).fget a' g' i' = s.fget a' g' i') ∧
    (∀ q', (s.setGtc x).qState q' = s.qState q') :=
  by and_intros <;> intros <;> rfl
@[simp] theorem State.setTrust_frame (x : TrustSt) :
    (s.setTrust x).pending = s.pending ∧ (s.setTrust x).freeCtr = s.freeCtr ∧ (s.setTrust x).regs = s.regs ∧
    (s.setTrust x).mem = s.mem ∧ (s.setTrust x).host = s.host ∧ (s.setTrust x).clk = s.clk ∧
    (s.setTrust x).fabric = s.fabric ∧ (s.setTrust x).ports = s.ports ∧ (s.setTrust x).rings = s.rings ∧
    (s.setTrust x).hostReads = s.hostReads ∧ (s.setTrust x).jobs = s.jobs ∧ (s.setTrust x).threads = s.threads ∧
    (s.setTrust x).cores = s.cores ∧ (s.setTrust x).tasks = s.tasks ∧ (s.setTrust x).scheds = s.scheds ∧
    (s.setTrust x).spawns = s.spawns ∧ (s.setTrust x).flagMsgs = s.flagMsgs ∧ (s.setTrust x).err = s.err ∧
    (s.setTrust x).pow = s.pow ∧ (s.setTrust x).arrs = s.arrs ∧ (s.setTrust x).vecs = s.vecs ∧
    (s.setTrust x).digNew = s.digNew ∧ (s.setTrust x).ctxs = s.ctxs ∧ (s.setTrust x).hops = s.hops ∧
    (s.setTrust x).objs = s.objs ∧ (s.setTrust x).syncMsgs = s.syncMsgs ∧ (s.setTrust x).wakes = s.wakes ∧
    (s.setTrust x).wds = s.wds ∧ (s.setTrust x).cmds = s.cmds ∧ (s.setTrust x).heldSubs = s.heldSubs ∧
    (s.setTrust x).slots = s.slots ∧ (s.setTrust x).bags = s.bags ∧ (s.setTrust x).upds = s.upds ∧
    (s.setTrust x).defers = s.defers ∧ (s.setTrust x).moves = s.moves ∧ (s.setTrust x).shards = s.shards ∧
    (s.setTrust x).sketch = s.sketch ∧ (s.setTrust x).sketchN = s.sketchN ∧ (s.setTrust x).flashes = s.flashes ∧
    (s.setTrust x).oadds = s.oadds ∧ (s.setTrust x).cmem = s.cmem ∧ (s.setTrust x).clines = s.clines ∧
    (s.setTrust x).plru = s.plru ∧ (s.setTrust x).wbacks = s.wbacks ∧ (s.setTrust x).dets = s.dets ∧
    (s.setTrust x).misses = s.misses ∧ (s.setTrust x).bankTrs = s.bankTrs ∧ (s.setTrust x).marches = s.marches ∧
    (s.setTrust x).cellars = s.cellars ∧ (s.setTrust x).pcs = s.pcs ∧ (s.setTrust x).stkSts = s.stkSts ∧
    (s.setTrust x).tports = s.tports ∧ (s.setTrust x).routes = s.routes ∧ (s.setTrust x).routeN = s.routeN ∧
    (s.setTrust x).percs = s.percs ∧ (s.setTrust x).colls = s.colls ∧ (s.setTrust x).gtc = s.gtc ∧
    (s.setTrust x).modeAt = s.modeAt ∧ (s.setTrust x).modeAb = s.modeAb ∧ (s.setTrust x).thrAt = s.thrAt :=
  by and_intros <;> rfl
@[simp] theorem State.setTrust_reads (x : TrustSt) :
    (∀ k', (s.setTrust x).thread k' = s.thread k') ∧
    (∀ k', (s.setTrust x).core k' = s.core k') ∧
    (∀ k', (s.setTrust x).entry k' = s.entry k') ∧
    (∀ k', (s.setTrust x).port k' = s.port k') ∧
    (∀ a' b', (s.setTrust x).ring a' b' = s.ring a' b') ∧
    (∀ k', (s.setTrust x).ctx k' = s.ctx k') ∧
    (∀ k', (s.setTrust x).obj k' = s.obj k') ∧
    (∀ k', (s.setTrust x).arr k' = s.arr k') ∧
    (∀ j', (s.setTrust x).job? j' = s.job? j') ∧
    (∀ a' g' i', (s.setTrust x).fget a' g' i' = s.fget a' g' i') ∧
    (∀ q', (s.setTrust x).qState q' = s.qState q') :=
  by and_intros <;> intros <;> rfl
@[simp] theorem State.fset_frame (b : Nat) (f : Fld) (v i : Nat) :
    (s.fset b f v i).pending = s.pending ∧ (s.fset b f v i).freeCtr = s.freeCtr ∧ (s.fset b f v i).mem = s.mem ∧
    (s.fset b f v i).host = s.host ∧ (s.fset b f v i).clk = s.clk ∧ (s.fset b f v i).fabric = s.fabric ∧
    (s.fset b f v i).ports = s.ports ∧ (s.fset b f v i).rings = s.rings ∧ (s.fset b f v i).hostReads = s.hostReads ∧
    (s.fset b f v i).jobs = s.jobs ∧ (s.fset b f v i).threads = s.threads ∧ (s.fset b f v i).cores = s.cores ∧
    (s.fset b f v i).tasks = s.tasks ∧ (s.fset b f v i).scheds = s.scheds ∧ (s.fset b f v i).spawns = s.spawns ∧
    (s.fset b f v i).flagMsgs = s.flagMsgs ∧ (s.fset b f v i).err = s.err ∧ (s.fset b f v i).pow = s.pow ∧
    (s.fset b f v i).arrs = s.arrs ∧ (s.fset b f v i).vecs = s.vecs ∧ (s.fset b f v i).digNew = s.digNew ∧
    (s.fset b f v i).ctxs = s.ctxs ∧ (s.fset b f v i).hops = s.hops ∧ (s.fset b f v i).objs = s.objs ∧
    (s.fset b f v i).syncMsgs = s.syncMsgs ∧ (s.fset b f v i).wakes = s.wakes ∧ (s.fset b f v i).wds = s.wds ∧
    (s.fset b f v i).cmds = s.cmds ∧ (s.fset b f v i).heldSubs = s.heldSubs ∧ (s.fset b f v i).slots = s.slots ∧
    (s.fset b f v i).bags = s.bags ∧ (s.fset b f v i).upds = s.upds ∧ (s.fset b f v i).defers = s.defers ∧
    (s.fset b f v i).moves = s.moves ∧ (s.fset b f v i).shards = s.shards ∧ (s.fset b f v i).sketch = s.sketch ∧
    (s.fset b f v i).sketchN = s.sketchN ∧ (s.fset b f v i).flashes = s.flashes ∧ (s.fset b f v i).oadds = s.oadds ∧
    (s.fset b f v i).cmem = s.cmem ∧ (s.fset b f v i).clines = s.clines ∧ (s.fset b f v i).plru = s.plru ∧
    (s.fset b f v i).wbacks = s.wbacks ∧ (s.fset b f v i).dets = s.dets ∧ (s.fset b f v i).misses = s.misses ∧
    (s.fset b f v i).bankTrs = s.bankTrs ∧ (s.fset b f v i).marches = s.marches ∧ (s.fset b f v i).cellars = s.cellars ∧
    (s.fset b f v i).pcs = s.pcs ∧ (s.fset b f v i).stkSts = s.stkSts ∧ (s.fset b f v i).tports = s.tports ∧
    (s.fset b f v i).routes = s.routes ∧ (s.fset b f v i).routeN = s.routeN ∧ (s.fset b f v i).percs = s.percs ∧
    (s.fset b f v i).colls = s.colls ∧ (s.fset b f v i).gtc = s.gtc ∧ (s.fset b f v i).modeAt = s.modeAt ∧
    (s.fset b f v i).modeAb = s.modeAb ∧ (s.fset b f v i).thrAt = s.thrAt ∧ (s.fset b f v i).trust = s.trust :=
  by and_intros <;> rfl
@[simp] theorem State.fset_reads (b : Nat) (f : Fld) (v i : Nat) :
    (∀ k', (s.fset b f v i).thread k' = s.thread k') ∧
    (∀ k', (s.fset b f v i).core k' = s.core k') ∧
    (∀ k', (s.fset b f v i).entry k' = s.entry k') ∧
    (∀ k', (s.fset b f v i).port k' = s.port k') ∧
    (∀ a' b', (s.fset b f v i).ring a' b' = s.ring a' b') ∧
    (∀ k', (s.fset b f v i).ctx k' = s.ctx k') ∧
    (∀ k', (s.fset b f v i).obj k' = s.obj k') ∧
    (∀ k', (s.fset b f v i).arr k' = s.arr k') ∧
    (∀ j', (s.fset b f v i).job? j' = s.job? j') :=
  by and_intros <;> intros <;> rfl
@[simp] theorem State.bump_frame (b : Nat) (f : Fld) (i n : Nat) :
    (s.bump b f i n).pending = s.pending ∧ (s.bump b f i n).freeCtr = s.freeCtr ∧ (s.bump b f i n).mem = s.mem ∧
    (s.bump b f i n).host = s.host ∧ (s.bump b f i n).clk = s.clk ∧ (s.bump b f i n).fabric = s.fabric ∧
    (s.bump b f i n).ports = s.ports ∧ (s.bump b f i n).rings = s.rings ∧ (s.bump b f i n).hostReads = s.hostReads ∧
    (s.bump b f i n).jobs = s.jobs ∧ (s.bump b f i n).threads = s.threads ∧ (s.bump b f i n).cores = s.cores ∧
    (s.bump b f i n).tasks = s.tasks ∧ (s.bump b f i n).scheds = s.scheds ∧ (s.bump b f i n).spawns = s.spawns ∧
    (s.bump b f i n).flagMsgs = s.flagMsgs ∧ (s.bump b f i n).err = s.err ∧ (s.bump b f i n).pow = s.pow ∧
    (s.bump b f i n).arrs = s.arrs ∧ (s.bump b f i n).vecs = s.vecs ∧ (s.bump b f i n).digNew = s.digNew ∧
    (s.bump b f i n).ctxs = s.ctxs ∧ (s.bump b f i n).hops = s.hops ∧ (s.bump b f i n).objs = s.objs ∧
    (s.bump b f i n).syncMsgs = s.syncMsgs ∧ (s.bump b f i n).wakes = s.wakes ∧ (s.bump b f i n).wds = s.wds ∧
    (s.bump b f i n).cmds = s.cmds ∧ (s.bump b f i n).heldSubs = s.heldSubs ∧ (s.bump b f i n).slots = s.slots ∧
    (s.bump b f i n).bags = s.bags ∧ (s.bump b f i n).upds = s.upds ∧ (s.bump b f i n).defers = s.defers ∧
    (s.bump b f i n).moves = s.moves ∧ (s.bump b f i n).shards = s.shards ∧ (s.bump b f i n).sketch = s.sketch ∧
    (s.bump b f i n).sketchN = s.sketchN ∧ (s.bump b f i n).flashes = s.flashes ∧ (s.bump b f i n).oadds = s.oadds ∧
    (s.bump b f i n).cmem = s.cmem ∧ (s.bump b f i n).clines = s.clines ∧ (s.bump b f i n).plru = s.plru ∧
    (s.bump b f i n).wbacks = s.wbacks ∧ (s.bump b f i n).dets = s.dets ∧ (s.bump b f i n).misses = s.misses ∧
    (s.bump b f i n).bankTrs = s.bankTrs ∧ (s.bump b f i n).marches = s.marches ∧ (s.bump b f i n).cellars = s.cellars ∧
    (s.bump b f i n).pcs = s.pcs ∧ (s.bump b f i n).stkSts = s.stkSts ∧ (s.bump b f i n).tports = s.tports ∧
    (s.bump b f i n).routes = s.routes ∧ (s.bump b f i n).routeN = s.routeN ∧ (s.bump b f i n).percs = s.percs ∧
    (s.bump b f i n).colls = s.colls ∧ (s.bump b f i n).gtc = s.gtc ∧ (s.bump b f i n).modeAt = s.modeAt ∧
    (s.bump b f i n).modeAb = s.modeAb ∧ (s.bump b f i n).thrAt = s.thrAt ∧ (s.bump b f i n).trust = s.trust :=
  by and_intros <;> rfl
@[simp] theorem State.bump_reads (b : Nat) (f : Fld) (i n : Nat) :
    (∀ k', (s.bump b f i n).thread k' = s.thread k') ∧
    (∀ k', (s.bump b f i n).core k' = s.core k') ∧
    (∀ k', (s.bump b f i n).entry k' = s.entry k') ∧
    (∀ k', (s.bump b f i n).port k' = s.port k') ∧
    (∀ a' b', (s.bump b f i n).ring a' b' = s.ring a' b') ∧
    (∀ k', (s.bump b f i n).ctx k' = s.ctx k') ∧
    (∀ k', (s.bump b f i n).obj k' = s.obj k') ∧
    (∀ k', (s.bump b f i n).arr k' = s.arr k') ∧
    (∀ j', (s.bump b f i n).job? j' = s.job? j') :=
  by and_intros <;> intros <;> rfl
@[simp] theorem State.ring_setRing (p r : Nat) (x : Ring) (p' r' : Nat) :
    (s.setRing p r x).ring p' r' = if ringKey p' r' = ringKey p r then x else s.ring p' r' := by
  simp [State.ring, State.setRing, Sparse.get_put]
/-- Reading a field after a write of a field: the value cut to its width where the places agree. -/
theorem State.fget_fset (b : Nat) (f : Fld) (v i b' : Nat) (f' : Fld) (i' : Nat) :
    (s.fset b f v i).fget b' f' i' = if fkey b' f' i' = fkey b f i then
      (if v % 2 ^ f.w = f.rst then f'.rst else v % 2 ^ f.w) else s.fget b' f' i' := by
  simp only [State.fget, State.fset]
  by_cases h : v % 2 ^ f.w = f.rst
  · simp only [Sparse.put, h, if_true, Sparse.get_del]
  · simp only [Sparse.put, h, if_false]
    rw [Sparse.get_ins, Sparse.get_del]
    · split <;> rfl
    · intro e he
      simp [Sparse.del] at he
      exact he.2
@[simp] theorem State.fget_fset_same (b : Nat) (f : Fld) (v i : Nat) : (s.fset b f v i).fget b f i = v % 2 ^ f.w := by
  rw [State.fget_fset]; simp only [if_true]; split <;> simp_all
/-- A counter never passes its largest value. -/
theorem State.fget_bump_same (b : Nat) (f : Fld) (i n : Nat) :
    (s.bump b f i n).fget b f i = min (s.fget b f i + n) (2 ^ f.w - 1) := by
  unfold State.bump
  rw [State.fget_fset_same, Nat.mod_eq_of_lt]
  have : 0 < 2 ^ f.w := Nat.two_pow_pos _
  omega

end Sys2Proof.Machine
end

