-- ==== Sys2Proof/Laws/Threads.lean ====
section
/-! SUPPORT. Laws of a thread's registers and of the issue of one instruction. -/

namespace Sys2Proof.Machine

theorem Thread.setX_zero (th : Thread) (v : Word) : th.setX 0 v = th := by unfold Thread.setX; rw [if_pos rfl]
theorem Thread.setX_ne (th : Thread) (rd : BitVec 5) (v : Word) (h : rd ≠ 0) :
    th.setX rd v = { th with x := th.x.set rd.toNat v } := by unfold Thread.setX; rw [if_neg h]
theorem Thread.setP_zero (th : Thread) (b : Bool) : th.setP 0 b = th := by unfold Thread.setP; rw [if_pos rfl]
theorem Thread.setP_ne (th : Thread) (pd : BitVec 3) (b : Bool) (h : pd ≠ 0) :
    th.setP pd b = { th with p := th.p.set pd.toNat b } := by unfold Thread.setP; rw [if_neg h]
theorem Thread.getX_ne (th : Thread) (r : BitVec 5) (h : r ≠ 0) : th.getX r = th.x[r.toNat] := by
  unfold Thread.getX; rw [if_neg h]
theorem Thread.getP_ne (th : Thread) (p : BitVec 3) (h : p ≠ 0) : th.getP p = th.p[p.toNat] := by
  unfold Thread.getP; rw [if_neg h]
theorem Thread.getX_setX (th : Thread) (rd r : BitVec 5) (v : Word) :
    (th.setX rd v).getX r = if r = rd ∧ rd ≠ 0 then v else th.getX r := by
  by_cases h0 : rd = 0
  · subst h0; rw [Thread.setX_zero, if_neg (fun h => h.2 rfl)]
  · by_cases hz : r = 0
    · subst hz; rw [if_neg (fun h => h0 h.1.symm)]; rfl
    · rw [Thread.setX_ne _ _ _ h0, Thread.getX_ne _ _ hz, Thread.getX_ne _ _ hz]
      by_cases hr : r = rd
      · subst hr; rw [if_pos ⟨rfl, h0⟩]; exact Vector.getElem_set_self _
      · rw [if_neg (fun h => hr h.1)]
        exact Vector.getElem_set_ne (by omega) (by omega) (fun h => hr (BitVec.eq_of_toNat_eq h.symm))
@[simp] theorem Thread.getP_setX (th : Thread) (rd : BitVec 5) (p : BitVec 3) (v : Word) : (th.setX rd v).getP p = th.getP p := by
  by_cases h : rd = 0
  · subst h; rw [Thread.setX_zero]
  · rw [Thread.setX_ne _ _ _ h]; rfl
@[simp] theorem Thread.getX_setP (th : Thread) (pd : BitVec 3) (r : BitVec 5) (b : Bool) : (th.setP pd b).getX r = th.getX r := by
  by_cases h : pd = 0
  · subst h; rw [Thread.setP_zero]
  · rw [Thread.setP_ne _ _ _ h]; rfl
theorem Thread.getP_setP (th : Thread) (pd p : BitVec 3) (b : Bool) :
    (th.setP pd b).getP p = if p = pd ∧ pd ≠ 0 then b else th.getP p := by
  by_cases h0 : pd = 0
  · subst h0; rw [Thread.setP_zero, if_neg (fun h => h.2 rfl)]
  · by_cases hz : p = 0
    · subst hz; rw [if_neg (fun h => h0 h.1.symm)]; rfl
    · rw [Thread.setP_ne _ _ _ h0, Thread.getP_ne _ _ hz, Thread.getP_ne _ _ hz]
      by_cases hr : p = pd
      · subst hr; rw [if_pos ⟨rfl, h0⟩]; exact Vector.getElem_set_self _
      · rw [if_neg (fun h => hr h.1)]
        exact Vector.getElem_set_ne (by omega) (by omega) (fun h => hr (BitVec.eq_of_toNat_eq h.symm))
/-- X0 reads as zero. -/
@[simp] theorem Thread.getX_zero (th : Thread) : th.getX 0 = 0 := by simp [Thread.getX]
/-- P0 reads as 1. -/
@[simp] theorem Thread.getP_zero (th : Thread) : th.getP 0 = true := by simp [Thread.getP]
/-- A write of a register touches the registers alone. -/
theorem Thread.setX_frame (th : Thread) (rd : BitVec 5) (v : Word) : th.setX rd v = { th with x := (th.setX rd v).x } := by
  by_cases h : rd = 0
  · subst h; rw [Thread.setX_zero]
  · rw [Thread.setX_ne _ _ _ h]
theorem Thread.setP_frame (th : Thread) (pd : BitVec 3) (b : Bool) : th.setP pd b = { th with p := (th.setP pd b).p } := by
  by_cases h : pd = 0
  · subst h; rw [Thread.setP_zero]
  · rw [Thread.setP_ne _ _ _ h]
/-- Guard 0b0000 always executes (R61). -/
@[simp] theorem Thread.guard_zero (th : Thread) : th.guard 0 = true := by
  unfold Thread.guard
  have h : (0 : BitVec 4).extractLsb' 1 3 = (0 : BitVec 3) := by decide
  rw [h, Thread.getP_zero]; decide

/-! ### Issue -/

theorem State.thread_markIssue (s : State) (t : Tid) (j : Nat) :
    (s.markIssue t).thread j = if j = t.key then { s.thread t.key with parkedAt := s.clk.arith } else s.thread j := by
  simp [State.markIssue]
theorem State.core_markIssue (s : State) (t : Tid) (j : Nat) :
    (s.markIssue t).core j = if j = t.core.val then
      { s.core t.core.val with last := t.th.val, issued := s.clk.arith + 1, busyAt := s.clk.arith, gated := false } else s.core j := by
  simp [State.markIssue]
/-- The issue itself changes one thread and one core. -/
theorem State.markIssue_frame (s : State) (t : Tid) :
    s.markIssue t = { s with threads := (s.markIssue t).threads, cores := (s.markIssue t).cores } := rfl
/-- The guard is that of the thread before the issue. -/
@[simp] theorem Thread.guard_parkedAt (th : Thread) (n : Nat) (g : BitVec 4) :
    Thread.guard { th with parkedAt := n } g = th.guard g := rfl
/-- The thread as an attempt at a held instruction leaves it before its effect. -/
def State.retry (s : State) (t : Tid) : State := s.setThread t.key { s.thread t.key with st := .ready }
/-- What an attempt at an instruction does: another word, or not due, nothing; issued, or held and due again, its effect. -/
theorem State.instr_cases (s : State) (i : Instr) (t : Tid) (g : BitVec 4) (body : State → Option State) :
    s.instr i t g body =
      if s.fetches t i then
        if s.canIssue t then (s.markIssue t).perform t g body
        else if (s.thread t.key).st = .held ∧ s.enabled then (s.retry t).perform t g body else s
      else s := by
  unfold State.instr State.issueIf
  cases s.fetches t i <;> rfl
/-- The effect: with a false guard the next instruction; else the body, or the thread held. -/
theorem State.perform_cases (s : State) (t : Tid) (g : BitVec 4) (body : State → Option State) :
    s.perform t g body =
      if (s.thread t.key).guard g then (body s).getD (s.setThread t.key { s.thread t.key with st := .held })
      else s.pcNext t.key := by
  unfold State.perform
  split
  · cases body s <;> rfl
  · rfl
/-- A thread that issues does what its body says, where the body answers. -/
theorem State.instr_issues (s : State) (i : Instr) (t : Tid) (g : BitVec 4) (body : State → Option State)
    (hf : s.fetches t i = true) (hc : s.canIssue t = true) (hg : (s.thread t.key).guard g = true) :
    s.instr i t g body =
      (body (s.markIssue t)).getD ((s.markIssue t).setThread t.key { (s.markIssue t).thread t.key with st := .held }) := by
  rw [State.instr_cases, if_pos hf, if_pos hc, State.perform_cases, State.thread_markIssue, if_pos rfl, Thread.guard_parkedAt, if_pos hg]

end Sys2Proof.Machine
end

