-- ==== Sys2Proof/Tests/Slice0.lean ====
section
/-! SUPPORT. Tests: one theorem for each statement, whose parts show clause by clause that its hypotheses are met together by a small state
and operands (hyps_<statement>), and small tests of the definitions against values taken from the spec. -/

set_option Elab.async false

namespace Sys2Proof.Tests
open Sys2Proof Sys2Proof.Machine

/-! ### Small states -/

/-- Fields set one after the other. -/
def fields (l : List (Nat × Fld × Nat × Nat)) (s : State) : State := l.foldl (fun s e => s.fset e.1 e.2.1 e.2.2.2 e.2.2.1) s
/-- The state after reset with the caches off. -/
def flat : State := fields ((List.range 4).map (fun q => (blkCELLAR q, F.CELLAR.CACHE_STATUS.ENABLED, 0, 0))) State.reset
def regsOf (l : List (Fin 32 × Word)) : Vector Word 32 := l.foldl (fun v e => v.set e.1 e.2) (Vector.replicate 32 0)
/-- A thread with these registers, at 0x1000. -/
def thr (st : TState) (l : List (Fin 32 × Word)) : Thread := { Thread.init with st := st, x := regsOf l, pc := 0x1000, cls := 1 }
/-- Fields at their places in a word (Table 3.5), over an opcode and a guard. -/
def word (op : Nat) (g : BitVec 4) (l : List (Nat × Nat)) : BitVec 32 :=
  BitVec.ofNat 32 (l.foldl (fun v e => v + e.2 * 2 ^ e.1) (op * 2 ^ 26 + g.toNat))
def wR (op : Nat) (g : BitVec 4) (a b c : BitVec 5) (l : List (Nat × Nat)) : BitVec 32 :=
  word op g ([(21, a.toNat), (16, b.toNat), (11, c.toNat)] ++ l)
def wP (op : Nat) (g : BitVec 4) (p : BitVec 3) (l : List (Nat × Nat)) : BitVec 32 := word op g ((23, p.toNat) :: l)
/-- The word of an instruction of a thread (Tables 3.6 and 3.8); 0 for any other command. -/
def enc : Instr → BitVec 32
  | .add _ g a b c => wR 1 g a b c [(4, 0)]
  | .sub _ g a b c => wR 1 g a b c [(4, 1)]
  | .and _ g a b c => wR 1 g a b c [(4, 2)]
  | .or _ g a b c => wR 1 g a b c [(4, 3)]
  | .xor _ g a b c => wR 1 g a b c [(4, 4)]
  | .shl _ g a b c => wR 1 g a b c [(4, 5)]
  | .shr _ g a b c => wR 1 g a b c [(4, 6)]
  | .sra _ g a b c => wR 1 g a b c [(4, 7)]
  | .mul _ g a b c => wR 1 g a b c [(4, 8)]
  | .mulhs _ g a b c => wR 1 g a b c [(4, 9)]
  | .mulhu _ g a b c => wR 1 g a b c [(4, 10)]
  | .min _ g a b c => wR 1 g a b c [(4, 11)]
  | .max _ g a b c => wR 1 g a b c [(4, 12)]
  | .minu _ g a b c => wR 1 g a b c [(4, 13)]
  | .maxu _ g a b c => wR 1 g a b c [(4, 14)]
  | .sel _ g a b c => wR 1 g a b c [(4, 15)]
  | .addi _ g a b i => wR 2 g a b 0 [(4, i.toNat)]
  | .andi _ g a b i => wR 3 g a b 0 [(4, i.toNat)]
  | .ori _ g a b i => wR 4 g a b 0 [(4, i.toNat)]
  | .xori _ g a b i => wR 5 g a b 0 [(4, i.toNat)]
  | .shli _ g a b i => wR 6 g a b 0 [(4, i.toNat)]
  | .shri _ g a b i => wR 7 g a b 0 [(4, i.toNat)]
  | .srai _ g a b i => wR 8 g a b 0 [(4, i.toNat)]
  | .movw _ a h k i => word 9 0 [(21, a.toNat), (19, h.toNat), (18, b2n k), (2, i.toNat)]
  | .cmpEq _ g p a b => wP 10 g p [(18, a.toNat), (13, b.toNat), (9, 0)]
  | .cmpNe _ g p a b => wP 10 g p [(18, a.toNat), (13, b.toNat), (9, 1)]
  | .cmpLt _ g p a b => wP 10 g p [(18, a.toNat), (13, b.toNat), (9, 2)]
  | .cmpLtu _ g p a b => wP 10 g p [(18, a.toNat), (13, b.toNat), (9, 3)]
  | .cmpGe _ g p a b => wP 10 g p [(18, a.toNat), (13, b.toNat), (9, 4)]
  | .cmpGeu _ g p a b => wP 10 g p [(18, a.toNat), (13, b.toNat), (9, 5)]
  | .plogAnd _ g p a b => wP 11 g p [(20, a.toNat), (17, b.toNat), (15, 0)]
  | .plogOr _ g p a b => wP 11 g p [(20, a.toNat), (17, b.toNat), (15, 1)]
  | .plogXor _ g p a b => wP 11 g p [(20, a.toNat), (17, b.toNat), (15, 2)]
  | .plogAndn _ g p a b => wP 11 g p [(20, a.toNat), (17, b.toNat), (15, 3)]
  | .br _ g d => word 12 g [(4, d.toNat)]
  | .call _ g d => word 13 g [(4, d.toNat)]
  | .jr _ g a b => wR 14 g a b 0 []
  | .rdsys _ g a s => wR 15 g a 0 0 [(8, s.val)]
  | .yield _ g => word 15 g [(4, 1)]
  | .taskEnd _ g => word 15 g [(4, 2)]
  | .nop _ g => word 15 g [(4, 3)]
  | .ld _ g a b z x i => wR 16 g a b 0 [(14, z.toNat), (13, b2n x), (4, i.toNat)]
  | .st _ g a b z i => wR 17 g a b 0 [(14, z.toNat), (4, i.toNat)]
  | .amoFadd32 _ g a b c => wR 18 g a b c [(4, 0)]
  | .amoFmin32 _ g a b c => wR 18 g a b c [(4, 1)]
  | .amoFmax32 _ g a b c => wR 18 g a b c [(4, 2)]
  | .amoOr32 _ g a b c => wR 18 g a b c [(4, 3)]
  | .amoOr64 _ g a b c => wR 18 g a b c [(4, 4)]
  | .tmma _ g a b n f => wR 0x20 g a b 0 [(9, n.val), (4, b2n f)]
  | .tsmma _ g a b n f => wR 0x21 g a b 0 [(9, n.val), (4, b2n f)]
  | .tdrain _ g a b n => wR 0x22 g a b 0 [(9, n.val)]
  | .vfma _ g a b c d => wR 0x28 g a b c [(6, d.toNat)]
  | .vexp _ g a b => wR 0x29 g a b 0 []
  | .vrcp _ g a b => wR 0x2A g a b 0 []
  | .vrsq _ g a b => wR 0x2B g a b 0 []
  | .vmax _ g a b c => wR 0x2C g a b c []
  | .vsum _ g a b => wR 0x2D g a b 0 []
  | .vsoft _ g a b c d => wR 0x2E g a b c [(6, d.toNat)]
  | .strmGo _ g a b c => wR 0x30 g a b c []
  | .strmWait _ g a b => wR 0x31 g a b 0 []
  | .syncSig _ g a b => wR 0x34 g 0 a b []
  | .syncWait _ g a b c => wR 0x35 g a b c []
  | .syncBar _ g a b => wR 0x36 g a b 0 []
  | .taskSpawn _ g a b => wR 0x38 g a b 0 []
  | .taskFlag _ g a b => wR 0x39 g 0 a b []
  | _ => 0
/-- A core whose cache holds the word of `i` at 0x1000, and that of SYS NOP elsewhere in the line. -/
def coreOf (w : BitVec 32) : Core := { Core.init with icache := [(0, ⟨0x1000 / 128 + 1, w :: List.replicate 31 0x3C000030⟩)] }
def coreUp : Core := coreOf 0x3C000030
/-- Thread 0 of core 0 in state `st`, at the word `w`. -/
def oneW (st : TState) (l : List (Fin 32 × Word)) (w : BitVec 32) : State :=
  { flat with threads := [(0, thr st l)], cores := [(0, coreOf w)] }
/-- The same at an instruction. -/
def oneI (st : TState) (l : List (Fin 32 × Word)) (i : Instr) : State := oneW st l (enc i)
def one (st : TState) (l : List (Fin 32 × Word)) : State := oneW st l 0x3C000030
def cpu (l : List (Fin 32 × Word)) (i : Instr) : State := oneI .ready l i
def t0 : Tid := ⟨0, 0⟩
def job0 : JobId := ⟨0, 0, 0⟩
/-- Little-endian words of 8 bytes as memory cells from `a`. -/
def words (a : Nat) (l : List Nat) : Mem :=
  (Mem.mk [] [] []).write a (l.flatMap (leBytes 8))

def alu : List (Fin 32 × Word) := [(1, 7), (2, 0xFFFFFFFFFFFFFFF0), (3, 0x1004)]
def sAlu : State := one .ready alu
/-! Loads and stores: own scratch, and a stack address. -/
def lsX : List (Fin 32 × Word) := [(1, 0x410000000100), (2, 0x8000), (3, 0x55AA), (4, 0x410000000103)]
def lsMem (i : Instr) : State := { cpu lsX i with mem := words 0x410000000100 [0x8070605040302010] }
def rq (id : Nat) (op : ReqOp) (a n rd : Nat) (an : Option Answer) : Req :=
  ⟨id, .thread 0, job0, op, .bulk, a, n, 0, 0, 0, rd, 0x1000, an⟩
def sBack : State := { one (.parked (.load 6 true 4)) [] with fabric := { flat.fabric with reqs := [rq 1 .ld 0x8000 4 6 (some (.data 0x80000000 0))] } }
def sAmoBack : State := { one (.parked (.amo 6)) [] with fabric := { flat.fabric with reqs := [rq 1 (.amo 0) 0x8000 4 6 (some (.data 9 0))] } }
/-! Tasks. -/
def sEntry : State := { flat with tasks := [(3, { Entry.init with used := true, eligible := true, placed := true, trec := { TaskRec.zero with entry := 0x2000, cls := 1 } })],
                                  cores := [(0, { coreUp with run := some 3 })] }
def sIdle : State := { flat with clk := ⟨100, 7, 0, false⟩ }
def sNoLine : State := { one (.parked .fetch) [] with cores := [] }

/-! Tiles: TD with stride 2 lines, K=32, INT8 (fmt 5) or FP32. -/
def tdI (off : Nat) : Nat := off + 2 * 2 ^ 18 + 1 * 2 ^ 32 + 5 * 2 ^ 40
def tdF (off : Nat) : Nat := off + 8 * 2 ^ 18 + 1 * 2 ^ 32
def tile (k : TileKind) (start : Bool) (a b : Nat) : TileOp := ⟨k, 0, 0, job0, a, b, 0, start, 0, 0, 0x1000, 0⟩
def sArr (x : Arr) (i : Instr) : State :=
  { cpu [(1, BitVec.ofNat 64 (tdI 0)), (2, BitVec.ofNat 64 (tdI 256))] i with arrs := [(2, x)] }
def arrMine : Arr := { Arr.init with bound := some 0 }
def arrOther : Arr := { Arr.init with bound := some 5 }
def arrFull (b : Option Nat) : Arr := { Arr.init with bound := b, queue := List.replicate 4 (tile .mma false (tdI 0) (tdI 256)) }
def opI : TileOp := tile .mma true (tdI 0) (tdI 256)
def sTile : State := { flat with arrs := [(2, { Arr.init with queue := [opI], live := some 0 })], mem := words 0x410000000000 [0x0302FF0100000001, 5] }
def opF : TileOp := { tile .mma true (tdF 0) (tdF 1024) with done := 5 }
def sSeg : State := { flat with arrs := [(2, { Arr.init with queue := [opF], live := some 0, segCount := 2 ^ 20 })] }
def opD : TileOp := { tile .drain false (2048 + 2 * 2 ^ 18) 0 with done := 1 }
def sDrain : State := { flat with arrs := [(2, { Arr.init with queue := [opD], live := some 0 })] }
def sh0 : Shadow := ⟨opD, List.replicate 64 0x3F800000, 1, 0⟩
def sShadow : State := { flat with arrs := [(2, { Arr.init with shadow := some sh0 })] }
def sSteal : State := fields [(blkPRESS 0, F.PRESS.PRESS_CTL.STEAL_ENABLE, 0, 1)] { flat with clk := ⟨100000, 6251, 0, false⟩, arrs := [(5, { Arr.init with live := some 64, queue := [opI, { opI with seq := 1 }, { opD with done := 0, seq := 2 }] })] }
def sVec (i : Instr) : State := cpu [(1, 0x1000), (2, 0x2000), (3, 0x3000), (4, 0x4000)] i
def vop : VecOp := ⟨.fma, 0, job0, 0x1000, 0x2000, 0x3000, 0x4000, false, 0, 0, 0x1000⟩
def sVecFull (i : Instr) : State := { sVec i with vecs := [(0, List.replicate 8 vop)] }
def sVecRun : State := { flat with vecs := [(0, [vop])], mem := words 0x410000002000 [0x3F8000003F800000] }
/-! Streams. -/
def cx (st : CtxSt) (d : List Nat) : Ctx := { Ctx.init with st := st, desc := d, cur := some 0x20000 }
def sCtx (c : Ctx) : State := { flat with ctxs := [(7, c)] }
def sGo (c : Ctx) (i : Instr) : State := { cpu [(1, 7), (2, 0x20000)] i with ctxs := [(7, c)] }
def goI : Instr := .strmGo t0 0 4 1 2
def waitI : Instr := .strmWait t0 0 4 1
def sCtxActive : State := sCtx (cx .active [])
def cOwned : Ctx := { Ctx.init with st := .owned }
def cTaken : Ctx := { cx .active [] with owner := 9, go := some (0, 9, 5) }
def cQueued : Ctx := { cx .active [] with next := some 0x30000 }
def cOther : Ctx := { cx .active [] with owner := 9 }
/-- A LINEAR descriptor: source, destination in scratch, length. -/
def dLin (src dst len : Nat) : List Nat := [4 * 2 ^ 16, src, dst, len, 0, 0, 0, 0]
def codes (d : List Nat) : List Code := (List.range (d.length / 2)).map (fun i => ⟨d.getD (2 * i) 0 + 2 ^ 64 * d.getD (2 * i + 1) 0, false⟩)
def sBlk (d : List Nat) : State := sCtx { cx .active [] with blkAt := some 0x20000, blk := codes d ++ List.replicate 28 ⟨0, false⟩ }
def dl : List Nat := dLin 0x40000 0x410000000000 256
def sBlkLin : State := sBlk dl
def pins (n : Nat) : Sparse Code := (List.range n).map (fun i => (i, ⟨0, false⟩))
def dPress (op len : Nat) : List Nat := [32 + 4 * 2 ^ 16, 0x40000, 0x410000000000, len, op + 4 * 2 ^ 4, 0, 0, 0]
def sPress (op len : Nat) : State := fields [(blkPRESS 0, F.PRESS.PRESS_STATUS.BUSY, 0, 1), (blkPRESS 0, F.PRESS.PRESS_STATUS.CONTEXT, 0, 7)] <|
  sCtx { cx .active (dPress op len) with pin := pins (len / 16), pos := len, again := true }

/-! Streams: moving. -/
def sMv (c : Ctx) : State := { flat with ctxs := [(7, c)] }
def act (d : List Nat) : Ctx := cx .active d
def sMv1 : State := sMv { act dl with pos := 48 }
def rd0 : StrmRead := ⟨3, 64, 0x40040, 64, .src, 0, 0, some (List.replicate 4 ⟨5, false⟩)⟩
def sMv2 : State := { sMv { act dl with pos := 128, reads := [⟨2, 0, 0x40000, 64, .src, 0, 0, none⟩, rd0] } with mem := words 0x40040 [1, 2, 3] }
def ringD : List Nat := [64 + 4 * 2 ^ 16, 0x40000, 0x410000000000, 256, 0, 0, 1 + 2 * 2 ^ 18 + 2 * 2 ^ 36, 0]
def wk (sig : Bool) : Wake := ⟨0, .ctx 7, 0, 0, sig⟩
def sMv3 : State := { sMv { act ringD with creditWait := true } with wakes := [wk false] }
def sMv4 : State := { sMv { act ringD with sigs := 2 } with wakes := [wk true] }
def sMv5 : State := sMv { act dl with pos := 64, outs := (List.range 4).map (fun i => (i, ⟨i, false⟩)) }
def sMv6 : State := sMv { act dl with pos := 256, segs := 4 }
def sMv7 : State := sMv { act dl with st := .cancelling }
def mcD : List Nat := [4 + 4 * 2 ^ 16, 0x40000, 0x100, 256, 0x50000, 2, 0, 0]
def sMc : State := { sMv { act mcD with recv := [⟨0, false, 0⟩, ⟨3, false, 0⟩], mcHeld := 64, mcIn := 1 } with mem := words 0x40040 [7] }
def relD : List Nat := [5 + 64 + 4 * 2 ^ 16, 0x40000, 0x100, 256, 0x50000, 2, 1 + 2 * 2 ^ 18 + 2 * 2 ^ 36, 0]
def hp (st : HopSt) : Hop := ⟨7, 1, 0, st⟩
def sHop (st : HopSt) : State := { sMv { act relD with recv := [⟨0, false, 0⟩, ⟨3, false, 0⟩] } with hops := [hp st] }
def sHopR : State := sHop .ready
def sHopM : State := sHop .moving
/-! Tasks. -/
def job1 : Job := ⟨job0, 0, 15, 1, 0, false, false, 9, 0x80000, 0, 128, 0, 5, 77, .running, 0, none, none, false, [], 0, 0, 0, 0, 0⟩
def sJob (j : Job) : State := { flat with jobs := [j] }
def sSp (i : Instr) : State := { cpu [(1, 0x60000)] i with jobs := [job1] }
def tr (pcore : Nat) : TaskRec := ⟨0x2000, 0x1234, 0, 0, 1, 0, false, 2, pcore, 0, 0⟩
/-- The record's 64 B: ENTRY, PLACE 2 and PCORE. -/
def recV (pcore : Nat) : Nat := 0x2000 + 1 * 2 ^ 192 + 2 * 2 ^ 198 + pcore * 2 ^ 208
def sp0 (ph : SpawnPhase) : Spawn := ⟨0, 0, job0, 0x60000, ph, 0⟩
def sSpR : State := { one (.parked (.spawn 4)) [] with jobs := [job1], spawns := [sp0 .reading], fabric := { flat.fabric with reqs := [rq 1 .spawn 0x60000 64 0 (some (.data (recV 1024) 0))] } }
def sSpA : State := { sSpR with clk := ⟨100, 7, 0, false⟩,  spawns := [sp0 (.waiting (tr 5))], fabric := flat.fabric, tasks := [(0, { Entry.init with used := true })] }
def sSpH : State := { sSpR with spawns := [sp0 (.accepted 0x40008001)], fabric := flat.fabric }
def sFl : State := { cpu [(1, 0x40004002), (2, 6)] (.taskFlag t0 0 1 2) with jobs := [job1] }
def fm : FlagMsg := ⟨0, some 0, job0, 0x40004002, 6⟩
def sFm (e : Entry) : State := { sJob job1 with flagMsgs := [fm], tasks := [(16386, e)] }
def eMine : Entry := { Entry.init with used := true, job := job0, trec := { tr 1024 with mask := 7, flags := 1 }, flags := 1 }
def sFmOk : State := sFm eMine
def sFmBad : State := sFm { eMine with gen := 2 }
def sPl : State := { sJob job1 with clk := ⟨50, 0, 0, false⟩, cores := [(3, { Core.init with run := some 9 })], tasks := [(2, { eMine with trec := tr 3, ready := some 10, eligible := true })] }
def sPl2 : State := { sPl with cores := [] }
/-! Sync. -/
def sSy (xb : Word) (i : Instr) : State := { cpu [(1, 0x50003), (2, xb)] i with jobs := [job1] }
def sSyNeg (i : Instr) : State := sSy 0xFFFFFFFF80000000 i
def sSyW (i : Instr) : State := sSy 0xFFFFFFFF i
def sSyU (i : Instr) : State := { sSyNeg i with fabric := { flat.fabric with reqs := [rq 1 .st 0x8000 4 0 none] } }
def wtr (k v : Nat) : Waiter := ⟨.thread k, v, false, 0, 0⟩
def ctr (n : Nat) : Obj := { Obj.init with type := 1, count := n }
def smsg (op : SyncOp) : SyncMsg := ⟨0, .thread 0, 65539, op, some 0⟩
def sOp (o : Obj) (op : SyncOp) : State := { one (.parked (.sync 65539 4)) [] with jobs := [job1], syncMsgs := [⟨0, .thread 7, 65539, .wait 5, some 0⟩, smsg op], objs := [(65539, o)] }
def sOp4 : State := sOp (ctr 1) (.sig 4294967294 true)
def sOp4w : State := sOp { ctr 1 with waiters := [wtr 9 2, wtr 8 9] } (.sig 3 false)
def sOp5 : State := sOp (ctr 1) (.sig (-2) true)
def sOp6 : State := sOp (ctr 3) (.wait 3)
def sOp7 : State := sOp (ctr 3) (.wait 4)
def barO (a : Nat) : Obj := { Obj.init with type := 3, parts := 2, arrived := a, gen := true }
def sOp8 : State := sOp (barO 0) (.bar true)
def sOp9 : State := sOp { barO 1 with next := 1, waiters := [⟨.thread 9, 0, true, 0, 0⟩], held := [⟨.thread 8, 0, true, 0, 0⟩] } (.bar true)
def sGr : State := { flat with objs := [(65539, { ctr 5 with grant := true, waiters := [wtr 1 2, wtr 2 3, wtr 3 1] })] }
def sCh : State := { flat with objs := [(65539, { barO 0 with chain := true, next := 3, held := [⟨.thread 8, 0, true, 0, 0⟩, ⟨.thread 9, 0, true, 0, 0⟩] })] }
def sWk : State := { one (.parked (.sync 65539 4)) [] with wakes := [wk false, ⟨0, .thread 0, 1, 2, false⟩] }
/-! Mode. -/
def sTrans : State := fields [(blkMODE, F.MODE.MODE_STATUS.TRANSITION, 0, 1), (blkMODE, F.MODE.MODE_STATUS.PENDING, 0, 0x21)] flat
def sOwnM : State := fields [(blkJI 1, F.JI.PARTITION.OWNED, 0, 2)] flat
def sTransD : State := { flat with clk := ⟨100, 7, 0, false⟩, modeAt := State.ctrl { flat with clk := ⟨100, 7, 0, false⟩ } + 1 }
def sTransL : State := fields [(blkMODE, F.MODE.MODE_STATUS.TRANSITION, 0, 1), (blkMODE, F.MODE.MODE_STATUS.PENDING, 0, 2), (blkMODE,
  F.MODE.MODE_STATUS.TARGET, 0, 3)] flat
/-! Watchdog. -/
def sWd : State := { sGr with clk := ⟨2 ^ 21, 0, 0, false⟩ }
def sWdF : State := fields [(blkSYNC 1, F.SYNC.WAIT_LIMIT.LIMIT, 0, 1)] { sWd with clk := ⟨2 ^ 22, 0, 0, false⟩ }
def sDump : State := fields [(blkSYNC 1, F.SYNC.WD_STATUS.DUMPING, 0, 1)] sGr
def sStop (d : Nat) (w : Wd) : State := { fields [(blkTSCHED 1, F.TSCHED.SCHED_STATUS.STOPPED, 0, 1), (blkSYNC 1, F.SYNC.WD_STATUS.DUMPING, 0, d)] flat with wds := [(1, w)] }
def sStop3 : State := sStop 0 { Wd.init with step4 := true, checks := 1, ended := [job0] }
def sStop4 : State := sStop 1 { Wd.init with step4 := true, checks := 1 }

/-! Fabric and links. -/
def rF : Req := ⟨1, .thread 12, job0, .st, .lat, 0x90000, 24, 0, 5, 0, 0, 0x1000, none⟩
def fF : Flit := ⟨1, .lat, ⟨.cluster 0 3, 12⟩, .stack 0, .router 0 3, [.router 0 2, .router 0 1], false⟩
def sF : State := { flat with fabric := { flat.fabric with reqs := [rF], flits := [fF], nextId := 2 } }
def sThr32 : State := { flat with clk := ⟨32, 2, 0, false⟩ }
def prt (x : Port) : State := { flat with ports := [(1, x)] }
def pUp : Port := { Port.init with link := true, rate := 5, width := 16 }
def sUp : State := prt pUp
def clkAt (n : Nat) : ClockSt := ⟨n, n / 16 + 1, 0, false⟩
def sHb : State := fields [(blkJI 1, F.JI.HB_LIMIT.LIMIT, 0, 3)] { sUp with clk := clkAt (3 * 2 ^ 20) }
def sLl : State := { prt { pUp with link := false } with clk := clkAt 14000001 }
def pPerst : Port := { pUp with perst := true }
/-! Rings. -/
def rg (st : RingState) : Ring := { Ring.init with state := st }
def sR (x : Ring) : State := fields [(blkJI 1, F.JI.RING_CTL.SQ_LOG2, 64 * 63, 4), (blkJI 1, F.JI.RING_CTL.CQ_LOG2, 64 * 63, 4), (blkJI 1,
  F.JI.RING_CTL.ENABLE, 64 * 63, 1)] { sUp with rings := [(127, x)] }
def sRd : State := sR (rg .disabled)
def sRr : State := sR (rg .running)
def sRe : State := sR (rg .error)
def sRg : State := sR (rg .draining)
def job2 : Job := { job1 with id := ⟨1, 63, 0⟩ }
def sRj : State := { sRr with jobs := [job2] }
def sRw : State := sR { rg .running with tail := 0xFFFFFFF8, head := 0xFFFFFFF8, written := 5, cqHead := 5 }
def sRc : State := sR { rg .running with written := 5, cqHead := 0xFFFFFFFE }
def sRf : State := sR { rg .running with tail := 3, head := 0 }
def sRm : State := { sR { rg .running with tail := 3, head := 0, mismatch := some 100 } with clk := clkAt 1500 }
def sRb (re : Bool) : State := { sR { rg .running with tail := 2, head := 1, fetch := some ⟨1, re⟩ } with hostReads := [⟨4, 1, .fetch 63, 0, 512⟩] }
def sRb0 : State := sRb false
def sRb1 : State := sRb true
/-! Jobs. -/
def jTaken : Job := { job1 with phase := .taken }
def sStby : State := fields [(blkQCTL 2, F.QCTL.Q_STATUS.STATE, 0, 5)] (sJob jTaken)
def sTaken : State := sJob jTaken
def sStop2 : State := fields [(blkTSCHED 2, F.TSCHED.SCHED_STATUS.STOPPED, 0, 1)] sTaken
/-- The image header: one root record at 64. -/
def hdr1 : List Nat := [1 + 1 * 2 ^ 32, 64, 0, 0, 0, 0, 0, 0]
def sImg : State := { sTaken with mem := words 0x80000 (hdr1 ++ [0x2000, 0, 0, 1 + 2 * 2 ^ 6 + 1024 * 2 ^ 16]) }
def jWait : Job := { job1 with phase := .rootsWait, roots := [(0x80040, tr 1024), (0x80080, tr 5)], handleOut := 0x90000 }
def sWait : State := sJob jWait
def jHeld : Job := { jWait with phase := .rootsHeld }
def jL (ph : JobPhase) (k n : Nat) : Job := { jHeld with phase := ph, launch := n, kind := k }
def sL (x : Job) (n : Nat) : State :=
  { sJob x with tasks := [(16384, { eMine with trec := tr 1024, ready := some 3 })], gtc := { GtcSt.init with count := n } }
def jC (k : Nat) (ph : JobPhase) : Job := { job1 with kind := k, phase := ph, addrA := 0x80000, addrB := 0x1000, issued := 1 }
def sC (j : Job) : State := { sJob j with ports := [(0, pUp)], mem := words 0x80040 [0x1122334455667788, 9] }
def sCi : State := sC (jC 1 .begun)
def sCt : State := sC (jC 1 .taken)
def sCt2 : State := sC (jC 2 .taken)
def sCo : State := sC (jC 2 .begun)
def rqH : Req := ⟨6, .thread 0, job0, .ld, .lat, 0x800000001000, 8, 0, 0, 0, 4, 0x1000, none⟩
def hr (f : HostReadFor) : HostRead := ⟨9, 0, f, 0x1000, 8⟩
def sHr : State := { sC (jC 1 .begun) with hostReads := [hr (.request 6)], fabric := { flat.fabric with reqs := [rqH] } }
def sHc : State := { sC (jC 1 .begun) with hostReads := [hr (.copyIn job0 0x80000)] }
def sHf : State := { sC (jC 1 .begun) with hostReads := [hr (.fetch 5)], rings := [(5, { rg .running with fetch := some ⟨0, false⟩ })] }
def jF : Job := { job1 with kind := 3, phase := .taken }
def sFe : State := sJob jF
def jE : Job := { job1 with phase := .ended, status := 0x11, noRecord := true }
def sE : State := { sJob jE with oadds := [⟨0, 0x70000, 1, 0x3F800000, job0⟩] }
def jEr : Job := { jE with noRecord := false }
def sEr (x : Ring) : State := { fields [(blkJI 0, F.JI.RING_CTL.CQ_LOG2, 0, 4)] (sJob jEr) with ports := [(0, pUp)], rings := [(0, x)] }
def sErF : State := sEr { rg .running with written := 16 }
def sErO : State := sEr { rg .running with written := 15 }
def sCoal : State := fields [(blkJI 1, F.JI.RING_CQ_CTL.COAL_TIME, 64 * 63, 2)] { sR { rg .running with coalN := 3, coalAt := 10 } with clk := clkAt 2058 }
def sCan : State := { sJob job1 with threads := [(0, thr .ready [])] }
/-! Partitions. -/
def own (p m : Nat) (s : State) : State := fields [(blkJI p, F.JI.PARTITION.OWNED, 0, m)] s
def sOwn : State := own 0 3 flat
def sLost : State := { sOwn with ports := [(0, { pUp with lost := true })] }
def sRel : State := { sOwn with ports := [(0, { pUp with relMask := 2 })] }
def sAcq : State := { sOwn with ports := [(1, { pUp with acqMask := 3 })] }

/-! Registers. -/
def sGone : State := fields [(blkQCTL 1, F.QCTL.Q_STATUS.STATE, 0, 5)] flat
def sBar (base : Nat) : State := { fields [(blkJI 1, F.JI.APERTURE_BASE.BASE, 0, base)] sUp with mem := words 0x23FFFFFFFF8 [0x8877665544332211] }
def sBarU : State := sBar 0x240
def sWaitIn : State := { sBarU with ports := [(1, { pUp with inq := [⟨true, 0x100, 8, 5⟩] })] }
def sBarT : State := sBar 0x23F
def regA (n off : Nat) : Word := BitVec.ofNat 64 (regsBase + n * 0x100000 + off)
def sHeld0 : State := { flat with pow := { PowSt.init with boot := .held } }
/-! Homes. -/
def hq (op : ReqOp) (a n rd : Nat) : Req := ⟨1, .thread 0, job0, op, .lat, a, n, 0, 0xC0000000, 0, rd, 0x1000, none⟩
def sHm (r : Req) : State := { flat with fabric := { flat.fabric with reqs := [r], nextId := 2 } }
def scA : Nat := scratchAddr 3 0x3FFF8
def q1 : Req := hq .st scA 8 0
def q1s : State := sHm q1
def q2 : Req := hq .ld scA 8 4
def q2s : State := { sHm q2 with mem := words scA [7] }
def q3 : Req := hq (.amo 0) scA 4 4
def q3s : State := { sHm q3 with mem := words scA [0x3F800000] }
def q4 : Req := hq .st 0x23FFFFFFFC0 64 0
def q4s : State := sHm q4
def q5 : Req := hq .ld 0x23FFFFFFFC0 64 4
def q5s : State := { sHm q5 with mem := words 0x23FFFFFFFC8 [7] }
def pq (w : Bool) : PcReq := ⟨.req 50, 0x23FFFFFFF80, 1, w, true, 0, 0, 0, []⟩
def l4 : StackLoc := stackLoc 0x23FFFFFFFC0
def q6s : State := q4s.setPc l4.stack l4.channel l4.pc { Pc.init with queue := List.replicate 64 (pq true) }
def q7s : State := sHm (hq .ld 0x100 8 4) |> fields [(blkQCTL 0, F.QCTL.Q_STATUS.STATE, 0, 2)]
def m8 : Miss := ⟨1, 1, true⟩
def q8s : State := { State.reset with fabric := (sHm (hq .ld 0x108 8 4)).fabric, misses := [m8], mem := words 0x108 [9] }
/-! Engine queues. -/
def subA : Nat := regsBase + blkGRIND 5 * 0x100000 + 8
def sq : Req := ⟨1, .thread 0, job0, .st, .mgmt, subA, 8, 0, 0x100000, 0, 0, 0x1000, none⟩
def sSub : State := { sHm sq with jobs := [job1], threads := [(0, { thr .ready [] with mode := 3, started := 4 })] }
def cq (u : EUnit) (i : Nat) : Cmd := ⟨i, u, 0x100000, 0, 4, job0, 0, false, .queued, [], 0, none, Slot.init, 0, 0, 0, 0, 0, []⟩
def sSubF : State := { sSub with cmds := (List.range 256).map (fun i => cq (.grind 5) (100 + i)) }
def sSubH : State := { sSub with heldSubs := [(.grind 5, 1)] }
def sSubS : State := fields [(blkQCTL 1, F.QCTL.Q_STATUS.STATE, 0, 3)] sSub
def sTab : State := fields [(blkGRIND 5, F.GRIND.TAB_ROWS.ROWS, 32 * 31, 1000), (blkGRIND 5, F.GRIND.TAB_CFG.VALID, 32 * 31, 1)] flat
/-! Grinder commands at 0x100000: a LOOKUP, MIGRATE, REPLACE, UPDATE, SNAPSHOT of slot 3, with table at 0x400000. -/
def slot3 (home : Bool) : Slot := ⟨0x400000, 1000, 16, 1, home, true, 0⟩
def begun (w : List Nat) (sl : Slot) : State := { sJob job1 with cmds := [cq (.grind 5) 7], mem := words 0x100000 w, slots := [(163, sl)] }
def w8 (w0 w1 w2 w3 w4 w5 w6 w7 : Nat) : List Nat := [w0, w1, w2, w3, w4, w5, w6, w7]
def lkW (op : Nat) : List Nat := w8 (op + 3 * 32) 0x200000 0x210000 0 0x220000 (2 + 64 * 2 ^ 32) 0 0
def sLk : State := begun (lkW 1) (slot3 false)
def c5 : Cmd := cq (.grind 5) 7
def sLkBad : State := begun (lkW 1) Slot.init
def mvW (op : Nat) : List Nat := w8 (op + 3 * 32) 0x200000 0 0 0 2 0 0
def sMg : State := begun (mvW 3) (slot3 true)
def sRp : State := begun (mvW 4) Slot.init
def sRpH : State := begun (mvW 4) (slot3 false)
def sOp6r : State := begun (mvW 6) (slot3 true)
/-- An entry: FP32 row in the stacks. -/
def ent (fmt loc : Nat) : Nat := loc + fmt * 2 ^ 122 + 1 * 2 ^ 126
def cA (w : List Nat) (home : Bool) : Cmd := { c5 with phase := .active, words := w, slot := slot3 home }
def sA (w : List Nat) (home : Bool) (m : Mem) : State := { begun w (slot3 home) with cmds := [cA w home], mem := m }
def mem2 (a : Nat) (l : List Nat) (b : Nat) (k : List Nat) : Mem := (words a l).write b (k.flatMap (leBytes 8))
def sBag0 : State := sA (lkW 1) false (words 0x210000 [2 * 2 ^ 32])
def bg0 : Bag := ⟨7, 0, 0, 2, slot3 false, 0, 0, 0, 0, List.replicate 16 0, [], [], false⟩
def sLk2 (b : Bag) : State := { sA (lkW 1) false (mem2 0x200000 [3] 0x400030 [0x500000, 1 * 2 ^ 62]) with bags := [b] }
def bgE (r : Nat) (l : List GrRead) : Bag := { bg0 with ent := 1, reads := [(0, .entry r)], flits := l }
def cl1 : Cmd := cA (lkW 1) false
def back (n : Nat) (l : List Code) : GrRead := ⟨9, 0, if n = 16 then 0x400030 else 0x500000, n, 0, some l⟩
def bgB (w : Code) : Bag := bgE 3 [back 16 [w]]
def wB (l : Nat) : Code := ⟨ent 0 l, false⟩
def rowL : List Code := [⟨0x3F80000040000000, false⟩, ⟨0, false⟩, ⟨0, false⟩, ⟨0, false⟩]
def bgR : Bag := { bg0 with ent := 1, reads := [(0, .row 3 (ent 0 0x500000) 1 [])], flits := [back 64 rowL] }
def bg2 : Bag := { bg0 with parked := true, reads := [(0, .cold 3 (ent 0 0x500000) (some rowL))] }
def bg3 : Bag := { bg0 with parked := true, reads := [(0, .cold 3 (ent 0 0x500000) none)] }
def sArr0 : State := fields [(blkFM 0, F.FM.FM_STATUS.STATE, 0, 2)] (sLk2 bg3)
/-! Updates. -/
def upW (n : Nat) : List Nat := w8 (2 + 3 * 32) 0x200000 0 0 0x220000 n 0x230000 0
def pbW (len : Nat) : List Nat := [0x3C23D70A, 0, 0, 0x240000, len, 0, 0, 0]
def upMem (len idx : Nat) (e : Nat) : Mem := ((((words 0x100000 (upW 1)).write 0x200000 (leBytes 8 idx)).write 0x230000 ((pbW len).flatMap (leBytes
  8))).write 0x400030 (leBytes 16 e)).write 0x220000 ([0x3F8000003F800000].flatMap (leBytes 8))
def sUp0 (sl : Slot) (m : Mem) : State := { begun (upW 1) sl with mem := m }
def sU1 : State := sUp0 (slot3 false) (words 0x100000 (upW 1))
def sU2 : State := sUp0 { slot3 true with opt := 0 } (words 0x100000 (upW 1))
def sU3 : State := sUp0 (slot3 true) (upMem 79 3 (ent 0 0x500000))
def sU4 : State := sUp0 (slot3 true) (upMem 80 1000 (ent 0 0x500000))
def sU5 : State := sUp0 (slot3 true) (upMem 80 3 (ent 0 0x500000))
def u3 : UpdRow := ⟨3, List.replicate 16 0x3F800000⟩
def sU6 (e : Nat) (rest : List UpdRow) : State := { sA (upW 1) true ((upMem 80 3 e).write 0x500000 [0x7F, 0x01, 0x02, 0x03]) with upds := [⟨7, u3 :: rest⟩] }
def sU6f : State := sU6 (ent 0 0x500000) []
def eInt : Nat := ent 5 0x500000 + 0x3F800000 * 2 ^ 64
def sU7 : State := sU6 eInt [u3]
def oI : Nat × Option (List Int) := requant .rne 127 (optimise (slot3 true) .rne (sU7.mem.readNat 0x230000 64) ((decodeRow .rne 5 0x3F800000
  ((sU7.viewCodes 0x500000 64).take 4)).take 16) u3.grad []).1
/-! Moves. -/
def recM (r new src : Nat) : List Nat := [r, new % 2 ^ 64, new / 2 ^ 64, src]
def sMvR (op r new : Nat) : State := sA (mvW op) true (((words 0x200000 (recM r new 0)).write 0x400030 (leBytes 16 (ent 0 0x500000))))
def sM1 : State := sMvR 3 1000 (ent 0 0x600000)
def sM2 : State := sMvR 4 3 (ent 0 0x600000)
def sM3 : State := sMvR 3 3 (ent 1 0x600000)
def mv3 : Move := ⟨5, 7, 3, slot3 true, ent 0 0x600000, false, none⟩
def sM4 : State := { sM3 with moves := [mv3] }
/-! Completion. -/
def snW : List Nat := w8 (5 + 3 * 32 + 1024) 0x600000 0 0 0 0 0 0
def sSn : State := { begun snW (slot3 true) with shards := [(1024 * 163 + 1023, 5)] }
def cE (w7 : Nat) (ph : CmdPhase) : Cmd := { c5 with phase := ph, words := w8 (3 + 3 * 32) 0 0 0 0 1 0 w7, cnt := 3 }
def sCE (w7 : Nat) (ph : CmdPhase) : State := { sJob job1 with cmds := [cE w7 ph] }
def sCe0 : State := sCE 0 .ending
def sCe1 : State := sCE 0x700020 .ending
def wkC : Wake := ⟨0, .cmd 7, 0, 0, true⟩
def sCe2 : State := { sCE 0 .signalled with wakes := [wkC] }

/-! Talien ports. -/
def tl (st : Nat) (x : TPort) : State := { fields [(blkTL 17, F.TL.PORT_CTL.ENABLE, 0, 1), (blkTL 17, F.TL.PORT_STATUS.STATE, 0, st), (blkGTC, F.GTC.DEV_NUM.NUM, 0, 5)] flat with tports := [(17, x)] }
def sDev : State := fields [(blkGTC, F.GTC.DEV_NUM.NUM, 0, 5)] flat
def sNoDev : State := fields [(blkGTC, F.GTC.DEV_NUM.NUM, 0, 0xFFFF)] flat
def tp0 : TPort := TPort.init
def sT1 : State := tl 1 tp0
def ctl (k d : Nat) : Ctrl := ⟨k, d, 100, 3⟩
def tpc (k d : Nat) : TPort := { tp0 with hello := true, ctrls := [ctl 2 9, ctl k d] }
def after (s : State) (k : Nat) : State := ((s.takeCtl 17 k).map (·.2)).getD s
def sHi : State := tl 1 (tpc 1 (6 + 3 * 2 ^ 16))
def sHiS : State := tl 1 (tpc 1 5)
def sT2 (x : TPort) : State := { tl 2 x with clk := clkAt 2000000000 }
def sRec : State := sT2 { tp0 with tries := 8, recovs := [600000000, 1, 2] }
def sRecF : State := sT2 { tp0 with lockLost := true, recovs := [600000001, 1, 2] }
def sSpare : State := fields [(blkTL 17, F.TL.PORT_STATUS.SPARE_USED, 0, 1)] sRec
def sWin : State := sT2 { tp0 with frames := 1048576, lanes := [1, 2] }
def wf (n : Nat) : WireFrame := ⟨true, [], n, 0, false, [], 0, 0, []⟩
def sT3 : State := tl 3 { tp0 with retry := [wf 4, wf 5] }
def sRq : State := tl 2 (tpc 6 0x308)
def sRa : State := tl 2 { tpc 7 0x308 with repair := some 8 }
/-! Frames. -/
def fIn (good : Bool) (n : Nat) : WireFrame := ⟨good, [0, 3], n, 65535, false, [5, 0, 1], 0, 0, [(0, ⟨true, 7, 0, .none⟩), (2, ⟨false, 8, 1,
  .none⟩), (3, ⟨false, 8, 1, .none⟩)]⟩
def tpF : TPort := { tp0 with expect := 65535, seq := 65535, retry := [wf 65533, wf 65534], freed := #v[1, 2, 3] }
def sFr : State := tl 2 tpF
def sFx : State := tl 2 { tpF with tx := [(0, ⟨true, 7, 0, .none⟩), (2, ⟨false, 8, 1, .none⟩), (0, ⟨false, 9, 1, .none⟩)], credit := #v[1, 0, 40], ctlOut := [(9, 5)] }
def sFp : State := tl 2 { tpF with replay := 2 }
def sFr5 : State := { sFr with clk := clkAt 22400 }
/-! Time. -/
def gtc (m : Nat) (g : GtcSt) (x : TPort) : State := { fields [(blkGTC, F.GTC.GTC_CTL.MODE, 0, m), (blkGTC, F.GTC.GTC_CTL.SYNC_PORT, 0, 17), (blkGTC, F.GTC.GTC_CTL.SYNC_OUT, 0, 0x20001)] (tl 2 x) with gtc := g }
def sGm : State := gtc 1 { GtcSt.init with count := 8192 } tp0
def cSync : Ctrl := ctl 3 (4096 + 2 * 2 ^ 64 + 7 * 2 ^ 72)
def sGf : State := gtc 2 { GtcSt.init with first := true, count := 90 } { tp0 with ctrls := [cSync] }
def sGf2 : State := gtc 2 { GtcSt.init with first := false, count := 90, good := 3 } { tp0 with ctrls := [ctl 3 100] }
def sDq : State := gtc 1 GtcSt.init { tp0 with ctrls := [ctl 4 0] }
def cDr : Ctrl := ctl 5 (95 + 90 * 2 ^ 64 + 1 * 2 ^ 128 + 2 * 2 ^ 136)
def sDr : State := gtc 2 { GtcSt.init with reqAt := some 600 } { tp0 with ctrls := [cDr] }
def sSl (r o : Int) : State := { gtc 2 { GtcSt.init with first := false, owedRate := r, owedOff := o } tp0 with clk := clkAt 2048 }
def sSl1 : State := sSl (-2) 5
def sSl2 : State := sSl 0 5
def sHo : State := gtc 2 { GtcSt.init with first := false, count := 262144 } tp0
/-! Routes. -/
def sAl : State := fields [(blkGTC, F.GTC.ALIAS.NUM, 56, 6), (blkGTC, F.GTC.ALIAS.GEN, 56, 2), (blkGTC, F.GTC.ALIAS.VALID, 56, 1)] (tl 2 (tpc 9 (6 +
  3 * 2 ^ 16)))
/-! Ring handshakes: hub 1, send port 17, receive port 9. -/
def ringBits (n pos id : Nat) : Nat := 1 + n * 2 + pos * 2 ^ 12 + id * 2 ^ 23
def pc1 (st en : Nat) (l : List (Nat × Fld × Nat × Nat)) (x : Perc) : State :=
  { fields ([(blkPERC 1, F.PERC.RING_STATUS.STATE, 0, st), (blkPERC 1, F.PERC.RING_CTL.ENABLE, 0, en), (blkPERC 1, F.PERC.RING_CTL.N, 0, 4),
      (blkPERC 1, F.PERC.RING_PORTS.SEND, 0, 0x100), (blkPERC 1, F.PERC.RING_PORTS.RECV, 0, 1), (blkTL 9, F.TL.PORT_STATUS.STATE, 0, 2),
(blkPERC 1, F.PERC.STAGE.NBANK, 0, 1), (blkCELLAR 2, F.CELLAR.BANK_OWN.MODE, 0, 1), (blkCELLAR 2, F.CELLAR.BANK_OWN.OWNER_KIND, 0, 5), (blkCELLAR 2,
        F.CELLAR.BANK_OWN.OWNER_ID, 0, 1)] ++ l) (tl 2 tp0) with percs := [(1, x)] }
def sRing1 : State := pc1 1 1 [] Perc.init
def sRing0 : State := pc1 0 0 [] Perc.init
def cqA (u : EUnit) (w : List Nat) : Cmd := { cq u 7 with phase := .active, words := w }
def sStall : State := { fields [(blkPERC 1, F.PERC.RING_LIMIT.LIMIT, 0, 2)] (pc1 2 1 [] Perc.init) with jobs := [job1], cmds := [cqA (.perc 1) (w8 1 0 0 0 0 0 0 0)], clk := clkAt 131072 }
def cAb : Ctrl := ctl 8 (7 * 256)
def sAb : State := { pc1 2 1 [(blkPERC 1, F.PERC.RING_STATUS.PASS_SEQ, 0, 7)] Perc.init with jobs := [job1], cmds := sStall.cmds, tports := [(9, { tp0 with ctrls := [cAb] })] }
def sRole : State := fields [(blkGTC, F.GTC.ROLE.ROLE, 0, 4)] flat

/-! Passes on hub 1's ring. -/
def psW (op n : Nat) : List Nat := w8 op 0x200000 0x300000 (n * 65536 + 2 * 2 ^ 40) (1 + 2 * 2 ^ 18 + (if op = 1 then 2 ^ 36 else 0)) 0x20000 0 0
def cP : Cmd := cq (.perc 1) 7
def ring (st : Nat) (x : Perc) (cs : List Cmd) (m : Mem) : State :=
  { fields [(blkPERC 1, F.PERC.RING_STATUS.PASS_SEQ, 0, 9)] (pc1 st 1 [] x) with jobs := [job1], cmds := cs, mem := m }
def sPs (st : Nat) (w : List Nat) : State := ring st Perc.init [cP] (words 0x100000 w)
def psBad : List Nat := w8 1 0x200000 0x300000 (65535 + 2 * 2 ^ 40) 0 0x20000 0 0
def sPs1 : State := sPs 2 psBad
def sPs2 : State := sPs 1 (psW 2 2)
def sPs3 : State := sPs 2 (psW 1 1)
def sPs4 : State := sPs 2 (psW 2 2)
def hdOf (kind n dst src : Nat) : Nat := dst + src * 2 ^ 16 + kind * 2 ^ 32 + n * 2 ^ 48
def rxOf (vc kind dst src : Nat) (i : MsgInfo) (l : List WireBlk) : TPort :=
  { tp0 with rx := (vc, ⟨true, hdOf kind l.length dst src, 0, i⟩) :: l.map (fun b => (vc, b)) }
def wb (v : Nat) : WireBlk := ⟨false, v, 0, .none⟩
def blk1 : List WireBlk := [wb 0x77, wb 0x88]
def blkK : List WireBlk := List.replicate 1024 (wb 0x77)
def sSegIn : State := { ring 2 Perc.init [] ⟨[], [], []⟩ with tports := [(9, rxOf 0 1 5 8 (.seg 9 1 65536 3 0) blkK), (17, tp0)] }
def sg0 : Seg := ⟨9, 1, 131072, 3, 1, 0⟩
def cPa (op : Nat) : Cmd := { cP with phase := .active, words := psW op 2, dropped := 9 }
def pr (k : Nat) (g : List Seg) (segs : List Nat) : Perc := { Perc.init with k := k, staged := g, segs := segs, granted := true, asked := true }
def sLand (op k : Nat) (g : List Seg) (segs : List Nat) : State := ring 2 (pr k g segs) [cPa op] ⟨[], [], []⟩
def sLand1 : State := sLand 1 1 [sg0] []
def sLand2 : State := sLand 2 1 [sg0] []
def sLand3 : State := sLand 1 3 [] [1, 0]
def sDone : State := { sLand 2 5 [] [] with regs := sLand3.regs }
/-! Key/value. -/
def kvW (op : Nat) : List Nat := w8 op 3 0x200000 128 8 0 0 0
def sKv (w : List Nat) : State := { ring 0 Perc.init [cP] (words 0x100000 w) with routes := [(8, ⟨0x20000, 1, true⟩)] }
def kvBad : List Nat := w8 3 3 0x200000 100 8 0 0 0
def sKv1 : State := sKv kvBad
def sKv2 : State := sKv (kvW 4)
def sKv2g : State := sKv (kvW 3)
def sSrv (on vc kind : Nat) (i : MsgInfo) (l : List WireBlk) (cs : List Cmd) (x : Perc) : State :=
  { fields [(blkPERC 1, F.PERC.KV_CTL.SERVE, 0, on), (blkPERC 1, F.PERC.KV_BLOCKS.COUNT, 0, 4), (blkPERC 1, F.PERC.KV_DIR.BASE, 0, 0x400)]
(ring 0 x cs (words 0x400030 [0x500000, 128 + 2 ^ 62])) with tports := [(9, rxOf vc kind 5 8 i l), (17, tp0)], routes := [(8, ⟨0x20000, 1, true⟩)] }
def sReq (on : Nat) (put : Bool) (b : Nat) : State := sSrv on 1 4 (.kvReq put b 128 7) [] [] Perc.init
def kvP : KvReq := ⟨8, 5, true, 3, 192, 7, 0x500000 + 2 ^ 126 + 192 * 2 ^ 64, 0, true, 0, [], []⟩
def sPut : State := sSrv 1 0 5 (.kvData true 64 7) blk1 [] { Perc.init with kvs := [kvP] }
def cKv (op : Nat) : Cmd := { cP with phase := .active, words := kvW op }
def sKd : State := sSrv 1 2 5 (.kvData false 0 7) blk1 [cKv 3] Perc.init
def sKa (st : Nat) : State := sSrv 1 2 6 (.kvAck st 7) [] [cKv 4] Perc.init
/-! Collectives: hub 1, group record at 0x400000. -/
def coW (op count red out lay : Nat) (p2p : Bool) : List Nat := w8 (op + red * 32 + out * 2 ^ 36) 0x200000 0x300000 count (if p2p then 8 + 2 * 2 ^
  16 else 0x400000) (6 + lay * 2 ^ 32) 0 0
def cC : Cmd := cq (.coll 1) 7
def grp : List Nat := [7 + 2 * 2 ^ 16 + 1 * 2 ^ 48, 0, 0, 0, 0, 0, 0, 0, 8 + 5 * 2 ^ 16]
def sCoG (w g : List Nat) (rt : Bool) : State :=
{ fields [(blkCOLL 1, F.COLL.STAGE.NBANK, 0, 1), (blkCOLL 1, F.COLL.STAGE.QSEL, 0, 0), (blkCOLL 1, F.COLL.STAGE.BANK, 0, 0), (blkCOLL 1, F.COLL.LAYOUT.CUR, 0, 65535)] (ring 0 Perc.init [cC] ((words 0x100000 w).write 0x400000 (g.flatMap (leBytes 8)))) with
    routes := if rt then [(8, ⟨0x20000, 1, true⟩)] else [] }
def coBad : List Nat := coW 3 0 0 0 65535 false
def sCoG1 : State := sCoG coBad grp true
def coW2 : List Nat := coW 4 128 0 0 0 true
def sCoG2 : State := sCoG coW2 grp true
def coW3 : List Nat := coW 3 16 0 0 65535 false
def sCoG3 : State := sCoG coW3 [7 + 1 * 2 ^ 16 + 1 * 2 ^ 48] true
def sCoG4 : State := sCoG coW3 grp true
def coW4 : List Nat := coW 2 16 0 0 65535 false
def sCoG4g : State := { sCoG coW4 grp true with mem := (sCoG coW4 grp true).mem.write 0x200040 (List.replicate 64 3) }
def coW5 : List Nat := coW 4 128 0 0 65535 true
def sCoG5 : State := sCoG coW5 grp true
def coW6 : List Nat := coW 5 128 0 0 65535 true
def sCoG6 : State := sCoG coW6 grp false
def sCoG7 : State := sCoG coW6 grp true
def sCoG8 : State := { sCoG coW6 grp true with cmds := [] }
/-! Messages. -/
def hdC (op off : Nat) : CollHdr := ⟨2, 6, op, 0, 0, 0, 0, 128, 2, 0, 65535, 0, 0, 0, off⟩
def co0 (op : Nat) : CoOp := ⟨7, coKey op 8 2, 6, 2, 2, [5, 8], 0, 5, 0, [], [], [], false, 0⟩
def cCa (op : Nat) : Cmd := { cC with phase := .active, words := coW op 128 0 0 65535 true }
def sMs (vc kind : Nat) (i : MsgInfo) (l : List WireBlk) (ops : List CoOp) (cs : List Cmd) : State :=
  { sCoG coW6 grp true with tports := [(9, rxOf vc kind 5 8 i l), (17, tp0)], colls := [(1, ⟨ops, [], []⟩)], cmds := cs }
def sMs1 : State := sMs 0 2 (.coll (hdC 4 0)) blk1 [] []
def hdX : CollHdr := { hdC 4 0 with count := 64 }
def sMs2 (hd : CollHdr) : State := sMs 0 2 (.coll hd) blk1 [co0 5] [cCa 5]
def sMs4 (hd : CollHdr) : State := sMs 1 3 (.coll hd) [] [co0 4] [cCa 4]
def hdR (lay : Nat) : CollHdr := { hdC 5 0 with layout := lay }
def sMs6 (seq : Nat) (m : Bool) : State := sMs 1 7 (.coAbort 5 2 seq m) [] [co0 4] [cCa 4]
def sMs8 : State := { fields [(blkCOLL 1, F.COLL.COLL_LIMIT.LIMIT, 0, 1)] (sMs6 6 true) with clk := clkAt 65536 }

/-! Flash manager 1. -/
def flh0 : Flash := { Flash.init with blocks := 4, pages := 8, turn := 5, first := false, passAt := 100 }
def flm (st : Nat) (f : Flash) : State :=
{ fields [(blkFM 1, F.FM.FM_STATUS.STATE, 0, st), (blkFM 1, F.FM.CAPACITY.LPAGES, 0, 100), (blkFM 1, F.FM.MAP_BASE.BASE, 0, 0x700), (blkFM 1, F.FM.WEAR_CTL.GC_LOW, 0, 4),
      (blkF 9, F.F.CH_STATUS.PRESENT, 0, 2), (blkF 10, F.F.CH_STATUS.PRESENT, 0, 1)] flat with jobs := [job1], flashes := [(1, f)] }
def flW (op n : Nat) : List Nat := w8 op (2 ^ 30 + 3) (if op = 3 then 0 else 0x200000) (if op = 1 then 2 + 1 * 2 ^ 16 else 0) n 0 0 0
def cF : Cmd := cq (.flash 1) 7
def sFl1 (st : Nat) (f : Flash) (w : List Nat) : State := { flm st f with cmds := [cF], mem := words 0x100000 w }
def sFa : State := sFl1 5 flh0 (flW 1 2)
def sFb : State := sFl1 2 flh0 (flW 1 98)
def sFc : State := sFl1 3 flh0 (flW 2 2)
def sFd : State := sFl1 3 flh0 (flW 1 97)
def sFe1 : State := sFl1 2 flh0 (flW 2 2)
def pg (x e : Nat) : Option FPage := some ⟨x, e, 2, 50, 0, 0⟩
def flhM : Flash := { flh0 with map := [(2, pg 9 1), (3, pg 9 1), (4, pg 2 1), (5, pg 9 1)] }
def sFt : State := sFl1 2 flhM (flW 3 2)
def cFa (op n : Nat) : Cmd := { cF with phase := .active, words := flW op n, open_ := List.range n }
def sFlx (op : Nat) (f : Flash) : State := { flm 2 f with cmds := [cFa op 2] }
def sFr0 : State := sFlx 1 flh0
def flhB : Flash := { flh0 with map := [(4, pg 8 1)] }
def sFr1 : State := sFlx 1 flhB
def flhD : Flash := { flhM with data := [(4 * 65536 + 128, 7), (4 * 65536 + 191, 9)] }
def sFr2 : State := sFlx 1 flhD
def bl (l : List (Nat × FBlk)) : Sparse FBlk := l
def flhO : Flash := { flhM with blks := [(blkKey 9 2, ⟨5, .opened, 3, 0⟩)] }
def sFw : State := { sFlx 2 flhO with mem := words 0x210000 [0x0807060504030201] }
/-! Upkeep. -/
def flhG : Flash := { flh0 with blks := [(blkKey 9 1, ⟨5, .full, 8, 0⟩), (blkKey 9 2, ⟨6, .opened, 3, 0⟩)] }
def sG0 : State := flm 2 flhG
def flhG1 : Flash := { flhG with map := [(3, pg 9 1), (4, pg 2 1)], data := [(3 * 65536, 7)] }
def sG1 : State := flm 2 flhG1
def sLv : State := fields [(blkFM 1, F.FM.WEAR_CTL.WEAR_SPREAD, 0, 2)] (flm 2 { flh0 with blks := [(blkKey 9 0, ⟨9, .full, 8, 0⟩), (blkKey 9 1, ⟨5, .full, 8, 0⟩), (blkKey 9 2, ⟨6, .opened, 3, 0⟩), (blkKey 9 3, ⟨7, .full, 8, 0⟩)] })
def sEr0 : State := flm 2 { flhG1 with blks := [(blkKey 9 1, ⟨5, .erasing, 8, 0⟩)] }
def sSc0 : State := flm 2 { flhG1 with scrub := some 5 }
def sSc1 : State := fields [(blkFM 1, F.FM.SCRUB_CTL.REFRESH_BITS, 0, 40), (blkFM 1, F.FM.SCRUB_CTL.RET_HOURS, 0, 60)] (flm 2 { flhG1 with scrub := some 4, hours0 := 110 })
def sSc2 : State := flm 2 { flhG1 with first := true, hours0 := 100000 }
def sFm4 : State := flm 4 flhG1
def sFm1 : State := flm 1 flh0
def sFm1z : State := fields [(blkFM 1, F.FM.CAPACITY.LPAGES, 0, 0)] sFm1

/-! The Cellar of quarter 2. -/
def cel (l : List (Nat × Fld × Nat × Nat)) (s : State) : State := fields l s
def bO (i k m : Nat) : List (Nat × Fld × Nat × Nat) := [(blkCELLAR 2, F.CELLAR.BANK_OWN.OWNER_KIND, 8 * i, k), (blkCELLAR 2, F.CELLAR.BANK_OWN.MODE,
  8 * i, m)]
def bw (kind id mode pow : Nat) : Word := BitVec.ofNat 64 (kind + id * 16 + mode * 256 + pow * 1024)
def sTr : State := { flat with bankTrs := [(2 * 64 + 55, some ⟨4, 3, 3, 0, true⟩)], mem := words (bankAddr 2 55 0x1FFFFF8) [7, 8] }
def sTr2 : State := { sTr with bankTrs := [(2 * 64 + 55, some ⟨4, 15, 3, 2, false⟩)] }
def sTr3 : State := fields [(blkCELLAR 2, F.CELLAR.BANK_STATUS.POWER_STATE, 8 * 55, 2)] { sTr with bankTrs := [(2 * 64 + 55, some ⟨4, 15, 3, 1, false⟩)] }
def sCd : State := fields [(blkCELLAR 2, F.CELLAR.CACHE_STATUS.DISABLING, 0, 1)] State.reset
def sCn : State := fields [(blkCELLAR 2, F.CELLAR.BANK_STATUS.INV, 8 * 3, 0)] flat
def ln0 : Nat := 2 * 0x009000000000 / 256 + 1000
def wayK : Nat := 16 * ((2 * 64 + 48) * 8192 + 17) + 5
def cl (d : Bool) : CLine := ⟨ln0 + 1, d⟩
def withL (d : Bool) (s : State) : State := { s with clines := [(wayK, cl d)], cmem := words (256 * ln0 + 8) [0x77], mem := words (256 * ln0) [1, 2, 3] }
def sCdL : State := withL false sCd
def sCdD : State := withL true sCd
def wb0 (r : Bool) : WBack := ⟨2, 48, ln0, r, ⟨[], [], []⟩, []⟩
def sWb : State := { State.reset with wbacks := [wb0 false] }
def sRg0 : State := fields [(blkCELLAR 2, F.CELLAR.RANGE_START.ADDR, 0, ln0), (blkCELLAR 2, F.CELLAR.RANGE_LEN.LEN, 0, 1)] (withL true State.reset)
def sRgC : State := withL false State.reset
def sRbu : State := { fields [(blkCELLAR 2, F.CELLAR.RANGE_STATUS.BUSY, 0, 1), (blkCELLAR 2, F.CELLAR.BANK_STATUS.INV, 8 * 3, 0)] State.reset with cellars := [(2, ⟨true, 0, 0⟩)], wbacks := [wb0 false] }
def sMt : State := fields (bO 55 0 1) flat
def sMtB : State := { sMt with marches := [(2, some ⟨56, true⟩)] }
def sMd (p : Bool) (b : Nat) : State := { fields [(blkCELLAR 2, F.CELLAR.MARCH_STATUS.BUSY, 0, 1), (blkCELLAR 2, F.CELLAR.BANK_STATUS.BUSY, 8 * 55, 1)] sMt with marches := [(2, some ⟨b, p⟩)], mem := words (bankAddr 2 55 0) [9] }
def sMd1 : State := sMd false 55
def sMd2 : State := sMd true 55
def sMd3 : State := sMd true 57
/-! A stack: number 13, channel 15, pseudo-channel 1. -/
def kR (id a : Nat) (lat : Bool) (since : Nat) : PcReq := ⟨.req id, a, 64, false, lat, since, 5, 0, []⟩
def kW (a since : Nat) : PcReq := ⟨.wb 2 9, a, 64, true, false, since, 0, 0, []⟩
def stkQ (p : Pc) (t : Nat) : State := { flat.setPc 13 15 1 p with clk := ⟨t, 0, 0, false⟩ }
def sQa : State := stkQ { Pc.init with queue := [kR 1 (13 * 0x1800000000) false 999990, kW (13 * 0x1800000000 + 64) 999995, kR 2 (13 * 0x1800000000 + 4096) true 999999] }
  1000000
def sQo : State := stkQ { Pc.init with queue := [kR 1 (13 * 0x1800000000) false 999990, kW (13 * 0x1800000000 + 64) 5, kR 2 (13 * 0x1800000000 + 4096) true 999999] }
  1000000
def sFli (r : PcReq) : State := { stkQ { Pc.init with flight := [r, kR 9 0 false 3] } 50 with misses := [⟨1, ln0, false⟩], fabric := { flat.fabric with reqs := [hq .ld 0x108 8 4], nextId := 2 } }
def sF1 : State := sFli (kR 1 0x108 false 3)
def rFi : PcReq := ⟨.fill 1 ln0, 256 * ln0, 256, false, false, 3, 0, 0, []⟩
def sF2 : State := sFli rFi
def sRef : State := stkQ { Pc.init with rows := [(3, 7), (63, 9)] } 50
def sLaneN (l : List (Nat × Fld × Nat × Nat)) : State := { fields l flat with stkSts := [(13, { StackSt.init with laneN := [(128 * 15 + 64 + 35, 1025)] })] }
def sLn1 : State := sLaneN []
def sLn2 : State := sLaneN [(blkSTACK 13, F.STACK.CH_STATUS.FAILING, 0x40 * 15, 128 + 64 + 3)]
def sCa0 : State := { sF1 with stkSts := [(13, { StackSt.init with caAt := [(15, 20)] })] }
def sRt : State := { sF1 with stkSts := [(13, { StackSt.init with retrain := [3, 15] })] }
def sTg : State := fields [(blkSTACK 13, F.STACK.STACK_CTL.TEST_MODE, 0, 1)] flat
def sTgB : State := fields [(blkSTACK 13, F.STACK.TG_STATUS.BUSY, 0x40 * 15, 1), (blkSTACK 13, F.STACK.TG_CTL.WRITE_PCT, 0x40 * 15, 0)] sTg
def sLw : State := { sQa with gtc := { GtcSt.init with count := 1024000 } }
def scr : Nat := scrubTotal - 1
def sSc : State := { flat with stkSts := [(13, { StackSt.init with scrub := scr })], mem := ⟨[], [], [((scrubAddr 13 scr) / 16, 4), ((scrubAddr 13 scr) / 16 + 2, 1000)]⟩ }
/-! Errors and sensors. -/
def er (c code blk : Nat) : ErrRec := ⟨4, 0, c, code, blk, 99, 0, 0, 0x100, 0, 0, 1⟩
def sErq (c code : Nat) : State := fields [(blkSILPAOT, F.SILPAOT.LOG_HEAD.SEQ, 0, 0xFFFFFFFF)] { sJob job1 with threads := [(0, thr .ready [])], err := { flat.err with queues := [(blkCELLAR 2, [er c code (blkCELLAR 2), er 1 1 2])], nextId := 9 } }
def sErq2 : State := sErq 2 0x30
def sErq3 : State := sErq 3 0xAA
def sErq4 : State := sErq 4 0xB0
def sHot : State := { flat with pow := { flat.pow with hot := [(256 * 5 + 3, 1), (4096 + 7, 1)] } }

/-! Cold start: states of the start-up. -/
def bootAt (b : Boot) : State := { State.reset with pow := { PowSt.init with boot := b } }
def sHeld1 : State := bootAt .held
def sRel1 : State := bootAt .released
def sLed1 : State := bootAt .ledger
def sFw1 : State := bootAt .firmware
def sTrn1 : State := bootAt .training
def sQrt1 : State := bootAt .quarters
def sPrf1 : State := bootAt .profile
def sWrm1 : State := bootAt .warm
def sBusyAll : State := { sJob job1 with threads := [(0, thr .ready [])], mem := words 0x100 [7], trust := { TrustSt.init with ledger := [⟨0, 1, 0, 0, 1, 0, 0, 0⟩] }, pending := [.flitHop 3 0 []] }
def badB : FwBank := { FwBank.init with ok := false }
def sLed2 : State := { sLed1 with trust := { TrustSt.init with bankA := badB, bankB := badB } }
def sLed3 : State := { sLed1 with trust := { TrustSt.init with bankB := ⟨true, [1, 2, 3], [4, 5, 6]⟩, sel := true } }
def sTrn2 : State := fields [(blkQCTL 2, F.QCTL.Q_STATUS.STATE, 0, 5)] sTrn1
/-! Resets. -/
def sWork : State := { sBusyAll with clk := ⟨99, 0, 0, false⟩ }
def sWdog : State := { sWork with pow := { PowSt.init with wdN := 1310720 * 4 }, cmds := [{ cF with phase := .active }] }
def sWdog1 : State := fields [(blkHCTL, F.HCTL.MGMT_WD.LIMIT, 0, 4)] sWdog
def sStb : State := fields [(blkQCTL 2, F.QCTL.Q_STATUS.STATE, 0, 2)] flat
def sQr : State := { sWork with pow := { PowSt.init with qreset := 4 }, objs := [(2 * 65536 + 5, Obj.init), (65536, Obj.init)] }
def sCr : State := { sWork with pow := { PowSt.init with creset := 3 * 2 ^ 47 }, mem := words (scratchAddr (64 * 47) 0) [5, 6] }
/-! Power. -/
def sPw (p : PowSt) : State := { flat with pow := p }
def sPwA : State := sPw { PowSt.init with level := 5, juncWin := 40, stackWin := 40 }
def sPwB : State := sPw { PowSt.init with level := 5, juncWin := 200, stackWin := 40, alertN := false }
def sIdl : State := fields [(blkQCTL 2, F.QCTL.Q_CTL.CL_OFF_EN, 0, 1), (blkQCTL 2, F.QCTL.IDLE_LIMIT.LIMIT, 0, 2)] { flat with clk := ⟨131099, 0, 0, false⟩, pow := { PowSt.init with idleAt := [(47, 28)] } }
def sOff : State := fields [(blkQCTL 2, F.QCTL.CLUSTER_PWR.OFF, 0, 2 ^ 15)] { flat with ctxs := [(7, Ctx.init)], mem := words (scratchAddr (64 * 47) 0) [5, 6] }
def sOwn2 : State := own 0 4 flat
def sStx : State := fields [(blkQCTL 2, F.QCTL.Q_STATUS.STATE, 0, 4)] flat
/-! Signed requests. -/
def sRqB : State := fields [(blkSILPAOT, F.SILPAOT.REQ_STATUS.BUSY, 16, 1)] flat
def sRq2 : State := { flat with trust := { TrustSt.init with reqs := [⟨1, 0x200, 3⟩, ⟨1, 0x100, 40⟩] }, clk := ⟨100, 0, 0, false⟩ }
def rqB (kind sg a0 a1 : Nat) (key : Nat) : List Nat := [0x53514C44 + kind * 2 ^ 32 + sg * 2 ^ 40, 0, 0, 0, a0, a1, 0, 0, key, 0, 0, 0]
def tq : TrustReq := ⟨1, 0x100000, 0⟩
def sTq (kind sg a0 a1 key : Nat) (t : TrustSt) : State := { flat with mem := words 0x100000 (rqB kind sg a0 a1 key), trust := { t with reqs := [tq, ⟨0, 0x200, 7⟩] } }
def rst2 : List TrustReq := [⟨0, 0x200, 7⟩]
def sTq2 : State := sTq 2 1 255 0 0 TrustSt.init
def sTq3 : State := sTq 3 1 0 0 0x77 TrustSt.init
def sTq4 : State := sTq 4 1 2 0 0 TrustSt.init
def sTq4b : State := sTq 4 1 3 0 0 TrustSt.init
def img (k : Nat) : List Nat := [0x494D4731 + k * 2 ^ 32 + 5 * 2 ^ 48, 64, 0, 0, 0, 0, 0, 0] ++ List.replicate 16 0
def sTq1 : State := { sTq 1 1 0x200000 576 0 TrustSt.init with mem := (words 0x100000 (rqB 1 1 0x200000 576 0)).write 0x200000 ((img 1 ++ img 2 ++ img 3).flatMap (leBytes 8)) }
/-! Attestation. -/
def sAt (n : Nat) (t : TrustSt) : State := { sUp with trust := { t with spdm1 := ⟨n, .none⟩ } }
def sAt0 : State := sAt 0 TrustSt.init
def sAt1 : State := sAt 1 TrustSt.init
def sAt2 : State := sAt 2 TrustSt.init
def sAt3 : State := sAt 3 TrustSt.init
def sAtE : State := sAt 3 { TrustSt.init with erased := true }
def sAtM : State := { sAt0 with pow := { PowSt.init with mgmtReset := true } }
/-! The block. -/
def sPend : State := { flat with pending := [.flitHop 3 0 [], .flitHop 4 0 []] }

/-! ### Every hypothesis of every statement is met -/
theorem hyps_ScalarResults :
(Issues (cpu alu (Instr.add t0 (0 : BitVec 4) (4 : BitVec 5) (1 : BitVec 5) (2 : BitVec 5))) t0 (Instr.add t0 (0 : BitVec 4) (4 : BitVec 5) (1 :
      BitVec 5) (2 : BitVec 5), ((cpu alu (Instr.add t0 (0 : BitVec 4) (4 : BitVec 5) (1 : BitVec 5) (2 : BitVec 5))).thread t0.key).getX (1 :
      BitVec 5) + ((cpu alu (Instr.add t0 (0 : BitVec 4) (4 : BitVec 5) (1 : BitVec 5) (2 : BitVec 5))).thread t0.key).getX (2 : BitVec 5)).1 (0 :
      BitVec 4)) ∧
(Issues (cpu alu (Instr.sel t0 (0 : BitVec 4) (4 : BitVec 5) (1 : BitVec 5) (2 : BitVec 5))) t0 (Instr.sel t0 (0 : BitVec 4) (4 : BitVec 5) (1 :
      BitVec 5) (2 : BitVec 5)) (0 : BitVec 4)) ∧
(Issues (cpu alu (Instr.addi t0 (0 : BitVec 4) (4 : BitVec 5) (1 : BitVec 5) (2048 : BitVec 12))) t0 (Instr.addi t0 (0 : BitVec 4) (4 : BitVec 5) (1
      : BitVec 5) (2048 : BitVec 12), ((cpu alu (Instr.addi t0 (0 : BitVec 4) (4 : BitVec 5) (1 : BitVec 5) (2048 : BitVec 12))).thread t0.key).getX
      (1 : BitVec 5) + BitVec.signExtend 64 (2048 : BitVec 12)).1 (0 : BitVec 4)) ∧
(Issues (cpu alu (Instr.movw t0 (4 : BitVec 5) (3 : BitVec 2) true (4660 : BitVec 16))) t0 (Instr.movw t0 (4 : BitVec 5) (3 : BitVec 2) true (4660 :
      BitVec 16)) (0 : BitVec 4)) := 
  by and_intros <;> decide +kernel
theorem hyps_PredicatesAndControl :
(Issues (cpu alu (Instr.cmpEq t0 (0 : BitVec 4) (3 : BitVec 3) (1 : BitVec 5) (2 : BitVec 5))) t0 (Instr.cmpEq t0 (0 : BitVec 4) (3 : BitVec 3) (1 :
      BitVec 5) (2 : BitVec 5), decide (((cpu alu (Instr.cmpEq t0 (0 : BitVec 4) (3 : BitVec 3) (1 : BitVec 5) (2 : BitVec 5))).thread t0.key).getX
      (1 : BitVec 5) = ((cpu alu (Instr.cmpEq t0 (0 : BitVec 4) (3 : BitVec 3) (1 : BitVec 5) (2 : BitVec 5))).thread t0.key).getX (2 : BitVec
      5))).1 (0 : BitVec 4)) ∧
    (Issues (cpu alu (Instr.br t0 (0 : BitVec 4) (4194303 : BitVec 22))) t0 (Instr.br t0 (0 : BitVec 4) (4194303 : BitVec 22)) (0 : BitVec 4)) ∧
    (Issues (cpu alu (Instr.call t0 (0 : BitVec 4) (2097151 : BitVec 22))) t0 (Instr.call t0 (0 : BitVec 4) (2097151 : BitVec 22)) (0 : BitVec 4)) ∧
((BitVec.toNat (((cpu alu (Instr.jr t0 (0 : BitVec 4) (4 : BitVec 5) (3 : BitVec 5))).thread t0.key).getX (3 : BitVec 5)) % 4 = 0) ∧ (Issues (cpu
      alu (Instr.jr t0 (0 : BitVec 4) (4 : BitVec 5) (3 : BitVec 5))) t0 (Instr.jr t0 (0 : BitVec 4) (4 : BitVec 5) (3 : BitVec 5)) (0 : BitVec 4)))
      ∧
    (Issues sAlu t0 (Instr.nop t0 (0 : BitVec 4)) (0 : BitVec 4)) ∧
(Issues (cpu alu (Instr.rdsys t0 (0 : BitVec 4) (4 : BitVec 5) (3 : Fin 5))) t0 (Instr.rdsys t0 (0 : BitVec 4) (4 : BitVec 5) ((3 : Fin 5), 0).1) (0
      : BitVec 4)) ∧
    (Issues (cpu alu (Instr.yield t0 (0 : BitVec 4))) t0 (Instr.yield t0 (0 : BitVec 4)) (0 : BitVec 4)) ∧
    ((((one (TState.stalled 0) []).thread t0.key).st = TState.stalled 0) ∧ (0 ≤ (one (TState.stalled 0) []).clk.arith)) ∧
(((cpu alu (Instr.add t0 (8 : BitVec 4) (1 : BitVec 5) (2 : BitVec 5) (3 : BitVec 5))).fetches t0 (Instr.add t0 (8 : BitVec 4) (1 : BitVec 5) (2 :
      BitVec 5) (3 : BitVec 5)) = true) ∧ ((cpu alu (Instr.add t0 (8 : BitVec 4) (1 : BitVec 5) (2 : BitVec 5) (3 : BitVec 5))).canIssue t0 = true)
      ∧ (((cpu alu (Instr.add t0 (8 : BitVec 4) (1 : BitVec 5) (2 : BitVec 5) (3 : BitVec 5))).thread t0.key).guard (8 : BitVec 4) = false)) ∧
    (((one TState.ending []).canIssue t0 = false) ∧ (((one TState.ending []).thread t0.key).st ≠ TState.held)) := 
  by and_intros <;> decide +kernel
theorem hyps_LoadsAndStores :
((region (BitVec.toNat (memAddr (((lsMem (Instr.ld t0 (0 : BitVec 4) (5 : BitVec 5) (1 : BitVec 5) (3 : BitVec 2) false (0 : BitVec 9))).thread
      t0.key).getX (1 : BitVec 5)) (0 : BitVec 9) (3 : BitVec 2))) = Region.scratch (↑t0.core : Nat)) ∧ (passesScratch (BitVec.toNat (memAddr
      (((lsMem (Instr.ld t0 (0 : BitVec 4) (5 : BitVec 5) (1 : BitVec 5) (3 : BitVec 2) false (0 : BitVec 9))).thread t0.key).getX (1 : BitVec 5))
      (0 : BitVec 9) (3 : BitVec 2))) (2 ^ BitVec.toNat (3 : BitVec 2)) = false) ∧ (∀ x ∈ (lsMem (Instr.ld t0 (0 : BitVec 4) (5 : BitVec 5) (1 :
      BitVec 5) (3 : BitVec 2) false (0 : BitVec 9))).oadds, x.addr + 4 ≤ BitVec.toNat (memAddr (((lsMem (Instr.ld t0 (0 : BitVec 4) (5 : BitVec 5)
      (1 : BitVec 5) (3 : BitVec 2) false (0 : BitVec 9))).thread t0.key).getX (1 : BitVec 5)) (0 : BitVec 9) (3 : BitVec 2)) / 16 * 16 ∨
      (BitVec.toNat (memAddr (((lsMem (Instr.ld t0 (0 : BitVec 4) (5 : BitVec 5) (1 : BitVec 5) (3 : BitVec 2) false (0 : BitVec 9))).thread
      t0.key).getX (1 : BitVec 5)) (0 : BitVec 9) (3 : BitVec 2)) + 2 ^ BitVec.toNat (3 : BitVec 2) + 15) / 16 * 16 ≤ x.addr) ∧ (Issues (lsMem
      (Instr.ld t0 (0 : BitVec 4) (5 : BitVec 5) (1 : BitVec 5) (3 : BitVec 2) false (0 : BitVec 9))) t0 (Instr.ld t0 (0 : BitVec 4) (5 : BitVec 5)
      (1 : BitVec 5) (3 : BitVec 2) false (0 : BitVec 9)) (0 : BitVec 4)) ∧ ((lsMem (Instr.ld t0 (0 : BitVec 4) (5 : BitVec 5) (1 : BitVec 5) (3 :
      BitVec 2) false (0 : BitVec 9))).heldScratch t0.key (BitVec.toNat (memAddr (((lsMem (Instr.ld t0 (0 : BitVec 4) (5 : BitVec 5) (1 : BitVec 5)
      (3 : BitVec 2) false (0 : BitVec 9))).thread t0.key).getX (1 : BitVec 5)) (0 : BitVec 9) (3 : BitVec 2)) % 262144) (2 ^ BitVec.toNat (3 :
      BitVec 2)) false = false) ∧ ((lsMem (Instr.ld t0 (0 : BitVec 4) (5 : BitVec 5) (1 : BitVec 5) (3 : BitVec 2) false (0 : BitVec 9))).heldFabric
      t0.key (BitVec.toNat (memAddr (((lsMem (Instr.ld t0 (0 : BitVec 4) (5 : BitVec 5) (1 : BitVec 5) (3 : BitVec 2) false (0 : BitVec 9))).thread
      t0.key).getX (1 : BitVec 5)) (0 : BitVec 9) (3 : BitVec 2))) (2 ^ BitVec.toNat (3 : BitVec 2)) false = false) ∧ ((lsMem (Instr.ld t0 (0 :
      BitVec 4) (5 : BitVec 5) (1 : BitVec 5) (3 : BitVec 2) false (0 : BitVec 9))).mem.poisoned (BitVec.toNat (memAddr (((lsMem (Instr.ld t0 (0 :
      BitVec 4) (5 : BitVec 5) (1 : BitVec 5) (3 : BitVec 2) false (0 : BitVec 9))).thread t0.key).getX (1 : BitVec 5)) (0 : BitVec 9) (3 : BitVec
      2))) (2 ^ BitVec.toNat (3 : BitVec 2)) = false)) ∧
((region (BitVec.toNat (memAddr (((lsMem (Instr.st t0 (0 : BitVec 4) (3 : BitVec 5) (1 : BitVec 5) (1 : BitVec 2) (1 : BitVec 9))).thread
      t0.key).getX (1 : BitVec 5)) (1 : BitVec 9) (1 : BitVec 2))) = Region.scratch (↑t0.core : Nat)) ∧ (passesScratch (BitVec.toNat (memAddr
      (((lsMem (Instr.st t0 (0 : BitVec 4) (3 : BitVec 5) (1 : BitVec 5) (1 : BitVec 2) (1 : BitVec 9))).thread t0.key).getX (1 : BitVec 5)) (1 :
      BitVec 9) (1 : BitVec 2))) (2 ^ BitVec.toNat (1 : BitVec 2)) = false) ∧ (∀ x ∈ (lsMem (Instr.st t0 (0 : BitVec 4) (3 : BitVec 5) (1 : BitVec
      5) (1 : BitVec 2) (1 : BitVec 9))).oadds, x.addr + 4 ≤ BitVec.toNat (memAddr (((lsMem (Instr.st t0 (0 : BitVec 4) (3 : BitVec 5) (1 : BitVec
      5) (1 : BitVec 2) (1 : BitVec 9))).thread t0.key).getX (1 : BitVec 5)) (1 : BitVec 9) (1 : BitVec 2)) / 16 * 16 ∨ (BitVec.toNat (memAddr
      (((lsMem (Instr.st t0 (0 : BitVec 4) (3 : BitVec 5) (1 : BitVec 5) (1 : BitVec 2) (1 : BitVec 9))).thread t0.key).getX (1 : BitVec 5)) (1 :
      BitVec 9) (1 : BitVec 2)) + 2 ^ BitVec.toNat (1 : BitVec 2) + 15) / 16 * 16 ≤ x.addr) ∧ (Issues (lsMem (Instr.st t0 (0 : BitVec 4) (3 : BitVec
      5) (1 : BitVec 5) (1 : BitVec 2) (1 : BitVec 9))) t0 (Instr.st t0 (0 : BitVec 4) (3 : BitVec 5) (1 : BitVec 5) (1 : BitVec 2) (1 : BitVec 9))
      (0 : BitVec 4)) ∧ ((lsMem (Instr.st t0 (0 : BitVec 4) (3 : BitVec 5) (1 : BitVec 5) (1 : BitVec 2) (1 : BitVec 9))).heldScratch t0.key
      (BitVec.toNat (memAddr (((lsMem (Instr.st t0 (0 : BitVec 4) (3 : BitVec 5) (1 : BitVec 5) (1 : BitVec 2) (1 : BitVec 9))).thread t0.key).getX
      (1 : BitVec 5)) (1 : BitVec 9) (1 : BitVec 2)) % 262144) (2 ^ BitVec.toNat (1 : BitVec 2)) true = false) ∧ ((lsMem (Instr.st t0 (0 : BitVec 4)
      (3 : BitVec 5) (1 : BitVec 5) (1 : BitVec 2) (1 : BitVec 9))).heldFabric t0.key (BitVec.toNat (memAddr (((lsMem (Instr.st t0 (0 : BitVec 4) (3
      : BitVec 5) (1 : BitVec 5) (1 : BitVec 2) (1 : BitVec 9))).thread t0.key).getX (1 : BitVec 5)) (1 : BitVec 9) (1 : BitVec 2))) (2 ^
      BitVec.toNat (1 : BitVec 2)) true = false)) ∧
((passesScratch (BitVec.toNat (memAddr (((lsMem (Instr.ld t0 (0 : BitVec 4) (5 : BitVec 5) (2 : BitVec 5) (2 : BitVec 2) false (1 : BitVec
      9))).thread t0.key).getX (2 : BitVec 5)) (1 : BitVec 9) (2 : BitVec 2))) (2 ^ BitVec.toNat (2 : BitVec 2)) = false) ∧ (unlisted (BitVec.toNat
      (memAddr (((lsMem (Instr.ld t0 (0 : BitVec 4) (5 : BitVec 5) (2 : BitVec 5) (2 : BitVec 2) false (1 : BitVec 9))).thread t0.key).getX (2 :
      BitVec 5)) (1 : BitVec 9) (2 : BitVec 2))) = false) ∧ (rejectedAt (BitVec.toNat (memAddr (((lsMem (Instr.ld t0 (0 : BitVec 4) (5 : BitVec 5)
      (2 : BitVec 5) (2 : BitVec 2) false (1 : BitVec 9))).thread t0.key).getX (2 : BitVec 5)) (1 : BitVec 9) (2 : BitVec 2))) (2 ^ BitVec.toNat (2
      : BitVec 2)) false = none) ∧ (region (BitVec.toNat (memAddr (((lsMem (Instr.ld t0 (0 : BitVec 4) (5 : BitVec 5) (2 : BitVec 5) (2 : BitVec 2)
      false (1 : BitVec 9))).thread t0.key).getX (2 : BitVec 5)) (1 : BitVec 9) (2 : BitVec 2))) ≠ Region.scratch (↑t0.core : Nat)) ∧ (Issues (lsMem
      (Instr.ld t0 (0 : BitVec 4) (5 : BitVec 5) (2 : BitVec 5) (2 : BitVec 2) false (1 : BitVec 9))) t0 (Instr.ld t0 (0 : BitVec 4) (5 : BitVec 5)
      (2 : BitVec 5) (2 : BitVec 2) false (1 : BitVec 9)) (0 : BitVec 4)) ∧ ((lsMem (Instr.ld t0 (0 : BitVec 4) (5 : BitVec 5) (2 : BitVec 5) (2 :
      BitVec 2) false (1 : BitVec 9))).heldFabric t0.key (BitVec.toNat (memAddr (((lsMem (Instr.ld t0 (0 : BitVec 4) (5 : BitVec 5) (2 : BitVec 5)
      (2 : BitVec 2) false (1 : BitVec 9))).thread t0.key).getX (2 : BitVec 5)) (1 : BitVec 9) (2 : BitVec 2))) (2 ^ BitVec.toNat (2 : BitVec 2))
      false = false)) ∧
((passesScratch (BitVec.toNat (memAddr (((lsMem (Instr.st t0 (0 : BitVec 4) (3 : BitVec 5) (2 : BitVec 5) (3 : BitVec 2) (1 : BitVec 9))).thread
      t0.key).getX (2 : BitVec 5)) (1 : BitVec 9) (3 : BitVec 2))) (2 ^ BitVec.toNat (3 : BitVec 2)) = false) ∧ (unlisted (BitVec.toNat (memAddr
      (((lsMem (Instr.st t0 (0 : BitVec 4) (3 : BitVec 5) (2 : BitVec 5) (3 : BitVec 2) (1 : BitVec 9))).thread t0.key).getX (2 : BitVec 5)) (1 :
      BitVec 9) (3 : BitVec 2))) = false) ∧ (rejectedAt (BitVec.toNat (memAddr (((lsMem (Instr.st t0 (0 : BitVec 4) (3 : BitVec 5) (2 : BitVec 5) (3
      : BitVec 2) (1 : BitVec 9))).thread t0.key).getX (2 : BitVec 5)) (1 : BitVec 9) (3 : BitVec 2))) (2 ^ BitVec.toNat (3 : BitVec 2)) false =
      none) ∧ (region (BitVec.toNat (memAddr (((lsMem (Instr.st t0 (0 : BitVec 4) (3 : BitVec 5) (2 : BitVec 5) (3 : BitVec 2) (1 : BitVec
      9))).thread t0.key).getX (2 : BitVec 5)) (1 : BitVec 9) (3 : BitVec 2))) ≠ Region.scratch (↑t0.core : Nat)) ∧ (Issues (lsMem (Instr.st t0 (0 :
      BitVec 4) (3 : BitVec 5) (2 : BitVec 5) (3 : BitVec 2) (1 : BitVec 9))) t0 (Instr.st t0 (0 : BitVec 4) (3 : BitVec 5) (2 : BitVec 5) (3 :
      BitVec 2) (1 : BitVec 9)) (0 : BitVec 4)) ∧ ((lsMem (Instr.st t0 (0 : BitVec 4) (3 : BitVec 5) (2 : BitVec 5) (3 : BitVec 2) (1 : BitVec
      9))).heldFabric t0.key (BitVec.toNat (memAddr (((lsMem (Instr.st t0 (0 : BitVec 4) (3 : BitVec 5) (2 : BitVec 5) (3 : BitVec 2) (1 : BitVec
      9))).thread t0.key).getX (2 : BitVec 5)) (1 : BitVec 9) (3 : BitVec 2))) (2 ^ BitVec.toNat (3 : BitVec 2)) true = false) ∧ (Option.any (fun q
      => !bit ((lsMem (Instr.st t0 (0 : BitVec 4) (3 : BitVec 5) (2 : BitVec 5) (3 : BitVec 2) (1 : BitVec 9))).qmaskOf ((lsMem (Instr.st t0 (0 :
      BitVec 4) (3 : BitVec 5) (2 : BitVec 5) (3 : BitVec 2) (1 : BitVec 9))).thread t0.key).job) q) (grindQ (BitVec.toNat (memAddr (((lsMem
      (Instr.st t0 (0 : BitVec 4) (3 : BitVec 5) (2 : BitVec 5) (3 : BitVec 2) (1 : BitVec 9))).thread t0.key).getX (2 : BitVec 5)) (1 : BitVec 9)
      (3 : BitVec 2)))) = false) ∧ (((submitUnit (BitVec.toNat (memAddr (((lsMem (Instr.st t0 (0 : BitVec 4) (3 : BitVec 5) (2 : BitVec 5) (3 :
      BitVec 2) (1 : BitVec 9))).thread t0.key).getX (2 : BitVec 5)) (1 : BitVec 9) (3 : BitVec 2)))).isSome && 2 ^ BitVec.toNat (3 : BitVec 2) == 8
      && (lsMem (Instr.st t0 (0 : BitVec 4) (3 : BitVec 5) (2 : BitVec 5) (3 : BitVec 2) (1 : BitVec 9))).unacked t0.key) = false)) := 
  by and_intros <;> decide +kernel
theorem hyps_AtomicsAndAnswers :
((Issues (lsMem (Instr.amoFadd32 t0 (0 : BitVec 4) (0 : BitVec 5) (2 : BitVec 5) (3 : BitVec 5))) t0 (Instr.amoFadd32 t0 (0 : BitVec 4) (0 : BitVec
      5) (2 : BitVec 5) (3 : BitVec 5), 0, 4).1 (0 : BitVec 4)) ∧ (BitVec.toNat (((lsMem (Instr.amoFadd32 t0 (0 : BitVec 4) (0 : BitVec 5) (2 :
      BitVec 5) (3 : BitVec 5))).thread t0.key).getX (2 : BitVec 5)) % (Instr.amoFadd32 t0 (0 : BitVec 4) (0 : BitVec 5) (2 : BitVec 5) (3 : BitVec
      5), 0, 4).2.2 = 0) ∧ ((Instr.amoFadd32 t0 (0 : BitVec 4) (0 : BitVec 5) (2 : BitVec 5) (3 : BitVec 5), 0, 4).2.1 = 0 → modeDet ((lsMem
      (Instr.amoFadd32 t0 (0 : BitVec 4) (0 : BitVec 5) (2 : BitVec 5) (3 : BitVec 5))).thread t0.key).mode = true → (0 : BitVec 5) = (0 : BitVec
      5)) ∧ (rejectedAt (BitVec.toNat (((lsMem (Instr.amoFadd32 t0 (0 : BitVec 4) (0 : BitVec 5) (2 : BitVec 5) (3 : BitVec 5))).thread t0.key).getX
      (2 : BitVec 5))) (Instr.amoFadd32 t0 (0 : BitVec 4) (0 : BitVec 5) (2 : BitVec 5) (3 : BitVec 5), 0, 4).2.2 true = none) ∧ (region
      (BitVec.toNat (((lsMem (Instr.amoFadd32 t0 (0 : BitVec 4) (0 : BitVec 5) (2 : BitVec 5) (3 : BitVec 5))).thread t0.key).getX (2 : BitVec 5)))
      = Region.scratch (↑t0.core : Nat) → (lsMem (Instr.amoFadd32 t0 (0 : BitVec 4) (0 : BitVec 5) (2 : BitVec 5) (3 : BitVec 5))).heldScratch
      t0.key (BitVec.toNat (((lsMem (Instr.amoFadd32 t0 (0 : BitVec 4) (0 : BitVec 5) (2 : BitVec 5) (3 : BitVec 5))).thread t0.key).getX (2 :
      BitVec 5)) % 262144) (Instr.amoFadd32 t0 (0 : BitVec 4) (0 : BitVec 5) (2 : BitVec 5) (3 : BitVec 5), 0, 4).2.2 true = false) ∧ ((lsMem
      (Instr.amoFadd32 t0 (0 : BitVec 4) (0 : BitVec 5) (2 : BitVec 5) (3 : BitVec 5))).heldFabric t0.key (BitVec.toNat (((lsMem (Instr.amoFadd32 t0
      (0 : BitVec 4) (0 : BitVec 5) (2 : BitVec 5) (3 : BitVec 5))).thread t0.key).getX (2 : BitVec 5))) (Instr.amoFadd32 t0 (0 : BitVec 4) (0 :
      BitVec 5) (2 : BitVec 5) (3 : BitVec 5), 0, 4).2.2 true = false)) ∧
((6 < 32) ∧ ((sBack.thread t0.key).st = TState.parked (Park.load 6 true 4)) ∧ (∀ r ∈ sBack.reqsOf t0.key Req.isLd, sBack.answered r = true) ∧
      (gather (sBack.reqsOf t0.key Req.isLd) = Gathered.value 2147483648)) ∧
((6 < 32) ∧ ((sAmoBack.thread t0.key).st = TState.parked (Park.amo 6)) ∧ (∀ r ∈ sAmoBack.reqsOf t0.key fun r => r.isAmo && r.rd != 0,
      sAmoBack.answered r = true) ∧ (gather (sAmoBack.reqsOf t0.key fun r => r.isAmo && r.rd != 0) = Gathered.value 9)) := 
  by and_intros <;> decide +kernel
theorem hyps_TaskEnds :
    (Issues (cpu alu (Instr.taskEnd t0 (0 : BitVec 4))) t0 (Instr.taskEnd t0 (0 : BitVec 4)) (0 : BitVec 4)) ∧
    ((((one TState.ending []).thread t0.key).st = TState.ending) ∧ ((one TState.ending []).drained t0.key = true)) ∧
((((one TState.stopped []).thread t0.key).st = TState.stopped) ∧ (∀ r ∈ (one TState.stopped []).reqsOf t0.key fun x => true, (one TState.stopped
      []).answered r = true)) ∧
((∀ (g' : BitVec 4), classify (0 : BitVec 32) = WordKind.illegal (some g') → ((oneW TState.ready alu (0 : BitVec 32)).thread t0.key).guard g' =
      true) ∧ (classify (0 : BitVec 32) ≠ WordKind.legal) ∧ ((oneW TState.ready alu (0 : BitVec 32)).instrWord t0.key = (0 : BitVec 32)) ∧ ((oneW
      TState.ready alu (0 : BitVec 32)).canIssue t0 = true)) := 
  by and_intros <;> decide +kernel
theorem hyps_TaskStarts :
    ((sEntry.alive = true) ∧ ((sEntry.core 0).run = some 3) ∧ (sEntry.freeThread 0 = some 0)) := 
  by and_intros <;> decide +kernel
theorem hyps_CoreCaches :
((sIdle.fbit (blkCLUS (coreCl 0)) F.CLUS.CLUS_CTL.GATE_ENABLE = true) ∧ (sIdle.coreIdle 0 = true) ∧ ((sIdle.core 0).busyAt + 8 < sIdle.clk.arith)) ∧
(((sNoLine.thread t0.key).st = TState.parked Park.fetch) ∧ (∀ r ∈ sNoLine.reqsOf t0.key Req.isFetch, sNoLine.answered r = true) ∧ (gatherLine
      (sNoLine.reqsOf t0.key Req.isFetch) = some (0, 0)) ∧ (t0.key ∉ (sNoLine.core (↑t0.core : Nat)).stale)) ∧
    (flat.blockGone (blkCLUS 63) = false) := 
  by and_intros <;> decide +kernel
theorem hyps_TileIssue :
((Issues (sArr Arr.init (Instr.tmma t0 (0 : BitVec 4) (1 : BitVec 5) (2 : BitVec 5) (2 : Fin 4) true)) t0 (Instr.tmma t0 (0 : BitVec 4) (1 : BitVec
      5) (2 : BitVec 5) (2 : Fin 4) true, TileKind.mma).1 (0 : BitVec 4)) ∧ (((sArr Arr.init (Instr.tmma t0 (0 : BitVec 4) (1 : BitVec 5) (2 :
      BitVec 5) (2 : Fin 4) true)).arr (arrKey (↑t0.core : Nat) 2)).bound = if true = true then none else some t0.key) ∧ (((sArr Arr.init
      (Instr.tmma t0 (0 : BitVec 4) (1 : BitVec 5) (2 : BitVec 5) (2 : Fin 4) true)).arr (arrKey (↑t0.core : Nat) 2)).queue.length < 4)) ∧
((Issues (sArr arrOther (Instr.tmma t0 (0 : BitVec 4) (1 : BitVec 5) (2 : BitVec 5) (2 : Fin 4) true)) t0 (Instr.tmma t0 (0 : BitVec 4) (1 : BitVec
      5) (2 : BitVec 5) (2 : Fin 4) true, TileKind.mma).1 (0 : BitVec 4)) ∧ (true = true) ∧ (5 ≠ t0.key) ∧ (((sArr arrOther (Instr.tmma t0 (0 :
      BitVec 4) (1 : BitVec 5) (2 : BitVec 5) (2 : Fin 4) true)).arr (arrKey (↑t0.core : Nat) 2)).bound = some 5)) ∧
((Issues (sArr (arrFull none) (Instr.tmma t0 (0 : BitVec 4) (1 : BitVec 5) (2 : BitVec 5) (2 : Fin 4) true)) t0 (Instr.tmma t0 (0 : BitVec 4) (1 :
      BitVec 5) (2 : BitVec 5) (2 : Fin 4) true, TileKind.mma).1 (0 : BitVec 4)) ∧ (((sArr (arrFull none) (Instr.tmma t0 (0 : BitVec 4) (1 : BitVec
      5) (2 : BitVec 5) (2 : Fin 4) true)).arr (arrKey (↑t0.core : Nat) 2)).bound = if true = true then none else some t0.key) ∧ (4 ≤ ((sArr
      (arrFull none) (Instr.tmma t0 (0 : BitVec 4) (1 : BitVec 5) (2 : BitVec 5) (2 : Fin 4) true)).arr (arrKey (↑t0.core : Nat) 2)).queue.length))
      ∧
((Issues (sArr arrMine (Instr.tmma t0 (0 : BitVec 4) (1 : BitVec 5) (2 : BitVec 5) (2 : Fin 4) true)) t0 (Instr.tmma t0 (0 : BitVec 4) (1 : BitVec
      5) (2 : BitVec 5) (2 : Fin 4) true, TileKind.mma).1 (0 : BitVec 4)) ∧ (true = true) ∧ (((sArr arrMine (Instr.tmma t0 (0 : BitVec 4) (1 :
      BitVec 5) (2 : BitVec 5) (2 : Fin 4) true)).arr (arrKey (↑t0.core : Nat) 2)).bound = some t0.key) ∧ (((sArr arrMine (Instr.tmma t0 (0 : BitVec
      4) (1 : BitVec 5) (2 : BitVec 5) (2 : Fin 4) true)).arr (arrKey (↑t0.core : Nat) 2)).restart.queue.length < 4)) ∧
((Issues (sArr arrMine (Instr.tdrain t0 (0 : BitVec 4) (1 : BitVec 5) (2 : BitVec 5) (2 : Fin 4))) t0 (Instr.tdrain t0 (0 : BitVec 4) (1 : BitVec 5)
      (2 : BitVec 5) (2 : Fin 4)) (0 : BitVec 4)) ∧ (odDen (BitVec.toNat (((sArr arrMine (Instr.tdrain t0 (0 : BitVec 4) (1 : BitVec 5) (2 : BitVec
      5) (2 : Fin 4))).thread t0.key).getX (1 : BitVec 5))) = true → (2 : BitVec 5) ≠ (31 : BitVec 5)) ∧ (((sArr arrMine (Instr.tdrain t0 (0 :
      BitVec 4) (1 : BitVec 5) (2 : BitVec 5) (2 : Fin 4))).arr (arrKey (↑t0.core : Nat) 2)).bound = some t0.key) ∧ (((sArr arrMine (Instr.tdrain t0
      (0 : BitVec 4) (1 : BitVec 5) (2 : BitVec 5) (2 : Fin 4))).arr (arrKey (↑t0.core : Nat) 2)).queue.length < 4)) := 
  by and_intros <;> decide +kernel
theorem hyps_TileProducts :
(((sTile.arr (arrKey 0 2)).queue = [opI]) ∧ (sTile.enabled = true) ∧ (sTile.headFree (sTile.pendTile opI) = true) ∧ (sTile.oadds = []) ∧ (opI.kind =
      TileKind.mma) ∧ (opI.start = true) ∧ (opI.done = 0) ∧ (mmaOk opI = true) ∧ (∀ c ∈ opCws sTile opI, sTile.mem.cw c ≠ CwState.bad ∧ sTile.mem.cw
      c ≠ CwState.poison)) := 
  by and_intros <;> decide +kernel
theorem hyps_ArraysAndDigests :
((sSeg.enabled = true) ∧ ((sSeg.arr (arrKey 0 2)).queue = [opF]) ∧ ((sSeg.arr (arrKey 0 2)).segCount = 2 ^ 20) ∧ (opF.kind ≠ TileKind.drain) ∧
      (opF.start = false ∨ opF.done ≠ 0) ∧ (tdFmt opF.b ≠ 5)) ∧
((sDrain.enabled = true) ∧ ((sDrain.arr (arrKey 0 2)).queue = [opD]) ∧ (opD.kind = TileKind.drain) ∧ (opD.done = 1) ∧ ((sDrain.arr (arrKey 0
      2)).shadow = none)) ∧
    ((sShadow.enabled = true) ∧ ((sShadow.arr (arrKey 0 2)).shadow = some sh0) ∧ (sShadow.oadds = [])) ∧
((sSteal.enabled = true) ∧ (sSteal.fbit (blkPRESS (coreCl 0)) F.PRESS.PRESS_CTL.STEAL_ENABLE = true) ∧ ((sSteal.arr (arrKey 0 2)).queue = []) ∧
      ((sSteal.arr (arrKey 0 2)).live = none) ∧ ((sSteal.arr (arrKey 0 2)).busyAt + sSteal.fget (blkPRESS (coreCl 0)) F.PRESS.PRESS_CTL.STEAL_IDLE <
      sSteal.clk.arith) ∧ (∃ i < 32, 0 / 8 * 8 + i / 4 ≠ 0 ∧ (wholeAcc (sSteal.arr (arrKey (0 / 8 * 8 + i / 4) (i % 4))).queue).isSome = true)) ∧
    (flat.qState 1 = 1) ∧
    (flat.qState 1 = 1) := 
  by and_intros <;> decide +kernel
theorem hyps_VectorOperations :
((Issues (sVec (Instr.vfma t0 (0 : BitVec 4) (4 : BitVec 5) (1 : BitVec 5) (2 : BitVec 5) (3 : BitVec 5))) t0 (Instr.vfma t0 (0 : BitVec 4) (4 :
      BitVec 5) (1 : BitVec 5) (2 : BitVec 5) (3 : BitVec 5), VecKind.fma, (fun i => BitVec.toNat (((sVec (Instr.vfma t0 (0 : BitVec 4) (4 : BitVec
      5) (1 : BitVec 5) (2 : BitVec 5) (3 : BitVec 5))).thread t0.key).getX i)) (2 : BitVec 5), (fun i => BitVec.toNat (((sVec (Instr.vfma t0 (0 :
      BitVec 4) (4 : BitVec 5) (1 : BitVec 5) (2 : BitVec 5) (3 : BitVec 5))).thread t0.key).getX i)) (3 : BitVec 5)).1 (0 : BitVec 4)) ∧ (((sVec
      (Instr.vfma t0 (0 : BitVec 4) (4 : BitVec 5) (1 : BitVec 5) (2 : BitVec 5) (3 : BitVec 5))).vec (↑t0.core : Nat)).length < 8)) ∧
((Issues (sVecFull (Instr.vfma t0 (0 : BitVec 4) (4 : BitVec 5) (1 : BitVec 5) (2 : BitVec 5) (3 : BitVec 5))) t0 (Instr.vfma t0 (0 : BitVec 4) (4 :
      BitVec 5) (1 : BitVec 5) (2 : BitVec 5) (3 : BitVec 5), VecKind.fma, (fun i => BitVec.toNat (((sVecFull (Instr.vfma t0 (0 : BitVec 4) (4 :
      BitVec 5) (1 : BitVec 5) (2 : BitVec 5) (3 : BitVec 5))).thread t0.key).getX i)) (2 : BitVec 5), (fun i => BitVec.toNat (((sVecFull
      (Instr.vfma t0 (0 : BitVec 4) (4 : BitVec 5) (1 : BitVec 5) (2 : BitVec 5) (3 : BitVec 5))).thread t0.key).getX i)) (3 : BitVec 5)).1 (0 :
      BitVec 4)) ∧ (8 ≤ ((sVecFull (Instr.vfma t0 (0 : BitVec 4) (4 : BitVec 5) (1 : BitVec 5) (2 : BitVec 5) (3 : BitVec 5))).vec (↑t0.core :
      Nat)).length)) ∧
((sVecRun.vec 0 = [vop]) ∧ (sVecRun.enabled = true) ∧ (sVecRun.headFree vop.pend = true) ∧ (vop.ok = true) ∧ (sVecRun.oadds = []) ∧ (∀ c ∈ vop.cwsOf
      0, sVecRun.mem.cw c ≠ CwState.bad ∧ sVecRun.mem.cw c ≠ CwState.poison) ∧ (vop.kind ≠ VecKind.sum) ∧ (vop.kind ≠ VecKind.soft) ∧ (vCount vop.d
      = 1)) := 
  by and_intros <;> decide +kernel
theorem hyps_StreamsBegin :
((BitVec.toNat (((sGo Ctx.init goI).thread t0.key).getX (1 : BitVec 5)) < 64) ∧ (Issues (sGo Ctx.init goI) t0 (Instr.strmGo t0 (0 : BitVec 4) (4 :
      BitVec 5) (1 : BitVec 5) (2 : BitVec 5)) (0 : BitVec 4)) ∧ ((sGo Ctx.init goI).unacked t0.key = false) ∧ (BitVec.toNat (((sGo Ctx.init
      goI).thread t0.key).getX (2 : BitVec 5)) % 64 = 0) ∧ (BitVec.toNat (((sGo Ctx.init goI).thread t0.key).getX (2 : BitVec 5)) < 2 ^ 48) ∧ (((sGo
      Ctx.init goI).ctx (ctxKey (coreCl (↑t0.core : Nat)) (BitVec.toNat (((sGo Ctx.init goI).thread t0.key).getX (1 : BitVec 5))))).st =
      CtxSt.free)) ∧
((BitVec.toNat (((sGo cOwned goI).thread t0.key).getX (1 : BitVec 5)) < 64) ∧ (Issues (sGo cOwned goI) t0 (Instr.strmGo t0 (0 : BitVec 4) (4 :
      BitVec 5) (1 : BitVec 5) (2 : BitVec 5)) (0 : BitVec 4)) ∧ ((sGo cOwned goI).unacked t0.key = false) ∧ (BitVec.toNat (((sGo cOwned goI).thread
      t0.key).getX (2 : BitVec 5)) % 64 = 0) ∧ (BitVec.toNat (((sGo cOwned goI).thread t0.key).getX (2 : BitVec 5)) < 2 ^ 48) ∧ (((sGo cOwned
      goI).ctx (ctxKey (coreCl (↑t0.core : Nat)) (BitVec.toNat (((sGo cOwned goI).thread t0.key).getX (1 : BitVec 5))))).st = CtxSt.owned) ∧ (((sGo
      cOwned goI).ctx (ctxKey (coreCl (↑t0.core : Nat)) (BitVec.toNat (((sGo cOwned goI).thread t0.key).getX (1 : BitVec 5))))).owner = t0.key) ∧
      (((sGo cOwned goI).ctx (ctxKey (coreCl (↑t0.core : Nat)) (BitVec.toNat (((sGo cOwned goI).thread t0.key).getX (1 : BitVec 5))))).ownerEnded =
      false)) ∧
((BitVec.toNat (((sGo cTaken goI).thread t0.key).getX (1 : BitVec 5)) < 64) ∧ (Issues (sGo cTaken goI) t0 (Instr.strmGo t0 (0 : BitVec 4) (4 :
      BitVec 5) (1 : BitVec 5) (2 : BitVec 5)) (0 : BitVec 4)) ∧ ((sGo cTaken goI).unacked t0.key = false) ∧ (BitVec.toNat (((sGo cTaken goI).thread
      t0.key).getX (2 : BitVec 5)) % 64 = 0) ∧ (BitVec.toNat (((sGo cTaken goI).thread t0.key).getX (2 : BitVec 5)) < 2 ^ 48) ∧ (((sGo cTaken
      goI).ctx (ctxKey (coreCl (↑t0.core : Nat)) (BitVec.toNat (((sGo cTaken goI).thread t0.key).getX (1 : BitVec 5))))).st = CtxSt.active) ∧ (((sGo
      cTaken goI).ctx (ctxKey (coreCl (↑t0.core : Nat)) (BitVec.toNat (((sGo cTaken goI).thread t0.key).getX (1 : BitVec 5))))).go = some ((sGo
      cTaken goI).clk.arith, 9, (5 : BitVec 5))) ∧ (t0.key < 9)) ∧
((BitVec.toNat (((sGo (cx CtxSt.active []) goI).thread t0.key).getX (1 : BitVec 5)) < 64) ∧ (Issues (sGo (cx CtxSt.active []) goI) t0 (Instr.strmGo
      t0 (0 : BitVec 4) (4 : BitVec 5) (1 : BitVec 5) (2 : BitVec 5)) (0 : BitVec 4)) ∧ ((sGo (cx CtxSt.active []) goI).unacked t0.key = false) ∧
      (BitVec.toNat (((sGo (cx CtxSt.active []) goI).thread t0.key).getX (2 : BitVec 5)) % 64 = 0) ∧ (BitVec.toNat (((sGo (cx CtxSt.active [])
      goI).thread t0.key).getX (2 : BitVec 5)) < 2 ^ 48) ∧ (((sGo (cx CtxSt.active []) goI).ctx (ctxKey (coreCl (↑t0.core : Nat)) (BitVec.toNat
      (((sGo (cx CtxSt.active []) goI).thread t0.key).getX (1 : BitVec 5))))).st = CtxSt.active) ∧ (((sGo (cx CtxSt.active []) goI).ctx (ctxKey
      (coreCl (↑t0.core : Nat)) (BitVec.toNat (((sGo (cx CtxSt.active []) goI).thread t0.key).getX (1 : BitVec 5))))).go = none) ∧ (((sGo (cx
      CtxSt.active []) goI).ctx (ctxKey (coreCl (↑t0.core : Nat)) (BitVec.toNat (((sGo (cx CtxSt.active []) goI).thread t0.key).getX (1 : BitVec
      5))))).owner = t0.key) ∧ (((sGo (cx CtxSt.active []) goI).ctx (ctxKey (coreCl (↑t0.core : Nat)) (BitVec.toNat (((sGo (cx CtxSt.active [])
      goI).thread t0.key).getX (1 : BitVec 5))))).ownerEnded = false) ∧ (((sGo (cx CtxSt.active []) goI).ctx (ctxKey (coreCl (↑t0.core : Nat))
      (BitVec.toNat (((sGo (cx CtxSt.active []) goI).thread t0.key).getX (1 : BitVec 5))))).next = none)) ∧
((BitVec.toNat (((sGo cQueued goI).thread t0.key).getX (1 : BitVec 5)) < 64) ∧ (Issues (sGo cQueued goI) t0 (Instr.strmGo t0 (0 : BitVec 4) (4 :
      BitVec 5) (1 : BitVec 5) (2 : BitVec 5)) (0 : BitVec 4)) ∧ ((sGo cQueued goI).unacked t0.key = false) ∧ (BitVec.toNat (((sGo cQueued
      goI).thread t0.key).getX (2 : BitVec 5)) % 64 = 0) ∧ (BitVec.toNat (((sGo cQueued goI).thread t0.key).getX (2 : BitVec 5)) < 2 ^ 48) ∧ (((sGo
      cQueued goI).ctx (ctxKey (coreCl (↑t0.core : Nat)) (BitVec.toNat (((sGo cQueued goI).thread t0.key).getX (1 : BitVec 5))))).st = CtxSt.active)
      ∧ (((sGo cQueued goI).ctx (ctxKey (coreCl (↑t0.core : Nat)) (BitVec.toNat (((sGo cQueued goI).thread t0.key).getX (1 : BitVec 5))))).go =
      none) ∧ (((sGo cQueued goI).ctx (ctxKey (coreCl (↑t0.core : Nat)) (BitVec.toNat (((sGo cQueued goI).thread t0.key).getX (1 : BitVec
      5))))).owner = t0.key) ∧ (((sGo cQueued goI).ctx (ctxKey (coreCl (↑t0.core : Nat)) (BitVec.toNat (((sGo cQueued goI).thread t0.key).getX (1 :
      BitVec 5))))).ownerEnded = false) ∧ (((sGo cQueued goI).ctx (ctxKey (coreCl (↑t0.core : Nat)) (BitVec.toNat (((sGo cQueued goI).thread
      t0.key).getX (1 : BitVec 5))))).next ≠ none)) ∧
((BitVec.toNat (((sGo cOther goI).thread t0.key).getX (1 : BitVec 5)) < 64) ∧ (Issues (sGo cOther goI) t0 (Instr.strmGo t0 (0 : BitVec 4) (4 :
      BitVec 5) (1 : BitVec 5) (2 : BitVec 5)) (0 : BitVec 4)) ∧ ((sGo cOther goI).unacked t0.key = false) ∧ (BitVec.toNat (((sGo cOther goI).thread
      t0.key).getX (2 : BitVec 5)) % 64 = 0) ∧ (BitVec.toNat (((sGo cOther goI).thread t0.key).getX (2 : BitVec 5)) < 2 ^ 48) ∧ (((sGo cOther
      goI).ctx (ctxKey (coreCl (↑t0.core : Nat)) (BitVec.toNat (((sGo cOther goI).thread t0.key).getX (1 : BitVec 5))))).st ≠ CtxSt.free) ∧ (((sGo
      cOther goI).ctx (ctxKey (coreCl (↑t0.core : Nat)) (BitVec.toNat (((sGo cOther goI).thread t0.key).getX (1 : BitVec 5))))).go = none) ∧ (((sGo
      cOther goI).ctx (ctxKey (coreCl (↑t0.core : Nat)) (BitVec.toNat (((sGo cOther goI).thread t0.key).getX (1 : BitVec 5))))).owner ≠ t0.key)) ∧
((BitVec.toNat (((sGo Ctx.init waitI).thread t0.key).getX (1 : BitVec 5)) < 64) ∧ (Issues (sGo Ctx.init waitI) t0 (Instr.strmWait t0 (0 : BitVec 4)
      (4 : BitVec 5) (1 : BitVec 5)) (0 : BitVec 4)) ∧ (((sGo Ctx.init waitI).ctx (ctxKey (coreCl (↑t0.core : Nat)) (BitVec.toNat (((sGo Ctx.init
      waitI).thread t0.key).getX (1 : BitVec 5))))).st = CtxSt.free ∨ ((sGo Ctx.init waitI).ctx (ctxKey (coreCl (↑t0.core : Nat)) (BitVec.toNat
      (((sGo Ctx.init waitI).thread t0.key).getX (1 : BitVec 5))))).owner ≠ t0.key ∨ ((sGo Ctx.init waitI).ctx (ctxKey (coreCl (↑t0.core : Nat))
      (BitVec.toNat (((sGo Ctx.init waitI).thread t0.key).getX (1 : BitVec 5))))).ownerEnded = true)) ∧
((BitVec.toNat (((sGo cOwned waitI).thread t0.key).getX (1 : BitVec 5)) < 64) ∧ (Issues (sGo cOwned waitI) t0 (Instr.strmWait t0 (0 : BitVec 4) (4 :
      BitVec 5) (1 : BitVec 5)) (0 : BitVec 4)) ∧ (((sGo cOwned waitI).ctx (ctxKey (coreCl (↑t0.core : Nat)) (BitVec.toNat (((sGo cOwned
      waitI).thread t0.key).getX (1 : BitVec 5))))).st = CtxSt.owned) ∧ (((sGo cOwned waitI).ctx (ctxKey (coreCl (↑t0.core : Nat)) (BitVec.toNat
      (((sGo cOwned waitI).thread t0.key).getX (1 : BitVec 5))))).owner = t0.key) ∧ (((sGo cOwned waitI).ctx (ctxKey (coreCl (↑t0.core : Nat))
      (BitVec.toNat (((sGo cOwned waitI).thread t0.key).getX (1 : BitVec 5))))).ownerEnded = false)) ∧
((BitVec.toNat (((sGo (cx CtxSt.active []) waitI).thread t0.key).getX (1 : BitVec 5)) < 64) ∧ (Issues (sGo (cx CtxSt.active []) waitI) t0
      (Instr.strmWait t0 (0 : BitVec 4) (4 : BitVec 5) (1 : BitVec 5)) (0 : BitVec 4)) ∧ (((sGo (cx CtxSt.active []) waitI).ctx (ctxKey (coreCl
      (↑t0.core : Nat)) (BitVec.toNat (((sGo (cx CtxSt.active []) waitI).thread t0.key).getX (1 : BitVec 5))))).st = CtxSt.active) ∧ (((sGo (cx
      CtxSt.active []) waitI).ctx (ctxKey (coreCl (↑t0.core : Nat)) (BitVec.toNat (((sGo (cx CtxSt.active []) waitI).thread t0.key).getX (1 : BitVec
      5))))).owner = t0.key) ∧ (((sGo (cx CtxSt.active []) waitI).ctx (ctxKey (coreCl (↑t0.core : Nat)) (BitVec.toNat (((sGo (cx CtxSt.active [])
      waitI).thread t0.key).getX (1 : BitVec 5))))).ownerEnded = false)) ∧
((sCtxActive.alive = true) ∧ ((sCtxActive.ctx (ctxKey 0 7)).st = CtxSt.active) ∧ ((sCtxActive.ctx (ctxKey 0 7)).cur = some 131072) ∧
      ((sCtxActive.ctx (ctxKey 0 7)).desc = []) ∧ ((sCtxActive.ctx (ctxKey 0 7)).blkAt ≠ some ((131072 / 512 : Nat) * 512)) ∧ (sCtxActive.ctxWaits
      (ctxKey 0 7) ((131072 / 512 : Nat) * 512) 512 false = false) ∧ (sCtxActive.ctxRefused (ctxKey 0 7) ((131072 / 512 : Nat) * 512) 512 false =
      false)) ∧
((sBlkLin.alive = true) ∧ ((sBlkLin.ctx (ctxKey 0 7)).st = CtxSt.active) ∧ ((sBlkLin.ctx (ctxKey 0 7)).cur = some 131072) ∧ ((sBlkLin.ctx (ctxKey 0
      7)).desc = []) ∧ ((sBlkLin.ctx (ctxKey 0 7)).blkAt = some ((131072 / 512 : Nat) * 512)) ∧ ((((sBlkLin.ctx (ctxKey 0 7)).codesAt 131072).any
      fun x => x.poison) = false) ∧ (sBlkLin.descFault (ctxKey 0 7) (wordsOf ((sBlkLin.ctx (ctxKey 0 7)).codesAt 131072)) = none) ∧ (dListLen
      (wordsOf ((sBlkLin.ctx (ctxKey 0 7)).codesAt 131072)) = 0 ∨ sBlkLin.ctxWaits (ctxKey 0 7) (dListAddr (wordsOf ((sBlkLin.ctx (ctxKey 0
      7)).codesAt 131072))) (4 * dListLen (wordsOf ((sBlkLin.ctx (ctxKey 0 7)).codesAt 131072))) false = false) ∧ (dKind (wordsOf ((sBlkLin.ctx
      (ctxKey 0 7)).codesAt 131072)) = (Instr.linear (0 : Fin 64) (7 : Fin 64), 0).2)) := 
  by and_intros <;> decide +kernel
theorem hyps_PressOperations :
(((sPress 4 64).alive = true) ∧ ((sPress 4 64).pressFed (ctxKey 0 7) = true) ∧ (pressLen (fun o n => leNat (List.map (fun i => (List.flatMap (fun e
      => leBytes 16 e.2.v) ((sPress 4 64).ctx (ctxKey 0 7)).pin).toArray.getD (o + i) (0 : Byte)) (List.range n))) (dW ((sPress 4 64).ctx (ctxKey 0
      7)).desc 4) = some (dLen ((sPress 4 64).ctx (ctxKey 0 7)).desc)) ∧ (ppOp (dW ((sPress 4 64).ctx (ctxKey 0 7)).desc 4) = (Instr.audit (0 : Fin
      64) (7 : Fin 64), 4).2) ∧ (((sPress 4 64).ctx (ctxKey 0 7)).again = true)) := 
  by and_intros <;> decide +kernel
theorem hyps_StreamsMove :
((sMv1.alive = true) ∧ ((sMv1.ctx (ctxKey 0 7)).st = CtxSt.active) ∧ ((sMv1.ctx (ctxKey 0 7)).desc ≠ []) ∧ (dKind (sMv1.ctx (ctxKey 0 7)).desc = 0)
      ∧ (Machine.dPress (sMv1.ctx (ctxKey 0 7)).desc = false) ∧ (dRing (sMv1.ctx (ctxKey 0 7)).desc = false) ∧ ((sMv1.ctx (ctxKey 0 7)).pos < dLen
      (sMv1.ctx (ctxKey 0 7)).desc) ∧ ((sMv1.ctx (ctxKey 0 7)).reads.length < 64) ∧ ((sMv1.ctx (ctxKey 0 7)).creditWait = false) ∧ (inDevMem (dSrc
      (sMv1.ctx (ctxKey 0 7)).desc + (sMv1.ctx (ctxKey 0 7)).pos) = true) ∧ (sMv1.outstanding 0 < 1024) ∧ (∀ (y : Fin 64), y ≠ (7 : Fin 64) →
      sMv1.ctx (ctxKey 0 (↑y : Nat)) = Ctx.init)) ∧
((sMv2.alive = true) ∧ ((sMv2.ctx (ctxKey 0 7)).st = CtxSt.active) ∧ ((sMv2.ctx (ctxKey 0 7)).desc ≠ []) ∧ (List.find? (fun y => y.id == rd0.id)
      (sMv2.ctx (ctxKey 0 7)).reads = some rd0) ∧ (rd0.data = some (List.replicate 4 { v := 5, poison := false : Code })) ∧ (List.replicate 4 { v := 5, poison := false : Code }
      ≠ []) ∧ (sMv2.landed rd0.flit = true) ∧ (rd0.kind = RdKind.src) ∧ (dKind (sMv2.ctx (ctxKey 0 7)).desc = 0) ∧ (Machine.dPress (sMv2.ctx (ctxKey
      0 7)).desc = false) ∧ (sMv2.destWaits (ctxKey 0 7) ((sMv2.ctx (ctxKey 0 7)).dst rd0.pos) rd0.n = false) ∧ (sMv2.ctxRefused (ctxKey 0 7)
      ((sMv2.ctx (ctxKey 0 7)).dst rd0.pos) rd0.n true = false)) ∧
((sMv3.alive = true) ∧ ((sMv3.ctx (ctxKey 0 7)).st = CtxSt.active) ∧ ((sMv3.ctx (ctxKey 0 7)).desc ≠ []) ∧ (List.find? (sMv3.wakeOf (ctxKey 0 7)
      false) sMv3.wakes = some (wk false)) ∧ ((wk false).who = SyncWho.ctx (ctxKey 0 7)) ∧ ((wk false).status = 0)) ∧
((sMv4.alive = true) ∧ ((sMv4.ctx (ctxKey 0 7)).st = CtxSt.active) ∧ ((sMv4.ctx (ctxKey 0 7)).desc ≠ []) ∧ (List.find? (sMv4.wakeOf (ctxKey 0 7)
      true) sMv4.wakes = some (wk true)) ∧ ((wk true).status = 0) ∧ ((sMv4.ctx (ctxKey 0 7)).doneSent = false)) ∧
((sMv5.alive = true) ∧ ((sMv5.ctx (ctxKey 0 7)).st = CtxSt.active) ∧ ((sMv5.ctx (ctxKey 0 7)).desc ≠ []) ∧ (dKind (sMv5.ctx (ctxKey 0 7)).desc ≠ 4)
      ∧ (dKind (sMv5.ctx (ctxKey 0 7)).desc ≠ 5) ∧ (Machine.dPress (sMv5.ctx (ctxKey 0 7)).desc = false) ∧ (dDen (sMv5.ctx (ctxKey 0 7)).desc =
      false) ∧ (dRing (sMv5.ctx (ctxKey 0 7)).desc = false) ∧ (sMv5.segReady (ctxKey 0 7) = true)) ∧
((sMv6.alive = true) ∧ (sMv6.descReady (ctxKey 0 7) = true) ∧ (dCpl (sMv6.ctx (ctxKey 0 7)).desc = 0) ∧ (dDoneEn (sMv6.ctx (ctxKey 0 7)).desc =
      false) ∧ ((sMv6.ctx (ctxKey 0 7)).recv = [])) ∧
(((sMv7.ctx (ctxKey 0 7)).st = CtxSt.cancelling) ∧ ((sMv7.ctx (ctxKey 0 7)).reads = []) ∧ (∀ h ∈ sMv7.hops, h.ctx ≠ ctxKey 0 7) ∧ (sMv7.reportWaits
      (sMv7.ctx (ctxKey 0 7)).errRef = false) ∧ (dCpl (sMv7.ctx (ctxKey 0 7)).desc = 0 ∨ sMv7.destWaits (ctxKey 0 7) (dCpl (sMv7.ctx (ctxKey 0
      7)).desc) 32 = false) ∧ (∀ m ∈ sMv7.syncMsgs, m.who ≠ SyncWho.ctx (ctxKey 0 7))) := 
  by and_intros <;> decide +kernel
theorem hyps_MulticastAndRelay :
((sMc.alive = true) ∧ ((sMc.ctx (ctxKey 0 7)).st = CtxSt.active) ∧ ((sMc.ctx (ctxKey 0 7)).desc ≠ []) ∧ (dKind (sMc.ctx (ctxKey 0 7)).desc = 4) ∧
      ((sMc.ctx (ctxKey 0 7)).mcHeld ≠ 0) ∧ ((sMc.ctx (ctxKey 0 7)).mcIn < segCount (sMc.ctx (ctxKey 0 7)).desc (dLen (sMc.ctx (ctxKey 0 7)).desc))
      ∧ ((sMc.ctx (ctxKey 0 7)).store = [])) ∧
((sHopR.alive = true) ∧ ((sHopR.ctx (ctxKey 0 7)).st = CtxSt.active) ∧ ((sHopR.ctx (ctxKey 0 7)).desc ≠ []) ∧ (List.find? (fun y => y.ctx == ctxKey
      0 7 && y.seg == (hp HopSt.ready).seg && y.mem == (hp HopSt.ready).mem && y.st == HopSt.ready) sHopR.hops = some (hp HopSt.ready)) ∧
      ((List.filter (fun y => y.st == HopSt.moving && sHopR.hopCl y == sHopR.hopCl (hp HopSt.ready)) sHopR.hops).length < 8)) ∧
((sHopM.alive = true) ∧ ((sHopM.ctx (ctxKey 0 7)).st = CtxSt.active) ∧ ((sHopM.ctx (ctxKey 0 7)).desc ≠ []) ∧ (List.find? (fun y => y.ctx == ctxKey
      0 7 && y.seg == (hp HopSt.moving).seg && y.mem == (hp HopSt.moving).mem && y.st == HopSt.moving) sHopM.hops = some (hp HopSt.moving)) ∧ ((hp
      HopSt.moving).ctx = ctxKey 0 7) ∧ (∀ y ∈ sHopM.hops, y.ctx = ctxKey 0 7 → y.mem = (hp HopSt.moving).mem → (hp HopSt.moving).seg ≤ y.seg) ∧
      (sHopM.ctxWaits (ctxKey 0 7) ((sHopM.ctx (ctxKey 0 7)).memAddr (hp HopSt.moving).seg (hp HopSt.moving).mem) (segLen (sHopM.ctx (ctxKey 0
      7)).desc (dLen (sHopM.ctx (ctxKey 0 7)).desc) (hp HopSt.moving).seg) false = false ∧ sHopM.destWaits (ctxKey 0 7) ((sHopM.ctx (ctxKey 0
      7)).memAddr (hp HopSt.moving).seg ((hp HopSt.moving).mem + 1)) (segLen (sHopM.ctx (ctxKey 0 7)).desc (dLen (sHopM.ctx (ctxKey 0 7)).desc) (hp
      HopSt.moving).seg) = false ∧ sHopM.ctxRefused (ctxKey 0 7) ((sHopM.ctx (ctxKey 0 7)).memAddr (hp HopSt.moving).seg (hp HopSt.moving).mem)
      (segLen (sHopM.ctx (ctxKey 0 7)).desc (dLen (sHopM.ctx (ctxKey 0 7)).desc) (hp HopSt.moving).seg) false = false ∧ sHopM.ctxRefused (ctxKey 0
      7) ((sHopM.ctx (ctxKey 0 7)).memAddr (hp HopSt.moving).seg ((hp HopSt.moving).mem + 1)) (segLen (sHopM.ctx (ctxKey 0 7)).desc (dLen (sHopM.ctx
      (ctxKey 0 7)).desc) (hp HopSt.moving).seg) true = false)) := 
  by and_intros <;> decide +kernel
theorem hyps_SpawnsFlagsAndPlacement :
((Issues (sSp (Instr.taskSpawn t0 (0 : BitVec 4) (4 : BitVec 5) (1 : BitVec 5))) t0 (Instr.taskSpawn t0 (0 : BitVec 4) (4 : BitVec 5) (1 : BitVec
      5)) (0 : BitVec 4)) ∧ ((sSp (Instr.taskSpawn t0 (0 : BitVec 4) (4 : BitVec 5) (1 : BitVec 5))).unacked t0.key = false) ∧ (BitVec.toNat (((sSp
      (Instr.taskSpawn t0 (0 : BitVec 4) (4 : BitVec 5) (1 : BitVec 5))).thread t0.key).getX (1 : BitVec 5)) % 64 = 0) ∧ (bit (BitVec.toNat (((sSp
      (Instr.taskSpawn t0 (0 : BitVec 4) (4 : BitVec 5) (1 : BitVec 5))).thread t0.key).getX (1 : BitVec 5))) 48 = false) ∧ (rejectedAt
      (BitVec.toNat (((sSp (Instr.taskSpawn t0 (0 : BitVec 4) (4 : BitVec 5) (1 : BitVec 5))).thread t0.key).getX (1 : BitVec 5))) 64 false = none))
      ∧
((sSpR.reqsOf t0.key Req.isSpawn ≠ []) ∧ (∀ r ∈ sSpR.reqsOf t0.key Req.isSpawn, sSpR.answered r = true) ∧ (gather (sSpR.reqsOf t0.key Req.isSpawn) =
      Gathered.value (recV 1024)) ∧ (List.find? (fun y => y.thread == t0.key) sSpR.spawns = some (sp0 SpawnPhase.reading)) ∧ (recOk (recV 1024)
      (sSpR.qmaskOf (sp0 SpawnPhase.reading).job) false = true) ∧ (sSpR.qState (taskRec (recV 1024)).q ≠ 5)) ∧
((sSpA.alive = true) ∧ (sSpA.qUp 0 = true) ∧ (sSpA.waitingSpawn 0 = some (sp0 (SpawnPhase.waiting (tr 5)), tr 5)) ∧ ((sp0 (SpawnPhase.waiting (tr
      5))).parkedAt < sSpA.clk.arith) ∧ (sSpA.freeEntry? 0 = some 1)) ∧
((4 < 32) ∧ ((sSpH.thread t0.key).st = TState.parked (Park.spawn 4)) ∧ (List.find? (fun y => y.thread == t0.key) sSpH.spawns = some (sp0
      (SpawnPhase.accepted 1073774593))) ∧ ((sp0 (SpawnPhase.accepted 1073774593)).phase = SpawnPhase.accepted 1073774593)) ∧
((Issues sFl t0 (Instr.taskFlag t0 (0 : BitVec 4) (1 : BitVec 5) (2 : BitVec 5)) (0 : BitVec 4)) ∧ (sFl.unacked t0.key = false) ∧ (BitVec.toNat
      ((sFl.thread t0.key).getX (1 : BitVec 5)) < 2 ^ 32) ∧ (BitVec.toNat ((sFl.thread t0.key).getX (2 : BitVec 5)) < 2 ^ 32)) ∧
((sFmOk.alive = true) ∧ (sFmOk.qUp 1 = true) ∧ (List.find? (fun x => x.handle / 2 ^ 30 == 1 && sFmOk.landed x.id) sFmOk.flagMsgs = some fm) ∧ (bit
      (sFmOk.qmaskOf fm.job) 1 = true) ∧ ((sFmOk.entry (entryKey 1 (fm.handle % 16384))).used = true) ∧ ((sFmOk.entry (entryKey 1 (fm.handle %
      16384))).job = fm.job) ∧ ((sFmOk.entry (entryKey 1 (fm.handle % 16384))).gen = bits fm.handle 14 16)) ∧
((sFmBad.alive = true) ∧ (sFmBad.qUp 1 = true) ∧ (List.find? (fun x => x.handle / 2 ^ 30 == 1 && sFmBad.landed x.id) sFmBad.flagMsgs = some fm) ∧
      ((sFmBad.entry (entryKey 1 (fm.handle % 16384))).used = false ∨ (sFmBad.entry (entryKey 1 (fm.handle % 16384))).job ≠ fm.job ∨ (sFmBad.entry
      (entryKey 1 (fm.handle % 16384))).gen ≠ bits fm.handle 14 16)) ∧
    ((sPl.mayPlace 0 = true) ∧ (sPl.turnOf 0 = true) ∧ (sPl.slotCore 0 = some (3, false)) ∧ ((sPl.choose 3).2 = some 2)) ∧
    (flat.gtc.count % 89600 = 0) := 
  by and_intros <;> decide +kernel
theorem hyps_SyncOperations :
(((sSyNeg (Instr.syncSig t0 (0 : BitVec 4) (1 : BitVec 5) (2 : BitVec 5))).refOk t0.key (BitVec.toNat (((sSyNeg (Instr.syncSig t0 (0 : BitVec 4) (1
      : BitVec 5) (2 : BitVec 5))).thread t0.key).getX (1 : BitVec 5))) = true) ∧ (Issues (sSyNeg (Instr.syncSig t0 (0 : BitVec 4) (1 : BitVec 5) (2
      : BitVec 5))) t0 (Instr.syncSig t0 (0 : BitVec 4) (1 : BitVec 5) (2 : BitVec 5)) (0 : BitVec 4)) ∧ (sextInt 32 (BitVec.toNat (((sSyNeg
      (Instr.syncSig t0 (0 : BitVec 4) (1 : BitVec 5) (2 : BitVec 5))).thread t0.key).getX (2 : BitVec 5))) = sextInt 64 (BitVec.toNat (((sSyNeg
      (Instr.syncSig t0 (0 : BitVec 4) (1 : BitVec 5) (2 : BitVec 5))).thread t0.key).getX (2 : BitVec 5)))) ∧ ((sSyNeg (Instr.syncSig t0 (0 :
      BitVec 4) (1 : BitVec 5) (2 : BitVec 5))).unacked t0.key = false)) ∧
(((sSyU (Instr.syncSig t0 (0 : BitVec 4) (1 : BitVec 5) (2 : BitVec 5))).refOk t0.key (BitVec.toNat (((sSyU (Instr.syncSig t0 (0 : BitVec 4) (1 :
      BitVec 5) (2 : BitVec 5))).thread t0.key).getX (1 : BitVec 5))) = true) ∧ (Issues (sSyU (Instr.syncSig t0 (0 : BitVec 4) (1 : BitVec 5) (2 :
      BitVec 5))) t0 (Instr.syncSig t0 (0 : BitVec 4) (1 : BitVec 5) (2 : BitVec 5)) (0 : BitVec 4)) ∧ ((sSyU (Instr.syncSig t0 (0 : BitVec 4) (1 :
      BitVec 5) (2 : BitVec 5))).unacked t0.key = true)) ∧
(((sSyW (Instr.syncWait t0 (0 : BitVec 4) (4 : BitVec 5) (1 : BitVec 5) (2 : BitVec 5))).refOk t0.key (BitVec.toNat (((sSyW (Instr.syncWait t0 (0 :
      BitVec 4) (4 : BitVec 5) (1 : BitVec 5) (2 : BitVec 5))).thread t0.key).getX (1 : BitVec 5))) = true) ∧ (Issues (sSyW (Instr.syncWait t0 (0 :
      BitVec 4) (4 : BitVec 5) (1 : BitVec 5) (2 : BitVec 5))) t0 (Instr.syncWait t0 (0 : BitVec 4) (4 : BitVec 5) (1 : BitVec 5) (2 : BitVec 5)) (0
      : BitVec 4)) ∧ (BitVec.toNat (((sSyW (Instr.syncWait t0 (0 : BitVec 4) (4 : BitVec 5) (1 : BitVec 5) (2 : BitVec 5))).thread t0.key).getX (2 :
      BitVec 5)) < 2 ^ 32)) ∧
(((sSyW (Instr.syncBar t0 (0 : BitVec 4) (4 : BitVec 5) (1 : BitVec 5))).refOk t0.key (BitVec.toNat (((sSyW (Instr.syncBar t0 (0 : BitVec 4) (4 :
      BitVec 5) (1 : BitVec 5))).thread t0.key).getX (1 : BitVec 5))) = true) ∧ (Issues (sSyW (Instr.syncBar t0 (0 : BitVec 4) (4 : BitVec 5) (1 :
      BitVec 5))) t0 (Instr.syncBar t0 (0 : BitVec 4) (4 : BitVec 5) (1 : BitVec 5)) (0 : BitVec 4)) ∧ ((sSyW (Instr.syncBar t0 (0 : BitVec 4) (4 :
      BitVec 5) (1 : BitVec 5))).unacked t0.key = false)) ∧
((sOp4.syncMsgs[1]? = some (smsg (SyncOp.sig 4294967294 true))) ∧ ((smsg (SyncOp.sig 4294967294 true)).who = SyncWho.thread 0) ∧ (sOp4.alive = true)
      ∧ (sOp4.qUp (objQ (smsg (SyncOp.sig 4294967294 true)).obj) = true) ∧ (sOp4.tableFrozen (objQ (smsg (SyncOp.sig 4294967294 true)).obj) = false)
      ∧ (sOp4.syncNext (smsg (SyncOp.sig 4294967294 true)) = true) ∧ ((sOp4.obj (smsg (SyncOp.sig 4294967294 true)).obj).chain = false) ∧ ((sOp4.obj
      (smsg (SyncOp.sig 4294967294 true)).obj).faulted = false) ∧ ((smsg (SyncOp.sig 4294967294 true)).op = SyncOp.sig 4294967294 true) ∧ ((sOp4.obj
      (smsg (SyncOp.sig 4294967294 true)).obj).type = 1) ∧ (0 ≤ (↑(sOp4.obj (smsg (SyncOp.sig 4294967294 true)).obj).count : ℤ) + 4294967294) ∧
      ((↑(sOp4.obj (smsg (SyncOp.sig 4294967294 true)).obj).count : ℤ) + 4294967294 ≤ 4294967295)) ∧
((sOp5.syncMsgs[1]? = some (smsg (SyncOp.sig (-2 : ℤ) true))) ∧ ((smsg (SyncOp.sig (-2 : ℤ) true)).who = SyncWho.thread 0) ∧ (sOp5.alive = true) ∧
      (sOp5.qUp (objQ (smsg (SyncOp.sig (-2 : ℤ) true)).obj) = true) ∧ (sOp5.tableFrozen (objQ (smsg (SyncOp.sig (-2 : ℤ) true)).obj) = false) ∧
      (sOp5.syncNext (smsg (SyncOp.sig (-2 : ℤ) true)) = true) ∧ ((sOp5.obj (smsg (SyncOp.sig (-2 : ℤ) true)).obj).chain = false) ∧ ((sOp5.obj (smsg
      (SyncOp.sig (-2 : ℤ) true)).obj).faulted = false) ∧ ((smsg (SyncOp.sig (-2 : ℤ) true)).op = SyncOp.sig (-2 : ℤ) true) ∧ ((sOp5.obj (smsg
      (SyncOp.sig (-2 : ℤ) true)).obj).type = 1) ∧ ((↑(sOp5.obj (smsg (SyncOp.sig (-2 : ℤ) true)).obj).count : ℤ) + (-2 : ℤ) < 0 ∨ 4294967295 <
      (↑(sOp5.obj (smsg (SyncOp.sig (-2 : ℤ) true)).obj).count : ℤ) + (-2 : ℤ))) ∧
((sOp6.syncMsgs[1]? = some (smsg (SyncOp.wait 3))) ∧ ((smsg (SyncOp.wait 3)).who = SyncWho.thread 0) ∧ (sOp6.alive = true) ∧ (sOp6.qUp (objQ (smsg
      (SyncOp.wait 3)).obj) = true) ∧ (sOp6.tableFrozen (objQ (smsg (SyncOp.wait 3)).obj) = false) ∧ (sOp6.syncNext (smsg (SyncOp.wait 3)) = true) ∧
      ((sOp6.obj (smsg (SyncOp.wait 3)).obj).chain = false) ∧ ((sOp6.obj (smsg (SyncOp.wait 3)).obj).faulted = false) ∧ ((smsg (SyncOp.wait 3)).op =
      SyncOp.wait 3) ∧ ((sOp6.obj (smsg (SyncOp.wait 3)).obj).type = 1) ∧ (3 ≠ 0) ∧ ((sOp6.obj (smsg (SyncOp.wait 3)).obj).waiters = []) ∧ (3 ≤
      (sOp6.obj (smsg (SyncOp.wait 3)).obj).count)) ∧
((sOp7.syncMsgs[1]? = some (smsg (SyncOp.wait 4))) ∧ ((smsg (SyncOp.wait 4)).who = SyncWho.thread 0) ∧ (sOp7.alive = true) ∧ (sOp7.qUp (objQ (smsg
      (SyncOp.wait 4)).obj) = true) ∧ (sOp7.tableFrozen (objQ (smsg (SyncOp.wait 4)).obj) = false) ∧ (sOp7.syncNext (smsg (SyncOp.wait 4)) = true) ∧
      ((sOp7.obj (smsg (SyncOp.wait 4)).obj).chain = false) ∧ ((sOp7.obj (smsg (SyncOp.wait 4)).obj).faulted = false) ∧ ((smsg (SyncOp.wait 4)).op =
      SyncOp.wait 4) ∧ ((sOp7.obj (smsg (SyncOp.wait 4)).obj).type = 1) ∧ (4 ≠ 0) ∧ ((sOp7.obj (smsg (SyncOp.wait 4)).obj).waiters ≠ [] ∨ (sOp7.obj
      (smsg (SyncOp.wait 4)).obj).count < 4)) ∧
((sOp8.syncMsgs[1]? = some (smsg (SyncOp.bar true))) ∧ ((smsg (SyncOp.bar true)).who = SyncWho.thread 0) ∧ (sOp8.alive = true) ∧ (sOp8.qUp (objQ
      (smsg (SyncOp.bar true)).obj) = true) ∧ (sOp8.tableFrozen (objQ (smsg (SyncOp.bar true)).obj) = false) ∧ (sOp8.syncNext (smsg (SyncOp.bar
      true)) = true) ∧ ((sOp8.obj (smsg (SyncOp.bar true)).obj).chain = false) ∧ ((sOp8.obj (smsg (SyncOp.bar true)).obj).faulted = false) ∧ ((smsg
      (SyncOp.bar true)).op = SyncOp.bar (sOp8.obj (smsg (SyncOp.bar true)).obj).gen) ∧ ((sOp8.obj (smsg (SyncOp.bar true)).obj).type = 3) ∧
      ((sOp8.obj (smsg (SyncOp.bar true)).obj).arrived + 1 < (sOp8.obj (smsg (SyncOp.bar true)).obj).parts)) ∧
((sOp9.syncMsgs[1]? = some (smsg (SyncOp.bar true))) ∧ ((smsg (SyncOp.bar true)).who = SyncWho.thread 0) ∧ (sOp9.alive = true) ∧ (sOp9.qUp (objQ
      (smsg (SyncOp.bar true)).obj) = true) ∧ (sOp9.tableFrozen (objQ (smsg (SyncOp.bar true)).obj) = false) ∧ (sOp9.syncNext (smsg (SyncOp.bar
      true)) = true) ∧ ((sOp9.obj (smsg (SyncOp.bar true)).obj).chain = false) ∧ ((sOp9.obj (smsg (SyncOp.bar true)).obj).faulted = false) ∧ ((smsg
      (SyncOp.bar true)).op = SyncOp.bar (sOp9.obj (smsg (SyncOp.bar true)).obj).gen) ∧ ((sOp9.obj (smsg (SyncOp.bar true)).obj).type = 3) ∧
      ((sOp9.obj (smsg (SyncOp.bar true)).obj).arrived + 1 = (sOp9.obj (smsg (SyncOp.bar true)).obj).parts)) := 
  by and_intros <;> decide +kernel
theorem hyps_GrantingConserves :
    (((sGr.obj (1 * 65536 + 3)).grant = true) ∧ (sGr.tableFrozen 1 = false)) := 
  by and_intros <;> decide +kernel
theorem hyps_SyncEvents :
    (((sCh.obj (1 * 65536 + 3)).chain = true) ∧ (sCh.tableFrozen 1 = false)) ∧
((4 < 32) ∧ (sWk.wakes[1]? = some { id := 0, who := SyncWho.thread 0, status := 1, cause := 2, sig := false : Wake }) ∧ (sWk.landed 0 = true) ∧
      ((sWk.thread 0).st = TState.parked (Park.sync 65539 4))) ∧
((sGr.qState 1 = 1) ∧ (sGr.objWaits (1 * 65536 + 3) = false) ∧ ((sGr.obj (1 * 65536 + 3)).chain = false) ∧ (BitVec.toNat (3 : Word) % 4 = 3 ∧
      BitVec.toNat (3 : Word) / 2 ^ 16 % 2 ^ 16 = 0)) ∧
((sGr.qState 1 = 1) ∧ (sGr.objWaits (1 * 65536 + 3) = false) ∧ ((sGr.obj (1 * 65536 + 3)).chain = false) ∧ (¬(BitVec.toNat (21474836481 : Word) % 4
      = 3 ∧ BitVec.toNat (21474836481 : Word) / 2 ^ 16 % 2 ^ 16 = 0))) := 
  by and_intros <;> decide +kernel
theorem hyps_ModeProtocol :
((Requester.firmware = Requester.firmware ∨ ∃ p, Requester.firmware = Requester.port p ∧ ∀ (q : Fin 4), flat.owns (1 - (↑p : Nat)) (↑q : Nat) =
      false) ∧ (flat.inTransition = false)) ∧
((Requester.firmware = Requester.firmware ∨ ∃ p, Requester.firmware = Requester.port p ∧ ∀ (q : Fin 4), sTrans.owns (1 - (↑p : Nat)) (↑q : Nat) =
      false) ∧ (sTrans.inTransition = true)) ∧
((Requester.firmware = Requester.firmware ∨ ∃ p, Requester.firmware = Requester.port p ∧ ∀ (q : Fin 4), flat.owns (1 - (↑p : Nat)) (↑q : Nat) =
      false) ∧ (flat.inTransition = false)) ∧
((Requester.firmware = Requester.firmware ∨ ∃ p, Requester.firmware = Requester.port p ∧ ∀ (q : Fin 4), sTrans.owns (1 - (↑p : Nat)) (↑q : Nat) =
      false) ∧ (sTrans.inTransition = true)) ∧
((Requester.firmware = Requester.firmware ∨ ∃ p, Requester.firmware = Requester.port p ∧ ∀ (q : Fin 4), sTransD.owns (1 - (↑p : Nat)) (↑q : Nat) =
      false) ∧ (sTransD.inTransition = false) ∧ (sTransD.modeAt = sTransD.ctrl + 1)) ∧
(¬(Requester.port (0 : Fin 2) = Requester.firmware ∨ ∃ p, Requester.port (0 : Fin 2) = Requester.port p ∧ ∀ (q : Fin 4), sOwnM.owns (1 - (↑p : Nat))
      (↑q : Nat) = false)) ∧
((sTrans.alive = true) ∧ (sTrans.mayAck 5 = true) ∧ (sTrans.inTransition = true) ∧ (bit (sTrans.fget blkMODE F.MODE.MODE_STATUS.PENDING) 5 = true) ∧
      (sTrans.fget blkMODE F.MODE.MODE_STATUS.PENDING ≠ 2 ^ 5)) ∧
((sTransL.alive = true) ∧ (sTransL.mayAck 1 = true) ∧ (sTransL.inTransition = true) ∧ (bit (sTransL.fget blkMODE F.MODE.MODE_STATUS.PENDING) 1 =
      true) ∧ (sTransL.fget blkMODE F.MODE.MODE_STATUS.PENDING = 2 ^ 1)) := 
  by and_intros <;> decide +kernel
theorem hyps_Watchdog :
((sWd.alive = true) ∧ (sWd.qUp 1 = true) ∧ (sWd.clk.arith % 2 ^ 20 = 0) ∧ ((sWd.wd 1).checks < sWd.clk.arith / 2 ^ 20) ∧ (sWd.fbit (blkTSCHED 1)
      F.TSCHED.SCHED_STATUS.STOPPED = false)) ∧
    ((sDump.alive = true) ∧ (sDump.tableFrozen 1 = true) ∧ (∀ x ∈ sDump.jobs, sDump.taskIn 1 x.id = false ∧ sDump.waitIn 1 x.id = false)) ∧
((sStop3.qState 1 = 1) ∧ (sStop3.fbit (blkTSCHED 1) F.TSCHED.SCHED_STATUS.STOPPED = true) ∧ (sStop3.tableFrozen 1 = false) ∧ ((sStop3.wd 1).step4 =
      true) ∧ (∀ x ∈ sStop3.jobs, x.id ∉ (sStop3.wd 1).ended)) ∧
((sStop4.qState 1 = 1) ∧ (sStop4.fbit (blkTSCHED 1) F.TSCHED.SCHED_STATUS.STOPPED = true) ∧ (sStop4.tableFrozen 1 = true ∨ (sStop4.wd 1).step4 =
      false)) ∧
((flat.mayWrite Requester.firmware (blkSYNC 1) F.SYNC.DUMP_BASE.BASE.reg = true) ∧ (flat.qState 1 = 1) ∧ (1 * 618475290624 ≤ BitVec.toNat
      (618475290624 : Word) / 2 ^ 24 % 2 ^ 25 * 2 ^ 24 ∧ BitVec.toNat (618475290624 : Word) / 2 ^ 24 % 2 ^ 25 * 2 ^ 24 + 16777216 ≤ (1 + 1) *
      618475290624)) ∧
((flat.mayWrite Requester.firmware (blkSYNC 1) F.SYNC.DUMP_BASE.BASE.reg = true) ∧ (flat.qState 1 = 1) ∧ (¬(1 * 618475290624 ≤ BitVec.toNat
      (618458513408 : Word) / 2 ^ 24 % 2 ^ 25 * 2 ^ 24 ∧ BitVec.toNat (618458513408 : Word) / 2 ^ 24 % 2 ^ 25 * 2 ^ 24 + 16777216 ≤ (1 + 1) *
      618475290624))) := 
  by and_intros <;> decide +kernel
theorem hyps_FabricAndLinks :
((List.find? (fun x => x.id == 1) sF.fabric.flits = some fF) ∧ (fF.hops = [Node.router 0 2, Node.router 0 1]) ∧ (sF.hopDue fF (Node.router 0 2) =
      true) ∧ (popCount 36 1 < 2) ∧ (∀ m ∈ [0, 34359738368], popCount 36 m < 2) ∧ ([Node.router 0 1] ≠ [])) ∧
((List.find? (fun x => x.id == 1) sF.fabric.flits = some fF) ∧ (fF.hops = [Node.router 0 2, Node.router 0 1]) ∧ (sF.hopDue fF (Node.router 0 2) =
      true) ∧ (popCount 36 1 < 2) ∧ (List.filter (fun i => bit (sF.carries 1) i && decide (2 ≤ popCount 36 ([0, 51539607552].getD i 0))) (List.range
      4) ≠ [])) ∧
((List.find? (fun x => x.id == 1) sF.fabric.flits = some fF) ∧ (fF.hops = [Node.router 0 2, Node.router 0 1]) ∧ (sF.hopDue fF (Node.router 0 2) =
      true) ∧ (2 ≤ popCount 36 34359738369)) ∧
    (bit (flat.fget blkFAB F.FAB.BRIDGE_STATUS.UP) 7 = true) ∧
    ((sThr32.clk.arith % 16 = 0) ∧ (sThr32.clk.window ≤ sThr32.clk.arith / 16) ∧ (sThr32.clk.mgmtOnly = false)) ∧
    (flat.clk.mgmtOnly = false) ∧
(((flat.port 1).link = false) ∧ ((flat.port 1).perst = false) ∧ (flat.pow.boot ≠ Boot.held) ∧ (flat.clk.mgmtOnly = false) ∧ ((63 : BitVec 6) ≠ (0 :
      BitVec 6)) ∧ ((1 : BitVec 3) ≠ (0 : BitVec 3))) ∧
(((flat.port 1).link = false) ∧ ((flat.port 1).perst = false) ∧ (flat.pow.boot ≠ Boot.held) ∧ (flat.clk.mgmtOnly = false) ∧ ((63 : BitVec 6) = (0 :
      BitVec 6) ∨ (0 : BitVec 3) = (0 : BitVec 3))) ∧
    ((sUp.port 1).link = true) ∧
(((sHb.port 1).lost = false) ∧ (sHb.fget (blkJI 1) F.JI.HB_LIMIT.LIMIT ≠ 0) ∧ ((sHb.port 1).hbAt + sHb.fget (blkJI 1) F.JI.HB_LIMIT.LIMIT * 2 ^ 20 ≤
      sHb.clk.arith)) ∧
    (((sLl.port 1).lost = false) ∧ ((sLl.port 1).link = false) ∧ ((sLl.port 1).perst = false) ∧ ((sLl.port 1).downAt + 14000000 < sLl.clk.arith)) ∧
    ((sUp.pow.boot = Boot.running) ∧ ((sUp.port (1 - 1)).acqMask = (0 : BitVec 4))) ∧
    (((prt pPerst).port 1).perst = true) := 
  by and_intros <;> decide +kernel
theorem hyps_RingsAndEntries :
    ((sRd.ring 1 63).state = RingState.disabled ∨ (sRd.ring 1 63).state = RingState.draining) ∧
    ((sRe.ring 1 63).state = RingState.running ∨ (sRe.ring 1 63).state = RingState.error) ∧
    ((sRd.ring 1 63).state = RingState.disabled) ∧
    (((sRr.ring 1 63).state = RingState.running ∨ (sRr.ring 1 63).state = RingState.error) ∧ ((sRr.jobs.any fun j => j.onRing 1 63) = false)) ∧
    (((sRj.ring 1 63).state = RingState.running ∨ (sRj.ring 1 63).state = RingState.error) ∧ ((sRj.jobs.any fun j => j.onRing 1 63) = true)) ∧
    (((sRg.ring 1 63).state = RingState.draining) ∧ ((sRg.jobs.any fun j => j.onRing 1 63) = false)) ∧
((8 = 4 ∨ 8 = 8) ∧ ((sRw.ring 1 63).state = RingState.running) ∧ (8 % 2 ^ 32 ≠ (sRw.ring 1 63).tail) ∧ (countSub (8 % 2 ^ 32) (sRw.ring 1 63).head ≤
      sRw.sqSize 1 63) ∧ (countSub (sRw.ring 1 63).tail (sRw.ring 1 63).head < countSub (8 % 2 ^ 32) (sRw.ring 1 63).head)) ∧
((4 = 4 ∨ 4 = 8) ∧ ((sRw.ring 1 63).state = RingState.running) ∧ (9 % 2 ^ 32 ≠ (sRw.ring 1 63).tail) ∧ (¬(countSub (9 % 2 ^ 32) (sRw.ring 1 63).head
      ≤ sRw.sqSize 1 63 ∧ countSub (sRw.ring 1 63).tail (sRw.ring 1 63).head < countSub (9 % 2 ^ 32) (sRw.ring 1 63).head))) ∧
    ((4 = 4 ∨ 4 = 8) ∧ ((sRe.ring 1 63).state ≠ RingState.running)) ∧
((4 = 4 ∨ 4 = 8) ∧ ((sRc.ring 1 63).state = RingState.running ∨ (sRc.ring 1 63).state = RingState.error) ∧ (countSub (5 % 2 ^ 32) (sRc.ring 1
      63).cqHead ≤ countSub (sRc.ring 1 63).written (sRc.ring 1 63).cqHead) ∧ ((sRc.ring 1 63).held = [])) ∧
((4 = 4 ∨ 4 = 8) ∧ ((sRc.ring 1 63).state = RingState.running) ∧ (countSub (sRc.ring 1 63).written (sRc.ring 1 63).cqHead < countSub (6 % 2 ^ 32)
      (sRc.ring 1 63).cqHead)) ∧
    ((4 = 4 ∨ 4 = 8) ∧ ((sRg.ring 1 63).state = RingState.disabled ∨ (sRg.ring 1 63).state = RingState.draining)) ∧
    (4 = 4 ∨ 4 = 8) ∧
    (8 = 4 ∨ 8 = 8) ∧
    (4 ≠ 4 ∧ 4 ≠ 8 ∨ 2 % 4 ≠ 0) ∧
    (2 ≠ 4 ∧ 2 ≠ 8 ∨ (8 + 0) % 2 ≠ 0) ∧
((sRf.alive = true) ∧ (sRf.fetchStopped 1 = false) ∧ (List.find? (fun i => sRf.fetchable 1 i) (List.map (fun i => ((sRf.port 1).rr + i) % 64)
      (List.range 64)) = some 63)) ∧
(((sRm.ring 1 63).mismatch = some 100) ∧ (sRm.alive = true) ∧ ((sRm.ring 1 63).state = RingState.running) ∧ ((sRm.ring 1 63).fetch = none) ∧ (100 +
      1400 ≤ sRm.clk.arith) ∧ (sRm.fetchStopped 1 = false) ∧ (sRm.inboundWaits 1 = false)) ∧
    (((sRb0.ring 1 63).fetch = some { first := 1, reread := false : Fetch }) ∧ ((sRb0.port 1).link = true)) ∧
(((sRb0.ring 1 63).fetch = some { first := 1, reread := false : Fetch }) ∧ ((sRb0.port 1).link = true) ∧ ((sRb0.ring 1 63).head ≠ (sRb0.ring 1
      63).tail) ∧ (sRb0.releasing 1 (List.take 8 (List.drop ((sRb0.ring 1 63).head % 8 * 8) (List.map BitVec.toNat (List.replicate 64 (0 : Word)))))
      = false) ∧ (bits ((List.take 8 (List.drop ((sRb0.ring 1 63).head % 8 * 8) (List.map BitVec.toNat (List.replicate 64 (0 : Word))))).getD 0 0) 0
      8 ≠ (sRb0.ring 1 63).head % 256)) ∧
(((sRb0.ring 1 63).fetch = some { first := 1, reread := false : Fetch }) ∧ ((sRb0.port 1).link = true) ∧ ((sRb0.ring 1 63).head ≠ (sRb0.ring 1
      63).tail) ∧ (((sRb0.ring 1 63).head + 1) % 2 ^ 32 = (sRb0.ring 1 63).tail) ∧ (sRb0.releasing 1 (List.take 8 (List.drop ((sRb0.ring 1 63).head
      % 8 * 8) (List.map BitVec.toNat (List.replicate 8 (0 : Word) ++ [(769 : Word), (0 : Word), (0 : Word), (0 : Word), (0 : Word), (0 : Word), (0
      : Word), (0 : Word)])))) = false) ∧ (bits ((List.take 8 (List.drop ((sRb0.ring 1 63).head % 8 * 8) (List.map BitVec.toNat (List.replicate 8 (0
      : Word) ++ [(769 : Word), (0 : Word), (0 : Word), (0 : Word), (0 : Word), (0 : Word), (0 : Word), (0 : Word)])))).getD 0 0) 0 8 = (sRb0.ring 1
      63).head % 256) ∧ ((sRb0.descStatus (jobOf { port := 1, ring := 63, count := (sRb0.ring 1 63).head : JobId } (List.take 8 (List.drop
      ((sRb0.ring 1 63).head % 8 * 8) (List.map BitVec.toNat (List.replicate 8 (0 : Word) ++ [(769 : Word), (0 : Word), (0 : Word), (0 : Word), (0 :
      Word), (0 : Word), (0 : Word), (0 : Word)]))))) (List.take 8 (List.drop ((sRb0.ring 1 63).head % 8 * 8) (List.map BitVec.toNat (List.replicate
      8 (0 : Word) ++ [(769 : Word), (0 : Word), (0 : Word), (0 : Word), (0 : Word), (0 : Word), (0 : Word), (0 : Word)]))))).1 = 0)) := 
  by and_intros <;> decide +kernel
theorem hyps_RunJobs :
((sStby.job? job0 = some jTaken) ∧ (jTaken.kind = 0) ∧ (jTaken.phase = JobPhase.taken) ∧ (sStby.startable jTaken = true) ∧ (jTaken.status = 0) ∧
      ((State.maskQ jTaken fun q => sStby.qState q == 5) = some 2)) ∧
((sStop2.job? job0 = some jTaken) ∧ (jTaken.kind = 0) ∧ (jTaken.phase = JobPhase.taken) ∧ (sStop2.startable jTaken = true) ∧ (jTaken.status = 0) ∧
      ((State.maskQ jTaken fun q => sStop2.qState q == 5) = none) ∧ ((State.maskQ jTaken fun q => sStop2.fbit (blkTSCHED q)
      F.TSCHED.SCHED_STATUS.STOPPED) = some 2)) ∧
((sTaken.job? job0 = some jTaken) ∧ (jTaken.kind = 0) ∧ (jTaken.phase = JobPhase.taken) ∧ (sTaken.startable jTaken = true) ∧ (jTaken.status = 0) ∧
      (∀ q < 4, bit jTaken.qmask q = true → sTaken.qState q ≠ 5 ∧ sTaken.fbit (blkTSCHED q) F.TSCHED.SCHED_STATUS.STOPPED = false) ∧ (sTaken.spanAdm
      (Who.port jTaken.id.port) jTaken.addrA 64 false ≠ Adm.refuse) ∧ ((sTaken.spanTouch (Who.port jTaken.id.port) jTaken.addrA 64).readPoison
      jTaken.addrA 64 = false) ∧ (hdrOk ((sTaken.spanTouch (Who.port jTaken.id.port) jTaken.addrA 64).viewNat jTaken.addrA 64) jTaken.len = false))
      ∧
((sImg.job? job0 = some jTaken) ∧ (jTaken.kind = 0) ∧ (jTaken.phase = JobPhase.taken) ∧ (sImg.startable jTaken = true) ∧ (jTaken.status = 0) ∧ (∀ q
      < 4, bit jTaken.qmask q = true → sImg.qState q ≠ 5 ∧ sImg.fbit (blkTSCHED q) F.TSCHED.SCHED_STATUS.STOPPED = false) ∧ (sImg.spanAdm (Who.port
      jTaken.id.port) jTaken.addrA 64 false ≠ Adm.refuse) ∧ ((sImg.spanTouch (Who.port jTaken.id.port) jTaken.addrA 64).readPoison jTaken.addrA 64 =
      false) ∧ (hdrOk ((sImg.spanTouch (Who.port jTaken.id.port) jTaken.addrA 64).viewNat jTaken.addrA 64) jTaken.len = true) ∧ ((sImg.spanTouch
      (Who.port jTaken.id.port) jTaken.addrA 64).spanAdm (Who.port jTaken.id.port) (jTaken.addrA + hdrOff ((sImg.spanTouch (Who.port jTaken.id.port)
      jTaken.addrA 64).viewNat jTaken.addrA 64)) (64 * hdrNroot ((sImg.spanTouch (Who.port jTaken.id.port) jTaken.addrA 64).viewNat jTaken.addrA
      64)) false ≠ Adm.refuse) ∧ (∀ e ∈ ((sImg.spanTouch (Who.port jTaken.id.port) jTaken.addrA 64).spanTouch (Who.port jTaken.id.port)
      (jTaken.addrA + hdrOff ((sImg.spanTouch (Who.port jTaken.id.port) jTaken.addrA 64).viewNat jTaken.addrA 64)) (64 * hdrNroot ((sImg.spanTouch
      (Who.port jTaken.id.port) jTaken.addrA 64).viewNat jTaken.addrA 64))).rootsOf jTaken ((sImg.spanTouch (Who.port jTaken.id.port) jTaken.addrA
      64).viewNat jTaken.addrA 64), ((sImg.spanTouch (Who.port jTaken.id.port) jTaken.addrA 64).spanTouch (Who.port jTaken.id.port) (jTaken.addrA +
      hdrOff ((sImg.spanTouch (Who.port jTaken.id.port) jTaken.addrA 64).viewNat jTaken.addrA 64)) (64 * hdrNroot ((sImg.spanTouch (Who.port
      jTaken.id.port) jTaken.addrA 64).viewNat jTaken.addrA 64))).readPoison e.1 64 = false ∧ recOk e.2 jTaken.qmask true = true) ∧ (∀ q < 4,
      rootsFor (List.map (fun e => (e.1, rootRec jTaken e.2)) (((sImg.spanTouch (Who.port jTaken.id.port) jTaken.addrA 64).spanTouch (Who.port
      jTaken.id.port) (jTaken.addrA + hdrOff ((sImg.spanTouch (Who.port jTaken.id.port) jTaken.addrA 64).viewNat jTaken.addrA 64)) (64 * hdrNroot
      ((sImg.spanTouch (Who.port jTaken.id.port) jTaken.addrA 64).viewNat jTaken.addrA 64))).rootsOf jTaken ((sImg.spanTouch (Who.port
      jTaken.id.port) jTaken.addrA 64).viewNat jTaken.addrA 64))) q ≤ 16384)) ∧
((sWait.job? job0 = some jWait) ∧ (jWait.phase = JobPhase.rootsWait) ∧ (sWait.alive = true) ∧ (sWait.roomFor jWait = true) ∧ (((sWait.earlier
      job0).any fun y => y.phase == JobPhase.rootsWait) = false) ∧ (∀ e ∈ jWait.roots, e.2.q < 4) ∧ (jWait.handleOut = 0 ∨ ((sWait.takeRoots job0
      jWait.roots).1.updJob job0 fun y => { id := y.id, kind := y.kind, qmask := y.qmask, cls := y.cls, level := y.level, irq := y.irq, ordered := y.ordered, tag := y.tag, addrA := y.addrA, addrB := y.addrB, len := y.len, launch := y.launch, arg := y.arg, user := y.user, phase := JobPhase.rootsHeld, status := y.status, errRef := y.errRef, spoilt := y.spoilt, noRecord := y.noRecord, roots := y.roots, handleOut := y.handleOut, issued := y.issued, done := y.done, gtcEnd := y.gtcEnd, endAt := y.endAt : Job }).spanAdm
      (Who.port jWait.id.port) jWait.handleOut (List.flatMap (leBytes 4) (sWait.takeRoots job0 jWait.roots).2).length true ≠ Adm.refuse)) ∧
    (((sL jHeld 50).job? job0 = some jHeld) ∧ ((sL jHeld 50).alive = true) ∧ (jHeld.phase = JobPhase.rootsHeld) ∧ (jHeld.launch = 0)) ∧
(((sL (jL JobPhase.rootsHeld 0 50) 50).job? job0 = some (jL JobPhase.rootsHeld 0 50)) ∧ ((sL (jL JobPhase.rootsHeld 0 50) 50).alive = true) ∧ ((jL
      JobPhase.rootsHeld 0 50).launch ≠ 0) ∧ ((jL JobPhase.rootsHeld 0 50).launch ≤ (sL (jL JobPhase.rootsHeld 0 50) 50).now) ∧ ((jL
      JobPhase.rootsHeld 0 50).phase = JobPhase.rootsHeld)) ∧
(((sL (jL JobPhase.begun 1 50) 50).job? job0 = some (jL JobPhase.begun 1 50)) ∧ ((sL (jL JobPhase.begun 1 50) 50).alive = true) ∧ ((jL
      JobPhase.begun 1 50).launch ≠ 0) ∧ ((jL JobPhase.begun 1 50).launch ≤ (sL (jL JobPhase.begun 1 50) 50).now) ∧ ((jL JobPhase.begun 1 50).phase
      = JobPhase.begun)) ∧
(((sL (jL JobPhase.rootsHeld 0 51) 50).job? job0 = some (jL JobPhase.rootsHeld 0 51)) ∧ ((sL (jL JobPhase.rootsHeld 0 51) 50).alive = true) ∧ ((jL
      JobPhase.rootsHeld 0 51).launch ≠ 0) ∧ ((sL (jL JobPhase.rootsHeld 0 51) 50).now < (jL JobPhase.rootsHeld 0 51).launch)) ∧
(((sL (jL JobPhase.rootsHeld 0 51) 50).job? job0 = some (jL JobPhase.rootsHeld 0 51)) ∧ ((sL (jL JobPhase.rootsHeld 0 51) 50).alive = true) ∧ ((jL
      JobPhase.rootsHeld 0 51).launch ≠ 0) ∧ ((sL (jL JobPhase.rootsHeld 0 51) 50).now < (jL JobPhase.rootsHeld 0 51).launch)) := 
  by and_intros <;> decide +kernel
theorem hyps_CopiesAndHostReads :
((sCi.job? job0 = some (jC 1 JobPhase.begun)) ∧ (sCi.alive = true) ∧ ((jC 1 JobPhase.begun).kind = 1) ∧ ((jC 1 JobPhase.begun).phase =
      JobPhase.begun) ∧ ((jC 1 JobPhase.begun).launch = 0) ∧ ((jC 1 JobPhase.begun).issued < (jC 1 JobPhase.begun).len / 64)) ∧
((sCt.job? job0 = some (jC 1 JobPhase.taken)) ∧ (sCt.alive = true) ∧ ((jC 1 JobPhase.taken).id = job0) ∧ ((jC 1 JobPhase.taken).phase =
      JobPhase.taken) ∧ (sCt.startable (jC 1 JobPhase.taken) = true) ∧ ((jC 1 JobPhase.taken).kind = 1)) ∧
((sCt2.job? job0 = some (jC 2 JobPhase.taken)) ∧ (sCt2.alive = true) ∧ ((jC 2 JobPhase.taken).id = job0) ∧ ((jC 2 JobPhase.taken).phase =
      JobPhase.taken) ∧ (sCt2.startable (jC 2 JobPhase.taken) = true) ∧ ((jC 2 JobPhase.taken).kind = 2)) ∧
((sCo.job? job0 = some (jC 2 JobPhase.begun)) ∧ (sCo.alive = true) ∧ ((jC 2 JobPhase.begun).kind = 2) ∧ ((jC 2 JobPhase.begun).phase =
      JobPhase.begun) ∧ ((jC 2 JobPhase.begun).launch = 0) ∧ ((jC 2 JobPhase.begun).issued < (jC 2 JobPhase.begun).len / 64) ∧ (sCo.spanAdm
      (Who.port job0.port) ((jC 2 JobPhase.begun).addrA + 64 * (jC 2 JobPhase.begun).issued) 64 false = Adm.go) ∧ ((sCo.port job0.port).d3hot =
      false) ∧ ((sCo.port job0.port).link = true) ∧ (∀ b ∈ blocksOf ((jC 2 JobPhase.begun).addrA + 64 * (jC 2 JobPhase.begun).issued) 64,
      ((sCo.issued job0).spanTouch (Who.port job0.port) ((jC 2 JobPhase.begun).addrA + 64 * (jC 2 JobPhase.begun).issued) 64).readPoison b.1 b.2 =
      false)) ∧
((List.find? (fun y => y.id == 9) sHr.hostReads = some (hr (HostReadFor.request 6))) ∧ ((sHr.port (hr (HostReadFor.request 6)).port).link = true) ∧
      ((hr (HostReadFor.request 6)).for_ = HostReadFor.request 6) ∧ (sHr.req? 6 = some rqH)) ∧
((List.find? (fun y => y.id == 9) sHc.hostReads = some (hr (HostReadFor.copyIn job0 524288))) ∧ ((sHc.port (hr (HostReadFor.copyIn job0
      524288)).port).link = true) ∧ ((hr (HostReadFor.copyIn job0 524288)).for_ = HostReadFor.copyIn job0 524288) ∧ (sHc.job? job0 = some (jC 1
      JobPhase.begun)) ∧ ((jC 1 JobPhase.begun).phase = JobPhase.begun) ∧ (sHc.spanAdm (Who.port job0.port) 524288 64 true = Adm.go)) ∧
((List.find? (fun y => y.id == 9) sHr.hostReads = some (hr (HostReadFor.request 6))) ∧ ((hr (HostReadFor.request 6)).for_ = HostReadFor.request 6) ∧
      (sHr.req? 6 = some rqH) ∧ (rqH.posted = false)) ∧
((List.find? (fun y => y.id == 9) sHc.hostReads = some (hr (HostReadFor.copyIn job0 524288))) ∧ ((hr (HostReadFor.copyIn job0 524288)).for_ =
      HostReadFor.copyIn job0 524288) ∧ (sHc.job? job0 = some (jC 1 JobPhase.begun)) ∧ ((jC 1 JobPhase.begun).status = 0) ∧ ((jC 1
      JobPhase.begun).phase = JobPhase.begun)) ∧
    ((List.find? (fun y => y.id == 9) sHf.hostReads = some (hr (HostReadFor.fetch 5))) ∧ ((hr (HostReadFor.fetch 5)).for_ = HostReadFor.fetch 5)) := 
  by and_intros <;> decide +kernel
theorem hyps_JobsEnd :
    ((sFe.job? job0 = some jF) ∧ (jF.kind = 3) ∧ (jF.phase = JobPhase.taken) ∧ (jF.status = 0) ∧ (sFe.earlier job0 = [])) ∧
    ((sE.job? job0 = some jE) ∧ (sE.completable jE = true) ∧ (jE.noRecord = true)) ∧
((sErF.job? job0 = some jEr) ∧ (sErF.completable jEr = true) ∧ (jEr.noRecord = false) ∧ (((sErF.applyAddsOf job0).ring job0.port job0.ring).held ≠
      [] ∨ (sErF.applyAddsOf job0).cqFull job0.port job0.ring = true ∨ ((sErF.applyAddsOf job0).port job0.port).d3hot = true)) ∧
((sErO.job? job0 = some jEr) ∧ (sErO.completable jEr = true) ∧ (jEr.noRecord = false) ∧ (((sErO.applyAddsOf job0).ring job0.port job0.ring).held =
      []) ∧ ((sErO.applyAddsOf job0).cqFull job0.port job0.ring = false) ∧ (((sErO.applyAddsOf job0).port job0.port).d3hot = false)) ∧
((0 < (sCoal.ring 1 63).coalN) ∧ (sCoal.fget (blkJI 1) F.JI.RING_CQ_CTL.COAL_TIME (64 * 63) ≠ 0) ∧ ((sCoal.ring 1 63).coalAt + 1024 * sCoal.fget
      (blkJI 1) F.JI.RING_CQ_CTL.COAL_TIME (64 * 63) ≤ sCoal.clk.arith)) ∧
((sCan.job? { port := 0, ring := bits (BitVec.toNat (0 : Word)) 0 6, count := bits (BitVec.toNat (0 : Word)) 32 32 : JobId } = some job1) ∧
      (job1.kind ≠ 3) ∧ (job1.noRecord = false) ∧ (job1.status = 0) ∧ (job1.phase ≠ JobPhase.ended)) ∧
(∀ x ∈ sE.job? { port := 0, ring := bits (BitVec.toNat (0 : Word)) 0 6, count := bits (BitVec.toNat (0 : Word)) 32 32 : JobId }, x.kind = 3 ∨
      x.noRecord = true ∨ x.status ≠ 0 ∨ x.phase = JobPhase.ended) := 
  by and_intros <;> decide +kernel
theorem hyps_Partitions :
    ((2 : BitVec 4) ≠ (0 : BitVec 4)) ∧
    (BitVec.toNat (6 : BitVec 4) &&& (sOwn.ownedMask (1 - 1) ||| (sOwn.port (1 - 1)).acqMask.toNat) ≠ 0) ∧
(((12 : BitVec 4) ≠ (0 : BitVec 4)) ∧ (BitVec.toNat (12 : BitVec 4) &&& (sOwn.ownedMask (1 - 1) ||| (sOwn.port (1 - 1)).acqMask.toNat) = 0) ∧
      (sOwn.ownedMask 1 < 16)) ∧
    ((sLost.port (1 - 1)).lost = true) ∧
    ((sOwn.port (1 - 1)).lost = false) ∧
(((sRel.port 0).relMask ≠ (0 : BitVec 4)) ∧ (sRel.ownedMask 0 < 16) ∧ ((sRel.jobs.any fun j => j.id.port == 0 && j.kind == 0 && j.qmask &&&
      (sRel.port 0).relMask.toNat != 0) = false)) ∧
(((sAcq.port 1).relMask = (0 : BitVec 4)) ∧ ((sAcq.port 1).acqMask ≠ (0 : BitVec 4)) ∧ (sAcq.ownedMask 1 < 16) ∧ ((sAcq.jobs.any fun j => j.id.port
      == 1 - 1) = false)) := 
  by and_intros <;> decide +kernel
theorem hyps_RegisterReads :
    ((blockKind 1536 = some BlockKind.clk) ∧ (sizeOk 4 2 = false)) ∧
    ((blockKind 1536 = some BlockKind.clk) ∧ (sizeOk 4 8 = false)) ∧
    ((blockKind 1536 = some BlockKind.clk) ∧ (sizeOk 4 8 = false)) ∧
    ((blockKind 1536 = some BlockKind.clk) ∧ (sizeOk 4 8 = false)) ∧
    ((blockKind 1536 = some BlockKind.clk) ∧ (sizeOk 4 8 = false)) ∧
    ((blockKind (blkSYNC 1) = some BlockKind.sync) ∧ (sizeOk 8 8 = true) ∧ (sGone.blockGone (blkSYNC 1) = true)) ∧
    ((blockKind (blkSYNC 1) = some BlockKind.sync) ∧ (sizeOk 8 4 = true) ∧ (sGone.blockGone (blkSYNC 1) = true)) ∧
    ((blockKind (blkSYNC 1) = some BlockKind.sync) ∧ (sizeOk 8 4 = true) ∧ (sGone.blockGone (blkSYNC 1) = true)) ∧
    ((blockKind (blkSYNC 1) = some BlockKind.sync) ∧ (sizeOk 12 4 = true) ∧ (sGone.blockGone (blkSYNC 1) = true)) ∧
    ((blockKind (blkSYNC 1) = some BlockKind.sync) ∧ (sizeOk 8 4 = true) ∧ (sGone.blockGone (blkSYNC 1) = true)) ∧
((blockKind 1536 = some BlockKind.clk) ∧ (sizeOk 0 8 = true) ∧ (flat.blockGone 1536 = false) ∧ (BlockKind.clk ≠ BlockKind.mesh) ∧ (BlockKind.clk ≠
      BlockKind.pcie)) ∧
((blockKind 1536 = some BlockKind.clk) ∧ (sizeOk 65528 8 = true) ∧ (flat.blockGone 1536 = false) ∧ (BlockKind.clk ≠ BlockKind.mesh) ∧ (BlockKind.clk
      ≠ BlockKind.pcie) ∧ (isObj BlockKind.clk ((65528 / 8 : Nat) * 8) = false) ∧ (fieldsAt BlockKind.clk ((65528 / 8 : Nat) * 8) = [])) ∧
((blockKind (blkSYNC 3) = some BlockKind.sync) ∧ (sizeOk 8 8 = true) ∧ (flat.blockGone (blkSYNC 3) = false) ∧ (BlockKind.sync ≠ BlockKind.mesh) ∧
      (BlockKind.sync ≠ BlockKind.pcie) ∧ (isObj BlockKind.sync ((8 / 8 : Nat) * 8) = false) ∧ (fieldsAt BlockKind.sync ((8 / 8 : Nat) * 8) =
      [F.SYNC.WAIT_LIMIT.LIMIT]) ∧ ([F.SYNC.WAIT_LIMIT.LIMIT] = [F.SYNC.WAIT_LIMIT.LIMIT]) ∧ (8 = 8) ∧ (F.SYNC.WAIT_LIMIT.LIMIT.lo +
      F.SYNC.WAIT_LIMIT.LIMIT.w ≤ 64)) ∧
(((sWaitIn.port 1).link = true) ∧ ((sWaitIn.port 1).d3hot = false) ∧ (0 < 8) ∧ (BitVec.toNat (0 : BitVec 32) + 8 ≤ 2 ^ 32) ∧ (sWaitIn.alive = true)
      ∧ (sWaitIn.inboundWaits 1 = true)) ∧
(((sBarU.port 1).link = true) ∧ ((sBarU.port 1).d3hot = false) ∧ (0 < 8) ∧ (BitVec.toNat (4294967288 : BitVec 32) + 8 ≤ 2 ^ 32) ∧
      (sBarU.inboundWaits 1 = false) ∧ (sBarU.alive = true) ∧ (mapped (sBarU.fget (blkJI 1) F.JI.APERTURE_BASE.BASE * 2 ^ 32 + BitVec.toNat
      (4294967288 : BitVec 32)) false = false) ∧ (unlisted (sBarU.fget (blkJI 1) F.JI.APERTURE_BASE.BASE * 2 ^ 32 + BitVec.toNat (4294967288 :
      BitVec 32)) = false)) ∧
(((sBarU.port 1).link = true) ∧ ((sBarU.port 1).d3hot = false) ∧ (0 < 8) ∧ (BitVec.toNat (0 : BitVec 32) + 8 ≤ 2 ^ 32) ∧ (sBarU.inboundWaits 1 =
      false) ∧ (sBarU.alive = true) ∧ (mapped (sBarU.fget (blkJI 1) F.JI.APERTURE_BASE.BASE * 2 ^ 32 + BitVec.toNat (0 : BitVec 32)) false = false)
      ∧ (unlisted (sBarU.fget (blkJI 1) F.JI.APERTURE_BASE.BASE * 2 ^ 32 + BitVec.toNat (0 : BitVec 32)) = false)) ∧
(((sBarU.port 1).link = true) ∧ ((sBarU.port 1).d3hot = false) ∧ (0 < 8) ∧ (BitVec.toNat (4293918720 : BitVec 32) + 8 ≤ 2 ^ 32) ∧
      (sBarU.inboundWaits 1 = false) ∧ (sBarU.regsOn = true) ∧ (unlisted (regsBase + BitVec.toNat (4293918720 : BitVec 32)) = true)) ∧
(((sBarU.port 1).link = true) ∧ ((sBarU.port 1).d3hot = false) ∧ (0 < 8) ∧ (BitVec.toNat (1610612736 : BitVec 32) + 8 ≤ 2 ^ 32) ∧
      (sBarU.inboundWaits 1 = false) ∧ (sBarU.regsOn = true) ∧ (region (regsBase + BitVec.toNat (1610612736 : BitVec 32)) = Region.regs 1536 0) ∧
      (region (regsBase + BitVec.toNat (1610612736 : BitVec 32) + 8 - 1) = Region.regs 1536 7) ∧ ((blockKind 1536).isSome = true)) ∧
(((sBarT.port 1).link = true) ∧ ((sBarT.port 1).d3hot = false) ∧ (0 < 8) ∧ (BitVec.toNat (4294967288 : BitVec 32) + 8 ≤ 2 ^ 32) ∧
      (sBarT.inboundWaits 1 = false) ∧ (sBarT.alive = true) ∧ (InStacks (sBarT.fget (blkJI 1) F.JI.APERTURE_BASE.BASE * 2 ^ 32 + BitVec.toNat
      (4294967288 : BitVec 32)) 8) ∧ (sBarT.spanAdm (Who.port 1) (sBarT.fget (blkJI 1) F.JI.APERTURE_BASE.BASE * 2 ^ 32 + BitVec.toNat (4294967288 :
      BitVec 32)) 8 false = Adm.go)) ∧
(((sBarT.port 1).link = true) ∧ ((sBarT.port 1).d3hot = false) ∧ (0 < 8) ∧ (BitVec.toNat (4294967288 : BitVec 32) + 8 ≤ 2 ^ 32) ∧
      (sBarT.inboundWaits 1 = false) ∧ (InStacks (sBarT.fget (blkJI 1) F.JI.APERTURE_BASE.BASE * 2 ^ 32 + BitVec.toNat (4294967288 : BitVec 32)) 8)
      ∧ (Plain sBarT)) := 
  by and_intros <;> decide +kernel
theorem hyps_RegisterWrites :
    ((region (BitVec.toNat (regA 1536 0)) = Region.regs 1536 0) ∧ (sHeld0.regsUp (Requester.port (1 : Fin 2)) 1536 = false)) ∧
((region (BitVec.toNat (regA 4095 16)) = Region.regs 4095 16) ∧ (Requester.port (1 : Fin 2) = Requester.port (1 : Fin 2)) ∧ (flat.regsUp
      (Requester.port (1 : Fin 2)) 4095 = true) ∧ (blockKind 4095 = none)) ∧
((region (BitVec.toNat (regA 1536 4)) = Region.regs 1536 4) ∧ (flat.regsUp (Requester.port (1 : Fin 2)) 1536 = true) ∧ (blockKind 1536 = some
      BlockKind.clk) ∧ (sizeOk 4 8 = false ∨ flat.blockGone 1536 = true ∨ BlockKind.clk ≠ BlockKind.qctl ∧ flat.mayWrite (Requester.port (1 : Fin
      2)) (blockOf 1536) ((4 / 8 : Nat) * 8) = false)) ∧
((region (BitVec.toNat (regA (blkPRESS 3) 0)) = Region.regs (blkPRESS 3) 0) ∧ (flat.regsUp Requester.firmware (blkPRESS 3) = true) ∧ (blockKind
      (blkPRESS 3) = some BlockKind.press) ∧ (sizeOk 0 8 = true) ∧ (flat.blockGone (blkPRESS 3) = false) ∧ (flat.mayWrite Requester.firmware
      (blkPRESS 3) ((0 / 8 : Nat) * 8) = true)) := 
  by and_intros <;> decide +kernel
theorem hyps_LedgerChanges :
    ((flat.fget blkSILPAOT F.SILPAOT.SVN_FLOOR.FLOOR < BitVec.toNat (261 : Word) % 256) ∧ (flat.ledgerUsed 1 0 < 255)) ∧
    (BitVec.toNat (256 : Word) % 256 ≤ flat.fget blkSILPAOT F.SILPAOT.SVN_FLOOR.FLOOR ∨ 255 ≤ flat.ledgerUsed 1 0) ∧
    ((isFw (Requester.port (0 : Fin 2)) = false) ∧ (lwFields (BitVec.toNat (1088 : BitVec 12)) (BitVec.toNat (48 : BitVec 20)) ≠ [])) ∧
    ((1023 < 1024) ∧ (31 < 32) ∧ (flat.ledgerUsed 5 1 < 32) ∧ (∀ x < 1024, corePlace flat.trust.cores 1 x ≠ 1024 + 31)) := 
  by and_intros <;> decide +kernel
theorem hyps_HomesAndFills :
((q1s.arrived q1.id = some q1) ∧ (q1.who = Who.thread 0) ∧ (q1s.inOrder q1 = true) ∧ (q1s.oadds = []) ∧ (region q1.addr = Region.scratch 3) ∧
      (q1s.admission (Who.thread 0) q1.addr q1.size (q1.isSt || q1.isAmo) q1.isAmo = Adm.go) ∧ (q1s.isOrdered q1 = false) ∧ (q1.op = ReqOp.st) ∧
      (q1.bad = 0)) ∧
((q2s.arrived q2.id = some q2) ∧ (q2.who = Who.thread 0) ∧ (q2s.inOrder q2 = true) ∧ (q2s.oadds = []) ∧ (region q2.addr = Region.scratch 3) ∧
      (q2s.admission (Who.thread 0) q2.addr q2.size (q2.isSt || q2.isAmo) q2.isAmo = Adm.go) ∧ (q2s.isOrdered q2 = false) ∧ (q2.op = ReqOp.ld ∨
      q2.op = ReqOp.spawn ∨ q2.op = ReqOp.fetch)) ∧
((q3s.arrived q3.id = some q3) ∧ (q3.who = Who.thread 0) ∧ (q3s.inOrder q3 = true) ∧ (q3s.oadds = []) ∧ (region q3.addr = Region.scratch 3) ∧
      (q3s.admission (Who.thread 0) q3.addr q3.size (q3.isSt || q3.isAmo) q3.isAmo = Adm.go) ∧ (q3s.isOrdered q3 = false) ∧ (q3.op = ReqOp.amo 0) ∧
      (q3s.readPoison q3.addr q3.size = false) ∧ (q3.bad &&& q3.cwMask = 0)) ∧
((q4s.arrived q4.id = some q4) ∧ (q4.who = Who.thread 0) ∧ (q4s.inOrder q4 = true) ∧ (q4s.oadds = []) ∧ (region q4.addr = Region.stack 3) ∧
      (q4s.admission (Who.thread 0) q4.addr q4.size (q4.isSt || q4.isAmo) q4.isAmo = Adm.go) ∧ (q4s.isOrdered q4 = false) ∧ (q4s.cacheOn 3 = false)
      ∧ (q4s.clines = []) ∧ (q4s.inPc q4.id = false) ∧ (q4.op = ReqOp.st) ∧ (q4.bad = 0) ∧ (q4s.roomAt q4.addr true (q4.cls == Cls.lat) = true)) ∧
((q5s.arrived q5.id = some q5) ∧ (q5.who = Who.thread 0) ∧ (q5s.inOrder q5 = true) ∧ (q5s.oadds = []) ∧ (region q5.addr = Region.stack 3) ∧
      (q5s.admission (Who.thread 0) q5.addr q5.size (q5.isSt || q5.isAmo) q5.isAmo = Adm.go) ∧ (q5s.isOrdered q5 = false) ∧ (q5s.cacheOn 3 = false)
      ∧ (q5s.clines = []) ∧ (q5s.inPc q5.id = false) ∧ (q5.op = ReqOp.ld) ∧ (q5s.queuedWrite q5.addr = false) ∧ (q5s.roomAt q5.addr false (q5.cls ==
      Cls.lat) = true)) ∧
((q6s.arrived q4.id = some q4) ∧ (q4.who = Who.thread 0) ∧ (q6s.inOrder q4 = true) ∧ (q6s.oadds = []) ∧ (region q4.addr = Region.stack 3) ∧
      (q6s.admission (Who.thread 0) q4.addr q4.size (q4.isSt || q4.isAmo) q4.isAmo = Adm.go) ∧ (q6s.isOrdered q4 = false) ∧ (q6s.cacheOn 3 = false)
      ∧ (q6s.clines = []) ∧ (q6s.inPc q4.id = false) ∧ (q4.op = ReqOp.st) ∧ (q6s.roomAt q4.addr true (q4.cls == Cls.lat) = false)) ∧
((q7s.arrived (hq ReqOp.ld 256 8 4).id = some (hq ReqOp.ld 256 8 4)) ∧ ((hq ReqOp.ld 256 8 4).who = Who.thread 0) ∧ (q7s.inOrder (hq ReqOp.ld 256 8
      4) = true) ∧ (q7s.oadds = []) ∧ (inDevMem (hq ReqOp.ld 256 8 4).addr = true) ∧ ((hq ReqOp.ld 256 8 4).posted = false) ∧ (q7s.admission
      (Who.thread 0) (hq ReqOp.ld 256 8 4).addr (hq ReqOp.ld 256 8 4).size ((hq ReqOp.ld 256 8 4).isSt || (hq ReqOp.ld 256 8 4).isAmo) (hq ReqOp.ld
      256 8 4).isAmo = Adm.refuse)) ∧
((List.find? (fun x => x.req == 1 && x.ready) q8s.misses = some m8) ∧ (q8s.alive = true) ∧ (q8s.req? 1 = some (hq ReqOp.ld 264 8 4)) ∧ (region (hq
      ReqOp.ld 264 8 4).addr = Region.stack 0) ∧ (m8.line = (hq ReqOp.ld 264 8 4).addr / 256) ∧ (lineQ m8.line = 0) ∧ (q8s.cacheOn 0 = true) ∧
      (q8s.oadds = []) ∧ (q8s.fbit (blkCELLAR 0) F.CELLAR.CACHE_STATUS.DISABLING = false) ∧ (q8s.admission (Who.thread (hq ReqOp.ld 264 8 4).key)
      (hq ReqOp.ld 264 8 4).addr (hq ReqOp.ld 264 8 4).size ((hq ReqOp.ld 264 8 4).isSt || (hq ReqOp.ld 264 8 4).isAmo) (hq ReqOp.ld 264 8 4).isAmo
      = Adm.go) ∧ (q8s.holdsLine m8.line = false) ∧ (q8s.canAlloc m8.line = true) ∧ ((hq ReqOp.ld 264 8 4).op = ReqOp.ld)) := 
  by and_intros <;> decide +kernel
theorem hyps_EngineQueues :
((sSub.alive = true) ∧ (sSub.submitReq (EUnit.grind 5) 1 = some sq) ∧ (sq.id = 1) ∧ (sq.who = Who.thread 0) ∧ (sSub.job? sq.job = some job1) ∧
      (job1.status = 0) ∧ ((match EUnit.grind 5 with   | EUnit.grind g => sSub.qState (g / 4) == 1   | x => true) =   true) ∧ ((sSub.heldSubs.any
      fun h => h.2 == 1) = false) ∧ ((sSub.queuedOf (EUnit.grind 5)).length < (EUnit.grind 5).cap) ∧ ((sSub.heldSubs.any fun h => h.1 == EUnit.grind
      5) = false)) ∧
((sSubF.alive = true) ∧ (sSubF.submitReq (EUnit.grind 5) 1 = some sq) ∧ (sq.id = 1) ∧ (sq.who = Who.thread 0) ∧ (sSubF.job? sq.job = some job1) ∧
      (job1.status = 0) ∧ ((match EUnit.grind 5 with   | EUnit.grind g => sSubF.qState (g / 4) == 1   | x => true) =   true) ∧ ((sSubF.heldSubs.any
      fun h => h.2 == 1) = false) ∧ ((EUnit.grind 5).cap ≤ (sSubF.queuedOf (EUnit.grind 5)).length ∨ (sSubF.heldSubs.any fun h => h.1 == EUnit.grind
      5) = true)) ∧
((sSubH.alive = true) ∧ (sSubH.submitReq (EUnit.grind 5) 1 = some sq) ∧ (sq.id = 1) ∧ (sq.who = Who.thread 0) ∧ (sSubH.job? sq.job = some job1) ∧
      (job1.status = 0) ∧ (List.find? (fun h => h.1 == EUnit.grind 5) sSubH.heldSubs = some (EUnit.grind 5, 1)) ∧ (List.find? (fun h => h.2 == 1)
      sSubH.heldSubs = some (EUnit.grind 5, 1)) ∧ ((sSubH.queuedOf (EUnit.grind 5)).length < (EUnit.grind 5).cap)) ∧
((sSubS.alive = true) ∧ (sSubS.submitReq (EUnit.grind 5) 1 = some sq) ∧ (sq.id = 1) ∧ (sq.who = Who.thread 0) ∧ (sSubS.job? sq.job = some job1) ∧
      (job1.status = 0) ∧ (EUnit.grind 5 = EUnit.grind 5) ∧ (5 < 16) ∧ (sSubS.qState (5 / 4 : Nat) ≠ 1) ∧ (sSubS.qState (5 / 4 : Nat) ≠ 5) ∧
      ((sSubS.heldSubs.any fun h => h.2 == 1) = false)) ∧
    ((sTab.alive = true) ∧ (sTab.qUp (5 / 4) = true)) ∧
    ((sTab.alive = true) ∧ (sTab.qUp (5 / 4) = true)) ∧
    ((flat.alive = true) ∧ (flat.qUp (5 / 4) = true)) ∧
    ((flat.alive = true) ∧ (flat.now % 256 = 0)) := 
  by and_intros <;> decide +kernel
def w_GrinderBegins_1_0 : Cmd := { id := c5.id, unit := c5.unit, addr := c5.addr, thread := c5.thread, started := c5.started, job := c5.job, mode := c5.mode, modeSens := c5.modeSens, phase := CmdPhase.active, words := lkW 1, status := c5.status, errRef := c5.errRef, slot := c5.slot, next := c5.next, cnt := c5.cnt, bytes := c5.bytes, dropped := c5.dropped, cold := c5.cold, open_ := c5.open_ : Cmd }
def w_GrinderBegins_1_1 : Cmd := { id := w_GrinderBegins_1_0.id, unit := w_GrinderBegins_1_0.unit, addr := w_GrinderBegins_1_0.addr, thread := w_GrinderBegins_1_0.thread, started := w_GrinderBegins_1_0.started, job := w_GrinderBegins_1_0.job, mode := w_GrinderBegins_1_0.mode, modeSens := w_GrinderBegins_1_0.modeSens, phase := w_GrinderBegins_1_0.phase, words := w_GrinderBegins_1_0.words, status := w_GrinderBegins_1_0.status, errRef := w_GrinderBegins_1_0.errRef, slot := (sLk.spanTouch (Who.grind 5) 1048576 64).slot 5 w_GrinderBegins_1_0.slotNo, next := w_GrinderBegins_1_0.next, cnt := w_GrinderBegins_1_0.cnt, bytes := w_GrinderBegins_1_0.bytes, dropped := w_GrinderBegins_1_0.dropped, cold := w_GrinderBegins_1_0.cold, open_ := w_GrinderBegins_1_0.open_ : Cmd }
def w_GrinderBegins_2_0 : Cmd := { id := c5.id, unit := c5.unit, addr := c5.addr, thread := c5.thread, started := c5.started, job := c5.job, mode := c5.mode, modeSens := c5.modeSens, phase := CmdPhase.active, words := lkW 1, status := c5.status, errRef := c5.errRef, slot := c5.slot, next := c5.next, cnt := c5.cnt, bytes := c5.bytes, dropped := c5.dropped, cold := c5.cold, open_ := c5.open_ : Cmd }
def w_GrinderBegins_2_1 : Cmd := { id := w_GrinderBegins_2_0.id, unit := w_GrinderBegins_2_0.unit, addr := w_GrinderBegins_2_0.addr, thread := w_GrinderBegins_2_0.thread, started := w_GrinderBegins_2_0.started, job := w_GrinderBegins_2_0.job, mode := w_GrinderBegins_2_0.mode, modeSens := w_GrinderBegins_2_0.modeSens, phase := w_GrinderBegins_2_0.phase, words := w_GrinderBegins_2_0.words, status := w_GrinderBegins_2_0.status, errRef := w_GrinderBegins_2_0.errRef, slot := (sLkBad.spanTouch (Who.grind 5) 1048576 64).slot 5 w_GrinderBegins_2_0.slotNo, next := w_GrinderBegins_2_0.next, cnt := w_GrinderBegins_2_0.cnt, bytes := w_GrinderBegins_2_0.bytes, dropped := w_GrinderBegins_2_0.dropped, cold := w_GrinderBegins_2_0.cold, open_ := w_GrinderBegins_2_0.open_ : Cmd }
def w_GrinderBegins_3_0 : Cmd := { id := c5.id, unit := c5.unit, addr := c5.addr, thread := c5.thread, started := c5.started, job := c5.job, mode := c5.mode, modeSens := c5.modeSens, phase := CmdPhase.active, words := mvW 3, status := c5.status, errRef := c5.errRef, slot := c5.slot, next := c5.next, cnt := c5.cnt, bytes := c5.bytes, dropped := c5.dropped, cold := c5.cold, open_ := c5.open_ : Cmd }
def w_GrinderBegins_3_1 : Cmd := { id := w_GrinderBegins_3_0.id, unit := w_GrinderBegins_3_0.unit, addr := w_GrinderBegins_3_0.addr, thread := w_GrinderBegins_3_0.thread, started := w_GrinderBegins_3_0.started, job := w_GrinderBegins_3_0.job, mode := w_GrinderBegins_3_0.mode, modeSens := w_GrinderBegins_3_0.modeSens, phase := w_GrinderBegins_3_0.phase, words := w_GrinderBegins_3_0.words, status := w_GrinderBegins_3_0.status, errRef := w_GrinderBegins_3_0.errRef, slot := (sMg.spanTouch (Who.grind 5) 1048576 64).slot 5 w_GrinderBegins_3_0.slotNo, next := w_GrinderBegins_3_0.next, cnt := w_GrinderBegins_3_0.cnt, bytes := w_GrinderBegins_3_0.bytes, dropped := w_GrinderBegins_3_0.dropped, cold := w_GrinderBegins_3_0.cold, open_ := w_GrinderBegins_3_0.open_ : Cmd }
def w_GrinderBegins_4_0 : Cmd := { id := c5.id, unit := c5.unit, addr := c5.addr, thread := c5.thread, started := c5.started, job := c5.job, mode := c5.mode, modeSens := c5.modeSens, phase := CmdPhase.active, words := mvW 4, status := c5.status, errRef := c5.errRef, slot := c5.slot, next := c5.next, cnt := c5.cnt, bytes := c5.bytes, dropped := c5.dropped, cold := c5.cold, open_ := c5.open_ : Cmd }
def w_GrinderBegins_4_1 : Cmd := { id := w_GrinderBegins_4_0.id, unit := w_GrinderBegins_4_0.unit, addr := w_GrinderBegins_4_0.addr, thread := w_GrinderBegins_4_0.thread, started := w_GrinderBegins_4_0.started, job := w_GrinderBegins_4_0.job, mode := w_GrinderBegins_4_0.mode, modeSens := w_GrinderBegins_4_0.modeSens, phase := w_GrinderBegins_4_0.phase, words := w_GrinderBegins_4_0.words, status := w_GrinderBegins_4_0.status, errRef := w_GrinderBegins_4_0.errRef, slot := (sRp.spanTouch (Who.grind 5) 1048576 64).slot 5 w_GrinderBegins_4_0.slotNo, next := w_GrinderBegins_4_0.next, cnt := w_GrinderBegins_4_0.cnt, bytes := w_GrinderBegins_4_0.bytes, dropped := w_GrinderBegins_4_0.dropped, cold := w_GrinderBegins_4_0.cold, open_ := w_GrinderBegins_4_0.open_ : Cmd }
def w_GrinderBegins_5_0 : Cmd := { id := c5.id, unit := c5.unit, addr := c5.addr, thread := c5.thread, started := c5.started, job := c5.job, mode := c5.mode, modeSens := c5.modeSens, phase := CmdPhase.active, words := mvW 4, status := c5.status, errRef := c5.errRef, slot := c5.slot, next := c5.next, cnt := c5.cnt, bytes := c5.bytes, dropped := c5.dropped, cold := c5.cold, open_ := c5.open_ : Cmd }
def w_GrinderBegins_5_1 : Cmd := { id := w_GrinderBegins_5_0.id, unit := w_GrinderBegins_5_0.unit, addr := w_GrinderBegins_5_0.addr, thread := w_GrinderBegins_5_0.thread, started := w_GrinderBegins_5_0.started, job := w_GrinderBegins_5_0.job, mode := w_GrinderBegins_5_0.mode, modeSens := w_GrinderBegins_5_0.modeSens, phase := w_GrinderBegins_5_0.phase, words := w_GrinderBegins_5_0.words, status := w_GrinderBegins_5_0.status, errRef := w_GrinderBegins_5_0.errRef, slot := (sRpH.spanTouch (Who.grind 5) 1048576 64).slot 5 w_GrinderBegins_5_0.slotNo, next := w_GrinderBegins_5_0.next, cnt := w_GrinderBegins_5_0.cnt, bytes := w_GrinderBegins_5_0.bytes, dropped := w_GrinderBegins_5_0.dropped, cold := w_GrinderBegins_5_0.cold, open_ := w_GrinderBegins_5_0.open_ : Cmd }
def w_GrinderBegins_6_0 : Cmd := { id := c5.id, unit := c5.unit, addr := c5.addr, thread := c5.thread, started := c5.started, job := c5.job, mode := c5.mode, modeSens := c5.modeSens, phase := CmdPhase.active, words := mvW 6, status := c5.status, errRef := c5.errRef, slot := c5.slot, next := c5.next, cnt := c5.cnt, bytes := c5.bytes, dropped := c5.dropped, cold := c5.cold, open_ := c5.open_ : Cmd }
theorem hyps_GrinderBegins :
((sLk.qUp (5 / 4) = true) ∧ (Begins sLk (EUnit.grind 5) c5 (lkW 1) (sLk.spanTouch (Who.grind 5) 1048576 64)) ∧ (w_GrinderBegins_1_0.op = 1) ∧
      (((sLk.spanTouch (Who.grind 5) 1048576 64).slot 5 w_GrinderBegins_1_0.slotNo).valid = true) ∧ (lookupOk w_GrinderBegins_1_1 ((sLk.spanTouch
      (Who.grind 5) 1048576 64).slot 5 w_GrinderBegins_1_0.slotNo) = true)) ∧
((sLkBad.qUp (5 / 4) = true) ∧ (Begins sLkBad (EUnit.grind 5) c5 (lkW 1) (sLkBad.spanTouch (Who.grind 5) 1048576 64)) ∧ (w_GrinderBegins_2_0.op = 1)
      ∧ (((sLkBad.spanTouch (Who.grind 5) 1048576 64).slot 5 w_GrinderBegins_2_0.slotNo).valid = false ∨ lookupOk w_GrinderBegins_2_1
      ((sLkBad.spanTouch (Who.grind 5) 1048576 64).slot 5 w_GrinderBegins_2_0.slotNo) = false)) ∧
((sMg.qUp (5 / 4) = true) ∧ (Begins sMg (EUnit.grind 5) c5 (mvW 3) (sMg.spanTouch (Who.grind 5) 1048576 64)) ∧ (w_GrinderBegins_3_0.op = (3,
      Instr.migrate (5 : Fin 16)).1) ∧ (((sMg.spanTouch (Who.grind 5) 1048576 64).slot 5 w_GrinderBegins_3_0.slotNo).valid = true) ∧ (moveOk
      w_GrinderBegins_3_1 = true ∧ ((sMg.spanTouch (Who.grind 5) 1048576 64).slot 5 w_GrinderBegins_3_0.slotNo).home = true)) ∧
((sRp.qUp (5 / 4) = true) ∧ (Begins sRp (EUnit.grind 5) c5 (mvW 4) (sRp.spanTouch (Who.grind 5) 1048576 64)) ∧ (w_GrinderBegins_4_0.op = (4,
      Instr.replace (5 : Fin 16)).1) ∧ (((sRp.spanTouch (Who.grind 5) 1048576 64).slot 5 w_GrinderBegins_4_0.slotNo).valid = false ∨ moveOk
      w_GrinderBegins_4_1 = false)) ∧
((sRpH.qUp (5 / 4) = true) ∧ (Begins sRpH (EUnit.grind 5) c5 (mvW 4) (sRpH.spanTouch (Who.grind 5) 1048576 64)) ∧ (w_GrinderBegins_5_0.op = (4,
      Instr.replace (5 : Fin 16)).1) ∧ (((sRpH.spanTouch (Who.grind 5) 1048576 64).slot 5 w_GrinderBegins_5_0.slotNo).valid = true ∧ moveOk
      w_GrinderBegins_5_1 = true ∧ ((sRpH.spanTouch (Who.grind 5) 1048576 64).slot 5 w_GrinderBegins_5_0.slotNo).home = false)) ∧
((sOp6r.qUp (5 / 4) = true) ∧ (Begins sOp6r (EUnit.grind 5) c5 (mvW 6) (sOp6r.spanTouch (Who.grind 5) 1048576 64)) ∧ (w_GrinderBegins_6_0.op = 0 ∨ 5
      < w_GrinderBegins_6_0.op)) := 
  by and_intros <;> decide +kernel
theorem hyps_LookupPools :
((sBag0.cmd? 7 = some (cA (lkW 1) false)) ∧ ((cA (lkW 1) false).id = 7) ∧ ((cA (lkW 1) false).unit = EUnit.grind 5) ∧ (5 < 16) ∧ ((cA (lkW 1)
      false).phase = CmdPhase.active) ∧ ((cA (lkW 1) false).op = 1) ∧ (Plain sBag0) ∧ (0 = (cA (lkW 1) false).next) ∧ (InStacks ((cA (lkW 1)
      false).word 2 + 4 * (cA (lkW 1) false).next) 8) ∧ (0 < (cA (lkW 1) false).count) ∧ (sBag0.activeBags 5 < 64) ∧ (((sBag0.bagsOf 5).any fun x =>
      x.parked) = false) ∧ (sBag0.bag? 7 0 = none) ∧ (0 = 0 → sBag0.mem.readNat ((cA (lkW 1) false).word 2 + 4 * (cA (lkW 1) false).next) 8 % 2 ^ 32
      = 0) ∧ (sBag0.mem.readNat ((cA (lkW 1) false).word 2 + 4 * (cA (lkW 1) false).next) 8 % 2 ^ 32 < sBag0.mem.readNat ((cA (lkW 1) false).word 2
      + 4 * (cA (lkW 1) false).next) 8 / 2 ^ 32) ∧ (0 + 1 = (cA (lkW 1) false).count → sBag0.mem.readNat ((cA (lkW 1) false).word 2 + 4 * (cA (lkW
      1) false).next) 8 / 2 ^ 32 ≤ 2 ^ 24) ∧ ((sBag0.slot 5 (cA (lkW 1) false).slotNo).valid = true)) ∧
(((sLk2 (bgE 1000 [])).cmd? 7 = some cl1) ∧ (cl1.id = 7) ∧ (cl1.unit = EUnit.grind 5) ∧ (5 < 16) ∧ (cl1.phase = CmdPhase.active) ∧ (cl1.op = 1) ∧
      (Plain (sLk2 (bgE 1000 []))) ∧ ((sLk2 (bgE 1000 [])).bag? 7 0 = some (bgE 1000 [])) ∧ ((bgE 1000 []).cmd = 7) ∧ ((bgE 1000 []).b = 0) ∧ ((bgE
      1000 []).pos + 1 < (bgE 1000 []).hi) ∧ ((bgE 1000 []).reads = [((bgE 1000 []).pos, IdxRead.entry 1000)]) ∧ ((bgE 1000 []).parked = false) ∧
      ((bgE 1000 []).slot.rows ≤ 1000) ∧ ((bgE 1000 []).flits = []) ∧ (cl1.pool ≠ 2) ∧ (cl1.word 6 = 0)) ∧
(((sLk2 (bgB { v := 0, poison := true : Code })).cmd? 7 = some cl1) ∧ (cl1.id = 7) ∧ (cl1.unit = EUnit.grind 5) ∧ (5 < 16) ∧ (cl1.phase =
      CmdPhase.active) ∧ (cl1.op = 1) ∧ (Plain (sLk2 (bgB { v := 0, poison := true : Code }))) ∧ ((sLk2 (bgB { v := 0, poison := true : Code })).bag?
      7 0 = some (bgB { v := 0, poison := true : Code })) ∧ ((bgB { v := 0, poison := true : Code }).cmd = 7) ∧ ((bgB { v := 0, poison := true : Code }).b
      = 0) ∧ ((bgB { v := 0, poison := true : Code }).pos + 1 < (bgB { v := 0, poison := true : Code }).hi) ∧ ((bgB { v := 0, poison := true : Code }).reads
      = [((bgB { v := 0, poison := true : Code }).pos, IdxRead.entry 3)]) ∧ ((bgB { v := 0, poison := true : Code }).parked = false) ∧ ((bgB { v := 0, poison := true : Code }).flits
      = [back 16 [{ v := 0, poison := true : Code }]]) ∧ ((back 16 [{ v := 0, poison := true : Code }]).idx = (bgB { v := 0, poison := true : Code }).pos)
      ∧ ((back 16 [{ v := 0, poison := true : Code }]).n = 16) ∧ ((sLk2 (bgB { v := 0, poison := true : Code })).grindBack (back 16 [{ v := 0, poison := true : Code }])
      = true) ∧ (spoil (back 16 [{ v := 0, poison := true : Code }]).addr (back 16 [{ v := 0, poison := true : Code }]).bad ((back 16 [{ v := 0, poison := true : Code }]).data.getD
      []) = [{ v := 0, poison := true : Code }]) ∧ ({ v := 0, poison := true : Code }.poison = true)) ∧
(((sLk2 (bgB (wB 5242881))).cmd? 7 = some cl1) ∧ (cl1.id = 7) ∧ (cl1.unit = EUnit.grind 5) ∧ (5 < 16) ∧ (cl1.phase = CmdPhase.active) ∧ (cl1.op = 1)
      ∧ (Plain (sLk2 (bgB (wB 5242881)))) ∧ ((sLk2 (bgB (wB 5242881))).bag? 7 0 = some (bgB (wB 5242881))) ∧ ((bgB (wB 5242881)).cmd = 7) ∧ ((bgB
      (wB 5242881)).b = 0) ∧ ((bgB (wB 5242881)).pos + 1 < (bgB (wB 5242881)).hi) ∧ ((bgB (wB 5242881)).reads = [((bgB (wB 5242881)).pos,
      IdxRead.entry 3)]) ∧ ((bgB (wB 5242881)).parked = false) ∧ ((bgB (wB 5242881)).flits = [back 16 [wB 5242881]]) ∧ ((back 16 [wB 5242881]).idx =
      (bgB (wB 5242881)).pos) ∧ ((back 16 [wB 5242881]).n = 16) ∧ ((sLk2 (bgB (wB 5242881))).grindBack (back 16 [wB 5242881]) = true) ∧ (spoil (back
      16 [wB 5242881]).addr (back 16 [wB 5242881]).bad ((back 16 [wB 5242881]).data.getD []) = [wB 5242881]) ∧ ((wB 5242881).poison = false) ∧
      (eTier (wB 5242881).v ≠ 3) ∧ ((sLk2 (bgB (wB 5242881))).badEntry (bgB (wB 5242881)).slot (wB 5242881).v = true)) ∧
(((sLk2 (bgB (wB 5242880))).cmd? 7 = some cl1) ∧ (cl1.id = 7) ∧ (cl1.unit = EUnit.grind 5) ∧ (5 < 16) ∧ (cl1.phase = CmdPhase.active) ∧ (cl1.op = 1)
      ∧ (Plain (sLk2 (bgB (wB 5242880)))) ∧ ((sLk2 (bgB (wB 5242880))).bag? 7 0 = some (bgB (wB 5242880))) ∧ ((bgB (wB 5242880)).cmd = 7) ∧ ((bgB
      (wB 5242880)).b = 0) ∧ ((bgB (wB 5242880)).pos + 1 < (bgB (wB 5242880)).hi) ∧ ((bgB (wB 5242880)).reads = [((bgB (wB 5242880)).pos,
      IdxRead.entry 3)]) ∧ ((bgB (wB 5242880)).parked = false) ∧ ((bgB (wB 5242880)).flits = [back 16 [wB 5242880]]) ∧ ((back 16 [wB 5242880]).idx =
      (bgB (wB 5242880)).pos) ∧ ((back 16 [wB 5242880]).n = 16) ∧ ((sLk2 (bgB (wB 5242880))).grindBack (back 16 [wB 5242880]) = true) ∧ (spoil (back
      16 [wB 5242880]).addr (back 16 [wB 5242880]).bad ((back 16 [wB 5242880]).data.getD []) = [wB 5242880]) ∧ ((wB 5242880).poison = false) ∧
      (eTier (wB 5242880).v ≤ 1) ∧ ((sLk2 (bgB (wB 5242880))).badEntry (bgB (wB 5242880)).slot (wB 5242880).v = false) ∧ (0 < (bgB (wB
      5242880)).slot.rowReqs (wB 5242880).v)) ∧
(((sLk2 bgR).cmd? 7 = some cl1) ∧ (cl1.id = 7) ∧ (cl1.unit = EUnit.grind 5) ∧ (5 < 16) ∧ (cl1.phase = CmdPhase.active) ∧ (cl1.op = 1) ∧ (Plain (sLk2
      bgR)) ∧ ((sLk2 bgR).bag? 7 0 = some bgR) ∧ (bgR.cmd = 7) ∧ (bgR.b = 0) ∧ (bgR.pos + 1 < bgR.hi) ∧ (cl1.pool < 2) ∧ (cl1.word 3 = 0) ∧
      (cl1.word 6 = 0) ∧ (bgR.parked = false) ∧ (bgR.reads = [(bgR.pos, IdxRead.row 3 (ent 0 5242880) 1 [])]) ∧ (bgR.flits = [back 64 rowL]) ∧
      ((back 64 rowL).idx = bgR.pos) ∧ ((back 64 rowL).n = 64) ∧ ((sLk2 bgR).grindBack (back 64 rowL) = true) ∧ (spoil (back 64 rowL).addr (back 64
      rowL).bad ((back 64 rowL).data.getD []) ≠ []) ∧ ([(((back 64 rowL).addr - eLoc (ent 0 5242880)) / 64, spoil (back 64 rowL).addr (back 64
      rowL).bad ((back 64 rowL).data.getD []))].length = bgR.slot.rowReqs (ent 0 5242880)) ∧ (((partCodes (bgR.slot.rowReqs (ent 0 5242880))
      [(((back 64 rowL).addr - eLoc (ent 0 5242880)) / 64, spoil (back 64 rowL).addr (back 64 rowL).bad ((back 64 rowL).data.getD []))]).all fun y
      => !y.poison) = true)) ∧
(((sLk2 bg2).cmd? 7 = some cl1) ∧ (cl1.id = 7) ∧ (cl1.unit = EUnit.grind 5) ∧ (5 < 16) ∧ (cl1.phase = CmdPhase.active) ∧ (cl1.op = 1) ∧ (Plain (sLk2
      bg2)) ∧ ((sLk2 bg2).bag? 7 0 = some bg2) ∧ (bg2.cmd = 7) ∧ (bg2.b = 0) ∧ (bg2.pos + 1 < bg2.hi) ∧ (cl1.pool < 2) ∧ (cl1.word 3 = 0) ∧
      (cl1.word 6 = 0) ∧ (bg2.parked = true) ∧ (bg2.reads = [(bg2.pos, IdxRead.cold 3 (ent 0 5242880) (some rowL))]) ∧ ((sLk2 bg2).activeBags 5 <
      64) ∧ ((rowL.all fun y => !y.poison) = true)) ∧
((sArr0.cmd? 7 = some cl1) ∧ (cl1.id = 7) ∧ (cl1.unit = EUnit.grind 5) ∧ (5 < 16) ∧ (cl1.phase = CmdPhase.active) ∧ (cl1.op = 1) ∧ (Plain sArr0) ∧
      (sArr0.bag? 7 0 = some bg3) ∧ (bg3.cmd = 7) ∧ (bg3.b = 0) ∧ (bg3.pos + 1 < bg3.hi) ∧ (cl1.pool < 2) ∧ (cl1.word 3 = 0) ∧ (cl1.word 6 = 0) ∧
      (bg3.parked = true) ∧ (bg3.reads = [(bg3.pos, IdxRead.cold 3 (ent 0 5242880) none)]) ∧ (1 < sArr0.fmState (handleMgr (ent 0 5242880)))) := 
  by and_intros <;> decide +kernel
def w_UpdatesRun_1_0 : Cmd := { id := c5.id, unit := c5.unit, addr := c5.addr, thread := c5.thread, started := c5.started, job := c5.job, mode := c5.mode, modeSens := c5.modeSens, phase := CmdPhase.active, words := upW 1, status := c5.status, errRef := c5.errRef, slot := c5.slot, next := c5.next, cnt := c5.cnt, bytes := c5.bytes, dropped := c5.dropped, cold := c5.cold, open_ := c5.open_ : Cmd }
def w_UpdatesRun_1_1 : Cmd := { id := w_UpdatesRun_1_0.id, unit := w_UpdatesRun_1_0.unit, addr := w_UpdatesRun_1_0.addr, thread := w_UpdatesRun_1_0.thread, started := w_UpdatesRun_1_0.started, job := w_UpdatesRun_1_0.job, mode := w_UpdatesRun_1_0.mode, modeSens := w_UpdatesRun_1_0.modeSens, phase := w_UpdatesRun_1_0.phase, words := w_UpdatesRun_1_0.words, status := w_UpdatesRun_1_0.status, errRef := w_UpdatesRun_1_0.errRef, slot := sU1.slot 5 w_UpdatesRun_1_0.slotNo, next := w_UpdatesRun_1_0.next, cnt := w_UpdatesRun_1_0.cnt, bytes := w_UpdatesRun_1_0.bytes, dropped := w_UpdatesRun_1_0.dropped, cold := w_UpdatesRun_1_0.cold, open_ := w_UpdatesRun_1_0.open_ : Cmd }
def w_UpdatesRun_2_0 : Cmd := { id := c5.id, unit := c5.unit, addr := c5.addr, thread := c5.thread, started := c5.started, job := c5.job, mode := c5.mode, modeSens := c5.modeSens, phase := CmdPhase.active, words := upW 1, status := c5.status, errRef := c5.errRef, slot := c5.slot, next := c5.next, cnt := c5.cnt, bytes := c5.bytes, dropped := c5.dropped, cold := c5.cold, open_ := c5.open_ : Cmd }
def w_UpdatesRun_2_1 : Cmd := { id := w_UpdatesRun_2_0.id, unit := w_UpdatesRun_2_0.unit, addr := w_UpdatesRun_2_0.addr, thread := w_UpdatesRun_2_0.thread, started := w_UpdatesRun_2_0.started, job := w_UpdatesRun_2_0.job, mode := w_UpdatesRun_2_0.mode, modeSens := w_UpdatesRun_2_0.modeSens, phase := w_UpdatesRun_2_0.phase, words := w_UpdatesRun_2_0.words, status := w_UpdatesRun_2_0.status, errRef := w_UpdatesRun_2_0.errRef, slot := sU2.slot 5 w_UpdatesRun_2_0.slotNo, next := w_UpdatesRun_2_0.next, cnt := w_UpdatesRun_2_0.cnt, bytes := w_UpdatesRun_2_0.bytes, dropped := w_UpdatesRun_2_0.dropped, cold := w_UpdatesRun_2_0.cold, open_ := w_UpdatesRun_2_0.open_ : Cmd }
def w_UpdatesRun_3_0 : Cmd := { id := c5.id, unit := c5.unit, addr := c5.addr, thread := c5.thread, started := c5.started, job := c5.job, mode := c5.mode, modeSens := c5.modeSens, phase := CmdPhase.active, words := upW 1, status := c5.status, errRef := c5.errRef, slot := c5.slot, next := c5.next, cnt := c5.cnt, bytes := c5.bytes, dropped := c5.dropped, cold := c5.cold, open_ := c5.open_ : Cmd }
def w_UpdatesRun_3_1 : Cmd := { id := w_UpdatesRun_3_0.id, unit := w_UpdatesRun_3_0.unit, addr := w_UpdatesRun_3_0.addr, thread := w_UpdatesRun_3_0.thread, started := w_UpdatesRun_3_0.started, job := w_UpdatesRun_3_0.job, mode := w_UpdatesRun_3_0.mode, modeSens := w_UpdatesRun_3_0.modeSens, phase := w_UpdatesRun_3_0.phase, words := w_UpdatesRun_3_0.words, status := w_UpdatesRun_3_0.status, errRef := w_UpdatesRun_3_0.errRef, slot := sU3.slot 5 w_UpdatesRun_3_0.slotNo, next := w_UpdatesRun_3_0.next, cnt := w_UpdatesRun_3_0.cnt, bytes := w_UpdatesRun_3_0.bytes, dropped := w_UpdatesRun_3_0.dropped, cold := w_UpdatesRun_3_0.cold, open_ := w_UpdatesRun_3_0.open_ : Cmd }
def w_UpdatesRun_4_0 : Cmd := { id := c5.id, unit := c5.unit, addr := c5.addr, thread := c5.thread, started := c5.started, job := c5.job, mode := c5.mode, modeSens := c5.modeSens, phase := CmdPhase.active, words := upW 1, status := c5.status, errRef := c5.errRef, slot := c5.slot, next := c5.next, cnt := c5.cnt, bytes := c5.bytes, dropped := c5.dropped, cold := c5.cold, open_ := c5.open_ : Cmd }
def w_UpdatesRun_4_1 : Cmd := { id := w_UpdatesRun_4_0.id, unit := w_UpdatesRun_4_0.unit, addr := w_UpdatesRun_4_0.addr, thread := w_UpdatesRun_4_0.thread, started := w_UpdatesRun_4_0.started, job := w_UpdatesRun_4_0.job, mode := w_UpdatesRun_4_0.mode, modeSens := w_UpdatesRun_4_0.modeSens, phase := w_UpdatesRun_4_0.phase, words := w_UpdatesRun_4_0.words, status := w_UpdatesRun_4_0.status, errRef := w_UpdatesRun_4_0.errRef, slot := sU4.slot 5 w_UpdatesRun_4_0.slotNo, next := w_UpdatesRun_4_0.next, cnt := w_UpdatesRun_4_0.cnt, bytes := w_UpdatesRun_4_0.bytes, dropped := w_UpdatesRun_4_0.dropped, cold := w_UpdatesRun_4_0.cold, open_ := w_UpdatesRun_4_0.open_ : Cmd }
def w_UpdatesRun_5_0 : Cmd := { id := c5.id, unit := c5.unit, addr := c5.addr, thread := c5.thread, started := c5.started, job := c5.job, mode := c5.mode, modeSens := c5.modeSens, phase := CmdPhase.active, words := upW 1, status := c5.status, errRef := c5.errRef, slot := c5.slot, next := c5.next, cnt := c5.cnt, bytes := c5.bytes, dropped := c5.dropped, cold := c5.cold, open_ := c5.open_ : Cmd }
def w_UpdatesRun_5_1 : Cmd := { id := w_UpdatesRun_5_0.id, unit := w_UpdatesRun_5_0.unit, addr := w_UpdatesRun_5_0.addr, thread := w_UpdatesRun_5_0.thread, started := w_UpdatesRun_5_0.started, job := w_UpdatesRun_5_0.job, mode := w_UpdatesRun_5_0.mode, modeSens := w_UpdatesRun_5_0.modeSens, phase := w_UpdatesRun_5_0.phase, words := w_UpdatesRun_5_0.words, status := w_UpdatesRun_5_0.status, errRef := w_UpdatesRun_5_0.errRef, slot := sU5.slot 5 w_UpdatesRun_5_0.slotNo, next := w_UpdatesRun_5_0.next, cnt := w_UpdatesRun_5_0.cnt, bytes := w_UpdatesRun_5_0.bytes, dropped := w_UpdatesRun_5_0.dropped, cold := w_UpdatesRun_5_0.cold, open_ := w_UpdatesRun_5_0.open_ : Cmd }
theorem hyps_UpdatesRun :
((Begins sU1 (EUnit.grind 5) c5 (upW 1) (sU1.spanTouch (Who.grind 5) 1048576 64)) ∧ (Plain sU1) ∧ (∀ x ∈ sU1.cmds, x.unit = EUnit.grind 5 → x.phase
      = CmdPhase.active → x.op = 2 → (sU1.upds.any fun u => u.cmd == x.id) = true) ∧ (w_UpdatesRun_1_0.op = 2) ∧ ((sU1.slot 5
      w_UpdatesRun_1_0.slotNo).valid = true) ∧ (updateOk w_UpdatesRun_1_1 = true) ∧ ((sU1.slot 5 w_UpdatesRun_1_0.slotNo).home = false)) ∧
((Begins sU2 (EUnit.grind 5) c5 (upW 1) (sU2.spanTouch (Who.grind 5) 1048576 64)) ∧ (Plain sU2) ∧ (∀ x ∈ sU2.cmds, x.unit = EUnit.grind 5 → x.phase
      = CmdPhase.active → x.op = 2 → (sU2.upds.any fun u => u.cmd == x.id) = true) ∧ (w_UpdatesRun_2_0.op = 2) ∧ ((sU2.slot 5
      w_UpdatesRun_2_0.slotNo).valid = true) ∧ (updateOk w_UpdatesRun_2_1 = false ∨ (sU2.slot 5 w_UpdatesRun_2_0.slotNo).home = true ∧ (sU2.slot 5
      w_UpdatesRun_2_0.slotNo).opt = 0)) ∧
((Begins sU3 (EUnit.grind 5) c5 (upW 1) (sU3.spanTouch (Who.grind 5) 1048576 64)) ∧ (Plain sU3) ∧ (∀ x ∈ sU3.cmds, x.unit = EUnit.grind 5 → x.phase
      = CmdPhase.active → x.op = 2 → (sU3.upds.any fun u => u.cmd == x.id) = true) ∧ (w_UpdatesRun_3_0.op = 2) ∧ ((sU3.slot 5
      w_UpdatesRun_3_0.slotNo).valid = true) ∧ (updateOk w_UpdatesRun_3_1 = true) ∧ ((sU3.slot 5 w_UpdatesRun_3_0.slotNo).home = true) ∧ ((sU3.slot
      5 w_UpdatesRun_3_0.slotNo).opt ≠ 0) ∧ (w_UpdatesRun_3_1.gform = false) ∧ (w_UpdatesRun_3_1.count = 1) ∧ (InStacks (w_UpdatesRun_3_1.word 6)
      64) ∧ (bits (sU3.mem.readNat (w_UpdatesRun_3_1.word 6) 64) 192 64 % 64 = 0) ∧ (isScratch (bits (sU3.mem.readNat (w_UpdatesRun_3_1.word 6) 64)
      192 64) = false) ∧ (bits (sU3.mem.readNat (w_UpdatesRun_3_1.word 6) 64) 320 64 % 8 = 0) ∧ (bits (sU3.mem.readNat (w_UpdatesRun_3_1.word 6) 64)
      384 128 = 0) ∧ (bits (sU3.mem.readNat (w_UpdatesRun_3_1.word 6) 64) 256 64 < 16 + up64 (4 * (sU3.slot 5 w_UpdatesRun_3_0.slotNo).dim))) ∧
((Begins sU4 (EUnit.grind 5) c5 (upW 1) (sU4.spanTouch (Who.grind 5) 1048576 64)) ∧ (Plain sU4) ∧ (∀ x ∈ sU4.cmds, x.unit = EUnit.grind 5 → x.phase
      = CmdPhase.active → x.op = 2 → (sU4.upds.any fun u => u.cmd == x.id) = true) ∧ (w_UpdatesRun_4_0.op = 2) ∧ ((sU4.slot 5
      w_UpdatesRun_4_0.slotNo).valid = true) ∧ (updateOk w_UpdatesRun_4_1 = true) ∧ ((sU4.slot 5 w_UpdatesRun_4_0.slotNo).home = true) ∧ ((sU4.slot
      5 w_UpdatesRun_4_0.slotNo).opt ≠ 0) ∧ (w_UpdatesRun_4_1.gform = false) ∧ (w_UpdatesRun_4_1.count = 1) ∧ (InStacks (w_UpdatesRun_4_1.word 6)
      64) ∧ (bits (sU4.mem.readNat (w_UpdatesRun_4_1.word 6) 64) 192 64 % 64 = 0) ∧ (isScratch (bits (sU4.mem.readNat (w_UpdatesRun_4_1.word 6) 64)
      192 64) = false) ∧ (bits (sU4.mem.readNat (w_UpdatesRun_4_1.word 6) 64) 320 64 % 8 = 0) ∧ (bits (sU4.mem.readNat (w_UpdatesRun_4_1.word 6) 64)
      384 128 = 0) ∧ (16 + up64 (4 * (sU4.slot 5 w_UpdatesRun_4_0.slotNo).dim) ≤ bits (sU4.mem.readNat (w_UpdatesRun_4_1.word 6) 64) 256 64) ∧
      (InStacks (bits (sU4.mem.readNat (w_UpdatesRun_4_1.word 6) 64) 192 64) (16 + up64 (4 * (sU4.slot 5 w_UpdatesRun_4_0.slotNo).dim))) ∧ (InStacks
      w_UpdatesRun_4_1.indexAddr w_UpdatesRun_4_1.idxBytes) ∧ ((sU4.slot 5 w_UpdatesRun_4_0.slotNo).rows ≤ sU4.mem.readNat
      w_UpdatesRun_4_1.indexAddr w_UpdatesRun_4_1.idxBytes)) ∧
((Begins sU5 (EUnit.grind 5) c5 (upW 1) (sU5.spanTouch (Who.grind 5) 1048576 64)) ∧ (Plain sU5) ∧ (∀ x ∈ sU5.cmds, x.unit = EUnit.grind 5 → x.phase
      = CmdPhase.active → x.op = 2 → (sU5.upds.any fun u => u.cmd == x.id) = true) ∧ (w_UpdatesRun_5_0.op = 2) ∧ ((sU5.slot 5
      w_UpdatesRun_5_0.slotNo).valid = true) ∧ (updateOk w_UpdatesRun_5_1 = true) ∧ ((sU5.slot 5 w_UpdatesRun_5_0.slotNo).home = true) ∧ ((sU5.slot
      5 w_UpdatesRun_5_0.slotNo).opt ≠ 0) ∧ (w_UpdatesRun_5_1.gform = false) ∧ (w_UpdatesRun_5_1.count = 1) ∧ (InStacks (w_UpdatesRun_5_1.word 6)
      64) ∧ (bits (sU5.mem.readNat (w_UpdatesRun_5_1.word 6) 64) 192 64 % 64 = 0) ∧ (isScratch (bits (sU5.mem.readNat (w_UpdatesRun_5_1.word 6) 64)
      192 64) = false) ∧ (bits (sU5.mem.readNat (w_UpdatesRun_5_1.word 6) 64) 320 64 % 8 = 0) ∧ (bits (sU5.mem.readNat (w_UpdatesRun_5_1.word 6) 64)
      384 128 = 0) ∧ (16 + up64 (4 * (sU5.slot 5 w_UpdatesRun_5_0.slotNo).dim) ≤ bits (sU5.mem.readNat (w_UpdatesRun_5_1.word 6) 64) 256 64) ∧
      (InStacks (bits (sU5.mem.readNat (w_UpdatesRun_5_1.word 6) 64) 192 64) (16 + up64 (4 * (sU5.slot 5 w_UpdatesRun_5_0.slotNo).dim))) ∧ (InStacks
      w_UpdatesRun_5_1.indexAddr w_UpdatesRun_5_1.idxBytes) ∧ (sU5.mem.readNat w_UpdatesRun_5_1.indexAddr w_UpdatesRun_5_1.idxBytes < (sU5.slot 5
      w_UpdatesRun_5_0.slotNo).rows) ∧ (InStacks (entryAddr (sU5.slot 5 w_UpdatesRun_5_0.slotNo) (sU5.mem.readNat w_UpdatesRun_5_1.indexAddr
      w_UpdatesRun_5_1.idxBytes)) 16) ∧ (eTier (sU5.mem.readNat (entryAddr (sU5.slot 5 w_UpdatesRun_5_0.slotNo) (sU5.mem.readNat
      w_UpdatesRun_5_1.indexAddr w_UpdatesRun_5_1.idxBytes)) 16) = 1) ∧ (sU5.badEntry (sU5.slot 5 w_UpdatesRun_5_0.slotNo) (sU5.mem.readNat
      (entryAddr (sU5.slot 5 w_UpdatesRun_5_0.slotNo) (sU5.mem.readNat w_UpdatesRun_5_1.indexAddr w_UpdatesRun_5_1.idxBytes)) 16) = false) ∧ (0 <
      (sU5.slot 5 w_UpdatesRun_5_0.slotNo).dim) ∧ ((sU5.slot 5 w_UpdatesRun_5_0.slotNo).dim % 16 = 0) ∧ (InStacks (w_UpdatesRun_5_1.word 4) ((if
      w_UpdatesRun_5_1.gbf16 = true then 2 else 4) * (sU5.slot 5 w_UpdatesRun_5_0.slotNo).dim)) ∧ (w_UpdatesRun_5_1.word 4 + (if
      w_UpdatesRun_5_1.gbf16 = true then 2 else 4) * (sU5.slot 5 w_UpdatesRun_5_0.slotNo).dim ≤ bits (sU5.mem.readNat (w_UpdatesRun_5_1.word 6) 64)
      192 64 ∨ bits (sU5.mem.readNat (w_UpdatesRun_5_1.word 6) 64) 192 64 + (16 + up64 (4 * (sU5.slot 5 w_UpdatesRun_5_0.slotNo).dim)) ≤
      w_UpdatesRun_5_1.word 4)) ∧
((5 < 16) ∧ (sU6f.cmd? 7 = some (cA (upW 1) true)) ∧ ((cA (upW 1) true).id = 7) ∧ ((cA (upW 1) true).unit = EUnit.grind 5) ∧ ((cA (upW 1)
      true).phase = CmdPhase.active) ∧ (Plain sU6f) ∧ (sU6f.upds = [{ cmd := 7, rows := [u3] : Upd }]) ∧ (sU6f.moves = []) ∧ (sU6f.defers = []) ∧ (1
      ≤ (cA (upW 1) true).slot.opt) ∧ ((cA (upW 1) true).slot.opt ≤ 3) ∧ (0 < (cA (upW 1) true).slot.dim) ∧ ((cA (upW 1) true).slot.dim % 16 = 0) ∧
      (InStacks (entryAddr (cA (upW 1) true).slot u3.row) 16) ∧ (entryAddr (cA (upW 1) true).slot u3.row % 16 = 0) ∧ (eTier (sU6f.mem.readNat
      (entryAddr (cA (upW 1) true).slot u3.row) 16) = 1) ∧ (sU6f.badEntry (cA (upW 1) true).slot (sU6f.mem.readNat (entryAddr (cA (upW 1) true).slot
      u3.row) 16) = false) ∧ (InStacks ((cA (upW 1) true).word 6) 64) ∧ (isIntFmt (eFmt (sU6f.mem.readNat (entryAddr (cA (upW 1) true).slot u3.row)
      16)) = false)) ∧
((5 < 16) ∧ (sU7.cmd? 7 = some (cA (upW 1) true)) ∧ ((cA (upW 1) true).id = 7) ∧ ((cA (upW 1) true).unit = EUnit.grind 5) ∧ ((cA (upW 1) true).phase
      = CmdPhase.active) ∧ (Plain sU7) ∧ (sU7.upds = [{ cmd := 7, rows := [u3, u3] : Upd }]) ∧ (sU7.moves = []) ∧ (sU7.defers = []) ∧ (1 ≤ (cA (upW
      1) true).slot.opt) ∧ ((cA (upW 1) true).slot.opt ≤ 3) ∧ (0 < (cA (upW 1) true).slot.dim) ∧ ((cA (upW 1) true).slot.dim % 16 = 0) ∧ (InStacks
      (entryAddr (cA (upW 1) true).slot u3.row) 16) ∧ (entryAddr (cA (upW 1) true).slot u3.row % 16 = 0) ∧ (eTier (sU7.mem.readNat (entryAddr (cA
      (upW 1) true).slot u3.row) 16) = 1) ∧ (sU7.badEntry (cA (upW 1) true).slot (sU7.mem.readNat (entryAddr (cA (upW 1) true).slot u3.row) 16) =
      false) ∧ (InStacks ((cA (upW 1) true).word 6) 64) ∧ (isIntFmt (eFmt (sU7.mem.readNat (entryAddr (cA (upW 1) true).slot u3.row) 16)) = true) ∧
      (requant (cA (upW 1) true).rnd (if eFmt (sU7.mem.readNat (entryAddr (cA (upW 1) true).slot u3.row) 16) = 5 then 127 else 7) (optimise (cA (upW
      1) true).slot (cA (upW 1) true).rnd (sU7.mem.readNat ((cA (upW 1) true).word 6) 64) (List.take (cA (upW 1) true).slot.dim (decodeRow (cA (upW
      1) true).rnd (eFmt (sU7.mem.readNat (entryAddr (cA (upW 1) true).slot u3.row) 16)) (eScale (sU7.mem.readNat (entryAddr (cA (upW 1) true).slot
      u3.row) 16)) (List.take (valueSpan (cA (upW 1) true).slot.dim (eFmt (sU7.mem.readNat (entryAddr (cA (upW 1) true).slot u3.row) 16)) / 16)
      (sU7.viewCodes (eLoc (sU7.mem.readNat (entryAddr (cA (upW 1) true).slot u3.row) 16)) (rowSpan (cA (upW 1) true).slot (eFmt (sU7.mem.readNat
      (entryAddr (cA (upW 1) true).slot u3.row) 16))))))) u3.grad (List.drop (valueSpan (cA (upW 1) true).slot.dim (eFmt (sU7.mem.readNat (entryAddr
      (cA (upW 1) true).slot u3.row) 16)) / 16) (sU7.viewCodes (eLoc (sU7.mem.readNat (entryAddr (cA (upW 1) true).slot u3.row) 16)) (rowSpan (cA
      (upW 1) true).slot (eFmt (sU7.mem.readNat (entryAddr (cA (upW 1) true).slot u3.row) 16)))))).1 = (oI.1, some (oI.2.getD []))) ∧ (eLoc
      (sU7.mem.readNat (entryAddr (cA (upW 1) true).slot u3.row) 16) + rowSpan (cA (upW 1) true).slot (eFmt (sU7.mem.readNat (entryAddr (cA (upW 1)
      true).slot u3.row) 16)) ≤ entryAddr (cA (upW 1) true).slot u3.row ∨ entryAddr (cA (upW 1) true).slot u3.row + 16 ≤ eLoc (sU7.mem.readNat
      (entryAddr (cA (upW 1) true).slot u3.row) 16))) := 
  by and_intros <;> decide +kernel
theorem hyps_RowsMove :
((5 < 16) ∧ (sM1.cmd? 7 = some (cA (mvW 3) true)) ∧ ((cA (mvW 3) true).id = 7) ∧ ((cA (mvW 3) true).unit = EUnit.grind 5) ∧ ((cA (mvW 3) true).phase
      = CmdPhase.active) ∧ (Plain sM1) ∧ ((cA (mvW 3) true).next < (cA (mvW 3) true).moveCount) ∧ (InStacks ((cA (mvW 3) true).word 1 + 32 * (cA
      (mvW 3) true).next) 32) ∧ (sM1.moves = []) ∧ ((cA (mvW 3) true).op = 3 ∨ (cA (mvW 3) true).op = 4) ∧ (sM1.badRecord (cA (mvW 3) true)
      (sM1.mem.readNat ((cA (mvW 3) true).word 1 + 32 * (cA (mvW 3) true).next) 32) = true)) ∧
((5 < 16) ∧ (sM2.cmd? 7 = some (cA (mvW 4) true)) ∧ ((cA (mvW 4) true).id = 7) ∧ ((cA (mvW 4) true).unit = EUnit.grind 5) ∧ ((cA (mvW 4) true).phase
      = CmdPhase.active) ∧ (Plain sM2) ∧ ((cA (mvW 4) true).next < (cA (mvW 4) true).moveCount) ∧ (InStacks ((cA (mvW 4) true).word 1 + 32 * (cA
      (mvW 4) true).next) 32) ∧ (sM2.moves = []) ∧ ((cA (mvW 4) true).op = 4) ∧ (sM2.badRecord (cA (mvW 4) true) (sM2.mem.readNat ((cA (mvW 4)
      true).word 1 + 32 * (cA (mvW 4) true).next) 32) = false) ∧ (bits (sM2.mem.readNat ((cA (mvW 4) true).word 1 + 32 * (cA (mvW 4) true).next) 32)
      192 64 = 0)) ∧
((5 < 16) ∧ (sM3.cmd? 7 = some (cA (mvW 3) true)) ∧ ((cA (mvW 3) true).id = 7) ∧ ((cA (mvW 3) true).unit = EUnit.grind 5) ∧ ((cA (mvW 3) true).phase
      = CmdPhase.active) ∧ (Plain sM3) ∧ ((cA (mvW 3) true).next < (cA (mvW 3) true).moveCount) ∧ (InStacks ((cA (mvW 3) true).word 1 + 32 * (cA
      (mvW 3) true).next) 32) ∧ (sM3.moves = []) ∧ ((cA (mvW 3) true).op = 3) ∧ (sM3.badRecord (cA (mvW 3) true) (sM3.mem.readNat ((cA (mvW 3)
      true).word 1 + 32 * (cA (mvW 3) true).next) 32) = false) ∧ (InStacks (entryAddr (cA (mvW 3) true).slot (bits (sM3.mem.readNat ((cA (mvW 3)
      true).word 1 + 32 * (cA (mvW 3) true).next) 32) 0 64)) 16) ∧ (eTier (sM3.mem.readNat (entryAddr (cA (mvW 3) true).slot (bits (sM3.mem.readNat
      ((cA (mvW 3) true).word 1 + 32 * (cA (mvW 3) true).next) 32) 0 64)) 16) = 1) ∧ (sM3.badEntry (cA (mvW 3) true).slot (sM3.mem.readNat
      (entryAddr (cA (mvW 3) true).slot (bits (sM3.mem.readNat ((cA (mvW 3) true).word 1 + 32 * (cA (mvW 3) true).next) 32) 0 64)) 16) = false) ∧
      (eTier (bits (sM3.mem.readNat ((cA (mvW 3) true).word 1 + 32 * (cA (mvW 3) true).next) 32) 64 128) = 1) ∧ (eLoc (bits (sM3.mem.readNat ((cA
      (mvW 3) true).word 1 + 32 * (cA (mvW 3) true).next) 32) 64 128) + rowSpan (cA (mvW 3) true).slot (eFmt (bits (sM3.mem.readNat ((cA (mvW 3)
      true).word 1 + 32 * (cA (mvW 3) true).next) 32) 64 128)) ≤ entryAddr (cA (mvW 3) true).slot (bits (sM3.mem.readNat ((cA (mvW 3) true).word 1 +
      32 * (cA (mvW 3) true).next) 32) 0 64) ∨ entryAddr (cA (mvW 3) true).slot (bits (sM3.mem.readNat ((cA (mvW 3) true).word 1 + 32 * (cA (mvW 3)
      true).next) 32) 0 64) + 16 ≤ eLoc (bits (sM3.mem.readNat ((cA (mvW 3) true).word 1 + 32 * (cA (mvW 3) true).next) 32) 64 128)) ∧ (0 < (cA (mvW
      3) true).slot.dim)) ∧
((5 < 16) ∧ (sM4.cmd? 7 = some (cA (mvW 3) true)) ∧ ((cA (mvW 3) true).id = 7) ∧ ((cA (mvW 3) true).unit = EUnit.grind 5) ∧ ((cA (mvW 3) true).phase
      = CmdPhase.active) ∧ (Plain sM4) ∧ (sM4.moves = [mv3]) ∧ (mv3.cmd = 7) ∧ (mv3.g = 5) ∧ (mv3.swapped = none) ∧ (InStacks (entryAddr mv3.slot
      mv3.row) 16) ∧ (sM4.defers = [])) := 
  by and_intros <;> decide +kernel
def w_SnapshotsAndCompletion_1_0 : Cmd := { id := c5.id, unit := c5.unit, addr := c5.addr, thread := c5.thread, started := c5.started, job := c5.job, mode := c5.mode, modeSens := c5.modeSens, phase := CmdPhase.active, words := snW, status := c5.status, errRef := c5.errRef, slot := c5.slot, next := c5.next, cnt := c5.cnt, bytes := c5.bytes, dropped := c5.dropped, cold := c5.cold, open_ := c5.open_ : Cmd }
def w_SnapshotsAndCompletion_1_1 : Cmd := { id := w_SnapshotsAndCompletion_1_0.id, unit := w_SnapshotsAndCompletion_1_0.unit, addr := w_SnapshotsAndCompletion_1_0.addr, thread := w_SnapshotsAndCompletion_1_0.thread, started := w_SnapshotsAndCompletion_1_0.started, job := w_SnapshotsAndCompletion_1_0.job, mode := w_SnapshotsAndCompletion_1_0.mode, modeSens := w_SnapshotsAndCompletion_1_0.modeSens, phase := w_SnapshotsAndCompletion_1_0.phase, words := w_SnapshotsAndCompletion_1_0.words, status := w_SnapshotsAndCompletion_1_0.status, errRef := w_SnapshotsAndCompletion_1_0.errRef, slot := sSn.slot 5 w_SnapshotsAndCompletion_1_0.slotNo, next := w_SnapshotsAndCompletion_1_0.next, cnt := w_SnapshotsAndCompletion_1_0.cnt, bytes := w_SnapshotsAndCompletion_1_0.bytes, dropped := w_SnapshotsAndCompletion_1_0.dropped, cold := w_SnapshotsAndCompletion_1_0.cold, open_ := w_SnapshotsAndCompletion_1_0.open_ : Cmd }
theorem hyps_SnapshotsAndCompletion :
((Begins sSn (EUnit.grind 5) c5 snW (sSn.spanTouch (Who.grind 5) 1048576 64)) ∧ (Plain sSn) ∧ (w_SnapshotsAndCompletion_1_0.op = 5) ∧ ((sSn.slot 5
      w_SnapshotsAndCompletion_1_0.slotNo).valid = true) ∧ (snapshotOk w_SnapshotsAndCompletion_1_1 = true) ∧ (InStacks
      (w_SnapshotsAndCompletion_1_1.word 1) (sSn.snapshot 5 w_SnapshotsAndCompletion_1_0.slotNo).1.length)) ∧
((sCe0.cmd? 7 = some (cE 0 CmdPhase.ending)) ∧ ((cE 0 CmdPhase.ending).id = 7) ∧ ((cE 0 CmdPhase.ending).errRef = none) ∧ (Plain sCe0) ∧ ((match (cE
      0 CmdPhase.ending).unit with   | EUnit.coll h => (sCe0.coll h).ops.all fun o => o.cmd != 7   | x => true) =   true) ∧ ((cE 0
      CmdPhase.ending).phase = CmdPhase.ending) ∧ ((sCe0.moves.any fun m => m.cmd == 7) = false) ∧ ((cE 0 CmdPhase.ending).cpl = 0)) ∧
((sCe1.cmd? 7 = some (cE 7340064 CmdPhase.ending)) ∧ ((cE 7340064 CmdPhase.ending).id = 7) ∧ ((cE 7340064 CmdPhase.ending).errRef = none) ∧ (Plain
      sCe1) ∧ ((match (cE 7340064 CmdPhase.ending).unit with   | EUnit.coll h => (sCe1.coll h).ops.all fun o => o.cmd != 7   | x => true) =   true)
      ∧ ((cE 7340064 CmdPhase.ending).phase = CmdPhase.ending) ∧ ((sCe1.moves.any fun m => m.cmd == 7) = false) ∧ ((cE 7340064 CmdPhase.ending).cpl
      ≠ 0) ∧ ((cE 7340064 CmdPhase.ending).cpl % 32 = 0) ∧ (InStacks (cE 7340064 CmdPhase.ending).cpl 32)) ∧
((sCe2.cmd? 7 = some (cE 0 CmdPhase.signalled)) ∧ ((cE 0 CmdPhase.signalled).id = 7) ∧ ((cE 0 CmdPhase.signalled).errRef = none) ∧ (Plain sCe2) ∧
      ((match (cE 0 CmdPhase.signalled).unit with   | EUnit.coll h => (sCe2.coll h).ops.all fun o => o.cmd != 7   | x => true) =   true) ∧ ((cE 0
      CmdPhase.signalled).phase = CmdPhase.signalled) ∧ (List.find? (sCe2.cmdSig 7) sCe2.wakes = some wkC) ∧ (wkC.status = 0)) := 
  by and_intros <;> decide +kernel
theorem hyps_PortsAndLanes :
    ((sDev.regsOn = true) ∧ (sDev.fbit (blkTL 17) F.TL.PORT_CTL.ENABLE = false) ∧ (sDev.devNum ≠ 65535)) ∧
    ((sNoDev.regsOn = true) ∧ (sNoDev.fbit (blkTL 17) F.TL.PORT_CTL.ENABLE = false) ∧ (sNoDev.devNum = 65535)) ∧
    ((sT1.regsOn = true) ∧ (sT1.fbit (blkTL 17) F.TL.PORT_CTL.ENABLE = true)) ∧
((sT1.alive = true) ∧ (sT1.tlState 17 = 1) ∧ ((sT1.tport 17).hello = false) ∧ (2 ≤ (List.filter (fun i => !BitVec.getLsbD (127 : BitVec 9) i)
      (List.range 9)).length)) ∧
((sT1.alive = true) ∧ (sT1.tlState 17 = 1) ∧ ((sT1.tport 17).hello = false) ∧ ((List.filter (fun i => !BitVec.getLsbD (255 : BitVec 9) i)
      (List.range 9)).length ≤ 1)) ∧
    ((sT1.alive = true) ∧ (sT1.tlState 17 = 1) ∧ ((sT1.tport 17).hello = false)) ∧
    ((sHi.tlState 17 = 1) ∧ (Told sHi 17 1 (ctl 1 (6 + 3 * 2 ^ 16)) (after sHi 1)) ∧ (bits (ctl 1 (6 + 3 * 2 ^ 16)).data 0 16 ≠ sHi.devNum)) ∧
    ((sHiS.tlState 17 = 1) ∧ (Told sHiS 17 1 (ctl 1 5) (after sHiS 1)) ∧ (bits (ctl 1 5).data 0 16 = sHiS.devNum)) ∧
    ((sHi.tlState 17 = 1) ∧ (Told sHi 17 2 (ctl 2 9) (after sHi 2)) ∧ (bits (ctl 2 9).data 0 16 ≠ sHi.devNum)) ∧
((sRec.alive = true) ∧ (sRec.tlState 17 = 2) ∧ (8 ≤ (sRec.tport 17).tries ∨ (sRec.tport 17).lockLost = true) ∧ ((sRec.tport 17).recovs.length < 3 ∨
      (sRec.tport 17).recovs.getD 0 0 + 1400000000 ≤ sRec.clk.arith)) ∧
((sRecF.alive = true) ∧ (sRecF.tlState 17 = 2) ∧ (8 ≤ (sRecF.tport 17).tries ∨ (sRecF.tport 17).lockLost = true) ∧ ((sRecF.tport 17).recovs.length =
      3) ∧ (sRecF.clk.arith < (sRecF.tport 17).recovs.getD 0 0 + 1400000000)) ∧
    ((sSpare.alive = true) ∧ (sSpare.tlState 17 = 2) ∧ (sSpare.fbit (blkTL 17) F.TL.PORT_STATUS.SPARE_USED = true)) ∧
    ((sRec.alive = true) ∧ (sRec.tlState 17 = 2) ∧ (sRec.fbit (blkTL 17) F.TL.PORT_STATUS.SPARE_USED = false) ∧ ((sRec.tport 17).repair = none)) ∧
(((fields [(blkTL 17, F.TL.PORT_CTL.LANE_LIMIT, 0, 2)] sWin).alive = true) ∧ ((fields [(blkTL 17, F.TL.PORT_CTL.LANE_LIMIT, 0, 2)] sWin).tlState 17
      = 2) ∧ (1048576 ≤ ((fields [(blkTL 17, F.TL.PORT_CTL.LANE_LIMIT, 0, 2)] sWin).tport 17).frames) ∧ (∀ l < 9, ((fields [(blkTL 17,
      F.TL.PORT_CTL.LANE_LIMIT, 0, 2)] sWin).tport 17).lanes.getD l 0 ≤ (fields [(blkTL 17, F.TL.PORT_CTL.LANE_LIMIT, 0, 2)] sWin).fget (blkTL 17)
      F.TL.PORT_CTL.LANE_LIMIT)) ∧
    ((sT3.alive = true) ∧ (sT3.tlState 17 = 3)) ∧
    ((sT3.alive = true) ∧ (sT3.tlState 17 = 3)) ∧
    (Told sRq 17 6 (ctl 6 776) (after sRq 6)) ∧
    ((Told sRa 17 7 (ctl 7 776) (after sRa 7)) ∧ ((sRa.tport 17).repair = some 8) ∧ (8 < 9)) := 
  by and_intros <;> decide +kernel
theorem hyps_FramesCarry :
    ((sFr.framing 17 = true) ∧ (frameWhole (fIn false 65535) = false ∨ (fIn false 65535).fseq ≠ (sFr.tport 17).expect)) ∧
((sFr.framing 17 = true) ∧ (frameWhole (fIn true 65535) = true) ∧ ((fIn true 65535).fseq = (sFr.tport 17).expect) ∧ ((fIn true 65535).nak = false) ∧
      ((fIn true 65535).ctrl = 0)) ∧
    ((sFx.framing 17 = true) ∧ ((sFx.tport 17).replay = 0) ∧ ((sFx.tport 17).retry.length < 512)) ∧
    ((sFp.framing 17 = true) ∧ ((sFp.tport 17).replay ≠ 0) ∧ ((sFp.tport 17).replay ≤ (sFp.tport 17).retry.length)) ∧
    ((sFr5.framing 17 = true) ∧ ((sFr5.tport 17).retry ≠ []) ∧ ((sFr5.tport 17).ackAt + 22400 ≤ sFr5.clk.arith)) := 
  by and_intros <;> decide +kernel
theorem hyps_TimeRoutesAndAliases :
    ((sGm.alive = true) ∧ (sGm.gtcMode = 1) ∧ (sGm.gtc.count % 4096 = 0) ∧ (sGm.gtc.sentAt ≠ sGm.gtc.count + 1)) ∧
    ((sGf.alive = true) ∧ (Told sGf 17 3 cSync (after sGf 3)) ∧ (sGf.gtcMode = 2) ∧ (sGf.fget blkGTC F.GTC.GTC_CTL.SYNC_PORT = 17)) ∧
    ((sDq.alive = true) ∧ (Told sDq 17 4 (ctl 4 0) (after sDq 4))) ∧
    ((sDr.alive = true) ∧ (Told sDr 17 5 cDr (after sDr 5)) ∧ (sDr.gtc.reqAt = some 600) ∧ (sDr.fget blkGTC F.GTC.GTC_CTL.SYNC_PORT = 17)) ∧
((sSl1.alive = true) ∧ (sSl1.gtcMode = 2) ∧ (sSl1.gtc.first = false) ∧ (sSl1.gtc.adj = 0) ∧ (sSl1.fbit blkGTC F.GTC.GTC_STATUS.HOLDOVER = false) ∧
      (sSl1.gtc.slewAt + 2048 ≤ sSl1.clk.arith) ∧ (sSl1.gtc.owedRate ≠ 0)) ∧
((sSl2.alive = true) ∧ (sSl2.gtcMode = 2) ∧ (sSl2.gtc.first = false) ∧ (sSl2.gtc.adj = 0) ∧ (sSl2.fbit blkGTC F.GTC.GTC_STATUS.HOLDOVER = false) ∧
      (sSl2.gtc.slewAt + 2048 ≤ sSl2.clk.arith) ∧ (sSl2.gtc.owedRate = 0) ∧ (sSl2.gtc.owedOff ≠ 0)) ∧
((sHo.alive = true) ∧ (sHo.gtcMode = 2) ∧ (sHo.gtc.first = false) ∧ (sHo.fbit blkGTC F.GTC.GTC_STATUS.HOLDOVER = false) ∧ (sHo.gtc.syncAt + 262144 ≤
      sHo.gtc.count)) ∧
((sHo.alive = true) ∧ (bits (BitVec.ofNat 64 (1 + 17 * 4 + 1 * 256)).toNat 0 2 ≠ 3) ∧ (bits (BitVec.ofNat 64 (1 + 17 * 4 + 1 * 256)).toNat 2 5 ≤ 17)
      ∧ (bit (bits (BitVec.ofNat 64 (1 + 17 * 4 + 1 * 256)).toNat 8 18) (bits (BitVec.ofNat 64 (1 + 17 * 4 + 1 * 256)).toNat 2 5) = false)) ∧
    (isFw Requester.firmware = true) ∧
    ((isFw Requester.firmware = true) ∧ (flat.serving = false) ∧ (bits (BitVec.toNat (4 : Word)) 0 3 ≤ 4)) ∧
    ((isFw Requester.firmware = true) ∧ (flat.serving = true ∨ 4 < bits (BitVec.toNat (5 : Word)) 0 3)) ∧
    (isFw Requester.firmware = true) ∧
    (isFw (Requester.port (0 : Fin 2)) = false) ∧
    (Told sAl 17 9 (ctl 9 (6 + 3 * 2 ^ 16)) (after sAl 9)) := 
  by and_intros <;> decide +kernel
theorem hyps_RingForms :
    ((sRing1.regsOn = true) ∧ (sRing1.fbit (blkPERC 1) F.PERC.RING_CTL.ENABLE = true)) ∧
((sRing0.regsOn = true) ∧ (sRing0.fbit (blkPERC 1) F.PERC.RING_CTL.ENABLE = false) ∧ (2 ≤ bits (BitVec.ofNat 64 (ringBits 4 4 0)).toNat 1 11) ∧
      (bits (BitVec.ofNat 64 (ringBits 4 4 0)).toNat 1 11 ≤ 1024) ∧ (bits (BitVec.ofNat 64 (ringBits 4 4 0)).toNat 1 11 ≤ bits (BitVec.ofNat 64
      (ringBits 4 4 0)).toNat 12 11)) ∧
((sRing0.regsOn = true) ∧ (sRing0.fbit (blkPERC 1) F.PERC.RING_CTL.ENABLE = false) ∧ (2 ≤ bits (BitVec.ofNat 64 (ringBits 1024 1023 0)).toNat 1 11)
      ∧ (bits (BitVec.ofNat 64 (ringBits 1024 1023 0)).toNat 1 11 ≤ 1024) ∧ (bits (BitVec.ofNat 64 (ringBits 1024 1023 0)).toNat 12 11 < bits
      (BitVec.ofNat 64 (ringBits 1024 1023 0)).toNat 1 11) ∧ ((sRing0.sendPorts 1).length = (sRing0.recvPorts 1).length) ∧ (sRing0.sendPorts 1 ≠ [])
      ∧ ((sRing0.sendPorts 1).length ≤ 4) ∧ (∀ t ∈ sRing0.sendPorts 1, t ∉ sRing0.recvPorts 1) ∧ (∀ t ∈ sRing0.sendPorts 1 ++ sRing0.recvPorts 1,
      sRing0.tlTakes t = true) ∧ (sRing0.percStage 1 = true)) ∧
    ((sRing1.regsOn = true) ∧ (sRing1.fbit (blkPERC 1) F.PERC.RING_CTL.ENABLE = true)) ∧
((sRing1.alive = true) ∧ ((fun s' => s'.ringSt 1) sRing1 = 1) ∧ (bit (sRing1.fget (blkPERC 1) F.PERC.RING_PORTS.RECV) 0 = true) ∧ (¬(0 = sRing1.fget
      (blkPERC 1) F.PERC.RING_CTL.RING_ID ∧ 4 = sRing1.ringN 1 ∧ 2 = (sRing1.ringPos 1 + 4 - 1) % 4 ∧ 1 = (sRing1.recvPorts 1).length))) ∧
((sRing1.alive = true) ∧ ((fun s' => s'.ringSt 1) sRing1 = 1) ∧ (bit (sRing1.fget (blkPERC 1) F.PERC.RING_PORTS.RECV) 0 = true) ∧ (0 = sRing1.fget
      (blkPERC 1) F.PERC.RING_CTL.RING_ID ∧ 4 = sRing1.ringN 1 ∧ 3 = (sRing1.ringPos 1 + 4 - 1) % 4 ∧ 1 = (sRing1.recvPorts 1).length)) ∧
    ((sRing1.alive = true) ∧ ((fun s' => s'.ringSt 1) sRing1 = 1) ∧ (bit (sRing1.fget (blkPERC 1) F.PERC.RING_PORTS.SEND) 8 = true)) ∧
((List.find? (fun x => x.unit == EUnit.perc 1 && x.phase == CmdPhase.active) sStall.cmds = some (cqA (EUnit.perc 1) (w8 1 0 0 0 0 0 0 0))) ∧
      (sStall.cmd? (cqA (EUnit.perc 1) (w8 1 0 0 0 0 0 0 0)).id = some (cqA (EUnit.perc 1) (w8 1 0 0 0 0 0 0 0))) ∧ (sStall.alive = true) ∧
      ((sStall.perc 1).progAt + 65536 * sStall.fget (blkPERC 1) F.PERC.RING_LIMIT.LIMIT ≤ sStall.clk.arith)) ∧
((tlHub 9 = 1) ∧ (Told sAb 9 8 cAb ((Option.map (fun x => x.2) (sAb.takeCtl 9 8)).getD sAb)) ∧ (bits cAb.data 0 8 = 0) ∧ ((fun s' => s'.ringSt 1)
      sAb = 2) ∧ (sAb.ringPass 1 = some (cqA (EUnit.perc 1) (w8 1 0 0 0 0 0 0 0))) ∧ (sAb.cmd? (cqA (EUnit.perc 1) (w8 1 0 0 0 0 0 0 0)).id = some
      (cqA (EUnit.perc 1) (w8 1 0 0 0 0 0 0 0))) ∧ (bits cAb.data 8 32 = sAb.passSeq 1) ∧ (sAb.passTearing 1 (sAb.passSeq 1) = false)) ∧
    ((isFw Requester.firmware = true) ∧ (sRole.fget blkGTC F.GTC.ROLE.ROLE = 4 ∨ bit (BitVec.toNat (3 : Word)) 0 = false)) := 
  by and_intros <;> decide +kernel
def w_PassesRun_1_0 : Cmd := { id := cP.id, unit := cP.unit, addr := cP.addr, thread := cP.thread, started := cP.started, job := cP.job, mode := cP.mode, modeSens := cP.modeSens, phase := CmdPhase.active, words := psBad, status := cP.status, errRef := cP.errRef, slot := cP.slot, next := cP.next, cnt := cP.cnt, bytes := cP.bytes, dropped := sPs1.passSeq 1, cold := cP.cold, open_ := cP.open_ : Cmd }
def w_PassesRun_2_0 : Cmd := { id := cP.id, unit := cP.unit, addr := cP.addr, thread := cP.thread, started := cP.started, job := cP.job, mode := cP.mode, modeSens := cP.modeSens, phase := CmdPhase.active, words := psW 2 2, status := cP.status, errRef := cP.errRef, slot := cP.slot, next := cP.next, cnt := cP.cnt, bytes := cP.bytes, dropped := sPs2.passSeq 1, cold := cP.cold, open_ := cP.open_ : Cmd }
def w_PassesRun_3_0 : Cmd := { id := cP.id, unit := cP.unit, addr := cP.addr, thread := cP.thread, started := cP.started, job := cP.job, mode := cP.mode, modeSens := cP.modeSens, phase := CmdPhase.active, words := psW 1 1, status := cP.status, errRef := cP.errRef, slot := cP.slot, next := cP.next, cnt := cP.cnt, bytes := cP.bytes, dropped := sPs3.passSeq 1, cold := cP.cold, open_ := cP.open_ : Cmd }
def w_PassesRun_4_0 : Cmd := { id := cP.id, unit := cP.unit, addr := cP.addr, thread := cP.thread, started := cP.started, job := cP.job, mode := cP.mode, modeSens := cP.modeSens, phase := CmdPhase.active, words := psW 2 2, status := cP.status, errRef := cP.errRef, slot := cP.slot, next := cP.next, cnt := cP.cnt, bytes := cP.bytes, dropped := sPs4.passSeq 1, cold := cP.cold, open_ := cP.open_ : Cmd }
theorem hyps_PassesRun :
((Plain sPs1) ∧ (Begins sPs1 (EUnit.perc 1) cP psBad (sPs1.spanTouch (Who.perc 1) 1048576 64)) ∧ (sPs1.activeOf (EUnit.perc 1) = []) ∧
      (w_PassesRun_1_0.op = (1, Instr.circulate (1 : Fin 2)).1) ∧ (passOk w_PassesRun_1_0 = false)) ∧
((Plain sPs2) ∧ (Begins sPs2 (EUnit.perc 1) cP (psW 2 2) (sPs2.spanTouch (Who.perc 1) 1048576 64)) ∧ (sPs2.activeOf (EUnit.perc 1) = []) ∧
      (w_PassesRun_2_0.op = (2, Instr.accum (1 : Fin 2)).1) ∧ (passOk w_PassesRun_2_0 = true) ∧ (sPs2.ringSt 1 ≠ 2)) ∧
((Plain sPs3) ∧ (Begins sPs3 (EUnit.perc 1) cP (psW 1 1) (sPs3.spanTouch (Who.perc 1) 1048576 64)) ∧ (sPs3.activeOf (EUnit.perc 1) = []) ∧
      (w_PassesRun_3_0.op = (1, Instr.circulate (1 : Fin 2)).1) ∧ (passOk w_PassesRun_3_0 = true) ∧ (sPs3.ringSt 1 = 2) ∧ ((sPs3.perc 1).aborts =
      []) ∧ ((sPs3.perc 1).staged = []) ∧ (w_PassesRun_3_0.op = 1) ∧ (InStacks (w_PassesRun_3_0.word 1) w_PassesRun_3_0.blkBytes)) ∧
((Plain sPs4) ∧ (Begins sPs4 (EUnit.perc 1) cP (psW 2 2) (sPs4.spanTouch (Who.perc 1) 1048576 64)) ∧ (sPs4.activeOf (EUnit.perc 1) = []) ∧
      (w_PassesRun_4_0.op = (2, Instr.accum (1 : Fin 2)).1) ∧ (passOk w_PassesRun_4_0 = true) ∧ (sPs4.ringSt 1 = 2) ∧ ((sPs4.perc 1).aborts = []) ∧
      ((sPs4.perc 1).staged = []) ∧ (w_PassesRun_4_0.op = 2)) ∧
((Plain sSegIn) ∧ (tlHub 9 = 1) ∧ (Arrives sSegIn 9 0 1 (hdOf 1 1024 5 8) (MsgInfo.seg 9 1 65536 3 0) blkK (sSegIn.takeRx 9 0 1025)) ∧
      (sSegIn.ringSt 1 = 1 ∨ sSegIn.ringSt 1 = 2) ∧ (sSegIn.percStage 1 = true) ∧ (freeSlot (sSegIn.stageCap 1) (List.map (fun x => x.slot)
      (sSegIn.perc 1).staged) = some 0) ∧ (sSegIn.ringPass 1 = none) ∧ (blkK.length = 1024) ∧ (∀ y ∈ blkK, y.poison = 0) ∧ (sSegIn.stageAdm
      (Who.perc 1) (sSegIn.percSlot 1 0) 65536 true = Adm.go)) ∧
((Plain sLand1) ∧ (sLand1.ringPass 1 = some (cPa 1)) ∧ (sLand1.cmd? (cPa 1).id = some (cPa 1)) ∧ (sLand1.ringSt 1 = 2) ∧ (sLand1.percStage 1 = true)
      ∧ ((sLand1.wakes.any fun w => w.who == SyncWho.cmd (cPa 1).id) = false) ∧ ((sLand1.perc 1).granted = true) ∧ ((sLand1.perc 1).asked = true) ∧
      ((sLand1.perc 1).staged = [sg0]) ∧ (sg0.seq = sLand1.passSeq 1) ∧ (sg0.origin = sLand1.originOf 1 (sLand1.perc 1).k) ∧ ((sLand1.perc 1).segs =
      []) ∧ (1 < (cPa 1).segN) ∧ (sg0.seg < (cPa 1).segN) ∧ (sg0.slot < sLand1.stageCap 1) ∧ (sLand1.stageAdm (Who.perc 1) (sLand1.percSlot 1
      sg0.slot) 65536 false = Adm.go) ∧ ((cPa 1).op = 1) ∧ (InStacks ((cPa 1).word 2 + ((sLand1.perc 1).k - 1) % (cPa 1).nslot * (cPa 1).slotPitch +
      65536 * sg0.seg) 65536) ∧ (((cPa 1).word 2 + ((sLand1.perc 1).k - 1) % (cPa 1).nslot * (cPa 1).slotPitch + 65536 * sg0.seg) % 64 = 0)) ∧
((Plain sLand2) ∧ (sLand2.ringPass 1 = some (cPa 2)) ∧ (sLand2.cmd? (cPa 2).id = some (cPa 2)) ∧ (sLand2.ringSt 1 = 2) ∧ (sLand2.percStage 1 = true)
      ∧ ((sLand2.wakes.any fun w => w.who == SyncWho.cmd (cPa 2).id) = false) ∧ ((sLand2.perc 1).granted = true) ∧ ((sLand2.perc 1).asked = true) ∧
      ((sLand2.perc 1).staged = [sg0]) ∧ (sg0.seq = sLand2.passSeq 1) ∧ (sg0.origin = sLand2.originOf 1 (sLand2.perc 1).k) ∧ ((sLand2.perc 1).segs =
      []) ∧ (1 < (cPa 2).segN) ∧ (sg0.seg < (cPa 2).segN) ∧ (sg0.slot < sLand2.stageCap 1) ∧ (sLand2.stageAdm (Who.perc 1) (sLand2.percSlot 1
      sg0.slot) 65536 false = Adm.go) ∧ ((cPa 2).op = 2) ∧ (0 < (sLand2.perc 1).k) ∧ ((sLand2.perc 1).k < sLand2.ringN 1) ∧ (InStacks ((cPa 2).word
      1 + (sLand2.perc 1).k % (cPa 2).nslot * (cPa 2).slotPitch + 65536 * sg0.seg) 65536)) ∧
((Plain sLand3) ∧ (sLand3.ringPass 1 = some (cPa 1)) ∧ (sLand3.cmd? (cPa 1).id = some (cPa 1)) ∧ (sLand3.ringSt 1 = 2) ∧ (sLand3.percStage 1 = true)
      ∧ ((sLand3.wakes.any fun w => w.who == SyncWho.cmd (cPa 1).id) = false) ∧ ((sLand3.perc 1).granted = true) ∧ ((sLand3.perc 1).asked = true) ∧
      ((cPa 1).op = 1) ∧ ((sLand3.perc 1).staged = []) ∧ ((sLand3.perc 1).segs.length = (cPa 1).segN) ∧ ((sLand3.perc 1).k + 1 = sLand3.ringN 1)) ∧
((Plain sDone) ∧ (sDone.ringPass 1 = some (cPa 2)) ∧ (sDone.cmd? (cPa 2).id = some (cPa 2)) ∧ ((sDone.wakes.any fun w => w.who == SyncWho.cmd (cPa
      2).id) = false) ∧ ((sDone.perc 1).k = if (cPa 2).op = 1 then sDone.ringN 1 else sDone.ringN 1 + 1) ∧ ((sDone.perc 1).sigs = 0) ∧
      (sDone.ringDrained 1 = true) ∧ ((cPa 2).errRef = none) ∧ ((cPa 2).cpl = 0) ∧ ((cPa 2).doneEn = false) ∧ ((sDone.moves.any fun m => m.cmd ==
      (cPa 2).id) = false)) := 
  by and_intros <;> decide +kernel
def w_KeyValue_1_0 : Cmd := { id := cP.id, unit := cP.unit, addr := cP.addr, thread := cP.thread, started := cP.started, job := cP.job, mode := cP.mode, modeSens := cP.modeSens, phase := CmdPhase.active, words := kvBad, status := cP.status, errRef := cP.errRef, slot := cP.slot, next := cP.next, cnt := cP.cnt, bytes := cP.bytes, dropped := cP.dropped, cold := cP.cold, open_ := cP.open_ : Cmd }
def w_KeyValue_2_0 : Cmd := { id := cP.id, unit := cP.unit, addr := cP.addr, thread := cP.thread, started := cP.started, job := cP.job, mode := cP.mode, modeSens := cP.modeSens, phase := CmdPhase.active, words := kvW 4, status := cP.status, errRef := cP.errRef, slot := cP.slot, next := cP.next, cnt := cP.cnt, bytes := cP.bytes, dropped := cP.dropped, cold := cP.cold, open_ := cP.open_ : Cmd }
theorem hyps_KeyValue :
((Plain sKv1) ∧ (sKv1.fbit blkGTC F.GTC.FENCE.FENCED = false) ∧ (Begins sKv1 (EUnit.perc 1) cP kvBad (sKv1.spanTouch (Who.perc 1) 1048576 64)) ∧
      (sKv1.activeOf (EUnit.perc 1) = []) ∧ (w_KeyValue_1_0.op = (3, Instr.kvGet (1 : Fin 2)).1) ∧ (kvOk w_KeyValue_1_0 = false)) ∧
((Plain sKv2) ∧ (sKv2.fbit blkGTC F.GTC.FENCE.FENCED = false) ∧ (Begins sKv2 (EUnit.perc 1) cP (kvW 4) (sKv2.spanTouch (Who.perc 1) 1048576 64)) ∧
      (sKv2.activeOf (EUnit.perc 1) = []) ∧ (w_KeyValue_2_0.op = (4, Instr.kvPut (1 : Fin 2)).1) ∧ (kvOk w_KeyValue_2_0 = true) ∧ (w_KeyValue_2_0.op
      = 4 → InStacks (w_KeyValue_2_0.word 2) w_KeyValue_2_0.kvLen)) ∧
((Plain (sReq 0 true 4)) ∧ ((sReq 0 true 4).fbit blkGTC F.GTC.FENCE.FENCED = false) ∧ (tlHub 9 = 1) ∧ (Arrives (sReq 0 true 4) 9 1 4 (hdOf 4 0 5 8)
      (MsgInfo.kvReq true 4 128 7) [] ((sReq 0 true 4).takeRx 9 1 1)) ∧ ((sReq 0 true 4).fbit (blkPERC 1) F.PERC.KV_CTL.SERVE = false)) ∧
((Plain (sReq 1 true 4)) ∧ ((sReq 1 true 4).fbit blkGTC F.GTC.FENCE.FENCED = false) ∧ (tlHub 9 = 1) ∧ (Arrives (sReq 1 true 4) 9 1 4 (hdOf 4 0 5 8)
      (MsgInfo.kvReq true 4 128 7) [] ((sReq 1 true 4).takeRx 9 1 1)) ∧ ((sReq 1 true 4).fbit (blkPERC 1) F.PERC.KV_CTL.SERVE = true) ∧ (((sReq 1
      true 4).perc 1).kvs = []) ∧ ((sReq 1 true 4).fget (blkPERC 1) F.PERC.KV_BLOCKS.COUNT ≤ 4)) ∧
((Plain (sReq 1 true 3)) ∧ ((sReq 1 true 3).fbit blkGTC F.GTC.FENCE.FENCED = false) ∧ (tlHub 9 = 1) ∧ (Arrives (sReq 1 true 3) 9 1 4 (hdOf 4 0 5 8)
      (MsgInfo.kvReq true 3 128 7) [] ((sReq 1 true 3).takeRx 9 1 1)) ∧ ((sReq 1 true 3).fbit (blkPERC 1) F.PERC.KV_CTL.SERVE = true) ∧ (((sReq 1
      true 3).perc 1).kvs = []) ∧ (3 < (sReq 1 true 3).fget (blkPERC 1) F.PERC.KV_BLOCKS.COUNT) ∧ (InStacks (4096 * (sReq 1 true 3).fget (blkPERC 1)
      F.PERC.KV_DIR.BASE + 16 * 3) 16) ∧ (eTier ((sReq 1 true 3).mem.readNat (4096 * (sReq 1 true 3).fget (blkPERC 1) F.PERC.KV_DIR.BASE + 16 * 3)
      16) = 1) ∧ (bits ((sReq 1 true 3).mem.readNat (4096 * (sReq 1 true 3).fget (blkPERC 1) F.PERC.KV_DIR.BASE + 16 * 3) 16) 64 32 = 128) ∧ (0 <
      128) ∧ (true = true)) ∧
((Plain (sReq 1 false 3)) ∧ ((sReq 1 false 3).fbit blkGTC F.GTC.FENCE.FENCED = false) ∧ (tlHub 9 = 1) ∧ (Arrives (sReq 1 false 3) 9 1 4 (hdOf 4 0 5
      8) (MsgInfo.kvReq false 3 128 7) [] ((sReq 1 false 3).takeRx 9 1 1)) ∧ ((sReq 1 false 3).fbit (blkPERC 1) F.PERC.KV_CTL.SERVE = true) ∧
      (((sReq 1 false 3).perc 1).kvs = []) ∧ (3 < (sReq 1 false 3).fget (blkPERC 1) F.PERC.KV_BLOCKS.COUNT) ∧ (InStacks (4096 * (sReq 1 false
      3).fget (blkPERC 1) F.PERC.KV_DIR.BASE + 16 * 3) 16) ∧ (eTier ((sReq 1 false 3).mem.readNat (4096 * (sReq 1 false 3).fget (blkPERC 1)
      F.PERC.KV_DIR.BASE + 16 * 3) 16) = 1) ∧ (bits ((sReq 1 false 3).mem.readNat (4096 * (sReq 1 false 3).fget (blkPERC 1) F.PERC.KV_DIR.BASE + 16
      * 3) 16) 64 32 = 128) ∧ (0 < 128) ∧ (false = false) ∧ (InStacks (kvLoc ((sReq 1 false 3).mem.readNat (4096 * (sReq 1 false 3).fget (blkPERC 1)
      F.PERC.KV_DIR.BASE + 16 * 3) 16)) 128)) ∧
((Plain sPut) ∧ (sPut.fbit blkGTC F.GTC.FENCE.FENCED = false) ∧ (tlHub 9 = 1) ∧ (Arrives sPut 9 0 5 (hdOf 5 2 5 8) (MsgInfo.kvData true 64 7) blk1
      (sPut.takeRx 9 0 3)) ∧ ((sPut.perc 1).kvs = [kvP]) ∧ (kvP.run = true) ∧ (kvP.put = true) ∧ (kvP.peer = hdrSrc (hdOf 5 2 5 8)) ∧ (kvP.tag = 7)
      ∧ (kvP.got + 64 * blk1.length < kvP.len) ∧ (InStacks (kvLoc kvP.entry + 64) (64 * blk1.length)) ∧ ((kvLoc kvP.entry + 64) % 64 = 0) ∧ (∀ y ∈
      blk1, y.poison = 0)) ∧
((Plain sKd) ∧ (sKd.fbit blkGTC F.GTC.FENCE.FENCED = false) ∧ (tlHub 9 = 1) ∧ (Arrives sKd 9 2 5 (hdOf 5 2 5 8) (MsgInfo.kvData false 0 7) blk1
      (sKd.takeRx 9 2 3)) ∧ (List.find? (fun y => y.unit == EUnit.perc 1 && y.phase == CmdPhase.active && y.op == 3 && y.peer == hdrSrc (hdOf 5 2 5
      8)) sKd.cmds = some (cKv 3)) ∧ (sKd.cmd? (cKv 3).id = some (cKv 3)) ∧ (blk1 ≠ []) ∧ (InStacks ((cKv 3).word 2 + 0) (64 * blk1.length)) ∧
      (((cKv 3).word 2 + 0) % 64 = 0) ∧ (∀ y ∈ blk1, y.poison = 0)) ∧
((Plain (sKa 3)) ∧ ((sKa 3).fbit blkGTC F.GTC.FENCE.FENCED = false) ∧ (tlHub 9 = 1) ∧ (Arrives (sKa 3) 9 2 6 (hdOf 6 0 5 8) (MsgInfo.kvAck 3 7) []
      ((sKa 3).takeRx 9 2 1)) ∧ (List.find? (fun y => y.unit == EUnit.perc 1 && y.phase == CmdPhase.active && (y.op == 3 || y.op == 4) && y.peer ==
      hdrSrc (hdOf 6 0 5 8)) (sKa 3).cmds = some (cKv 4)) ∧ ((sKa 3).cmd? (cKv 4).id = some (cKv 4))) := 
  by and_intros <;> decide +kernel
def w_CollectivesBegin_1_0 : Cmd := { id := cC.id, unit := cC.unit, addr := cC.addr, thread := cC.thread, started := cC.started, job := cC.job, mode := cC.mode, modeSens := cC.modeSens, phase := CmdPhase.active, words := coBad, status := cC.status, errRef := cC.errRef, slot := cC.slot, next := cC.next, cnt := cC.cnt, bytes := cC.bytes, dropped := cC.dropped, cold := cC.cold, open_ := cC.open_ : Cmd }
def w_CollectivesBegin_2_0 : Cmd := { id := cC.id, unit := cC.unit, addr := cC.addr, thread := cC.thread, started := cC.started, job := cC.job, mode := cC.mode, modeSens := cC.modeSens, phase := CmdPhase.active, words := coW2, status := cC.status, errRef := cC.errRef, slot := cC.slot, next := cC.next, cnt := cC.cnt, bytes := cC.bytes, dropped := cC.dropped, cold := cC.cold, open_ := cC.open_ : Cmd }
def w_CollectivesBegin_3_0 : Cmd := { id := cC.id, unit := cC.unit, addr := cC.addr, thread := cC.thread, started := cC.started, job := cC.job, mode := cC.mode, modeSens := cC.modeSens, phase := CmdPhase.active, words := coW3, status := cC.status, errRef := cC.errRef, slot := cC.slot, next := cC.next, cnt := cC.cnt, bytes := cC.bytes, dropped := cC.dropped, cold := cC.cold, open_ := cC.open_ : Cmd }
def w_CollectivesBegin_4_0 : Cmd := { id := cC.id, unit := cC.unit, addr := cC.addr, thread := cC.thread, started := cC.started, job := cC.job, mode := cC.mode, modeSens := cC.modeSens, phase := CmdPhase.active, words := coW3, status := cC.status, errRef := cC.errRef, slot := cC.slot, next := cC.next, cnt := cC.cnt, bytes := cC.bytes, dropped := cC.dropped, cold := cC.cold, open_ := cC.open_ : Cmd }
def w_CollectivesBegin_5_0 : Cmd := { id := cC.id, unit := cC.unit, addr := cC.addr, thread := cC.thread, started := cC.started, job := cC.job, mode := cC.mode, modeSens := cC.modeSens, phase := CmdPhase.active, words := coW5, status := cC.status, errRef := cC.errRef, slot := cC.slot, next := cC.next, cnt := cC.cnt, bytes := cC.bytes, dropped := cC.dropped, cold := cC.cold, open_ := cC.open_ : Cmd }
def w_CollectivesBegin_6_0 : Cmd := { id := cC.id, unit := cC.unit, addr := cC.addr, thread := cC.thread, started := cC.started, job := cC.job, mode := cC.mode, modeSens := cC.modeSens, phase := CmdPhase.active, words := coW6, status := cC.status, errRef := cC.errRef, slot := cC.slot, next := cC.next, cnt := cC.cnt, bytes := cC.bytes, dropped := cC.dropped, cold := cC.cold, open_ := cC.open_ : Cmd }
def w_CollectivesBegin_7_0 : Cmd := { id := cC.id, unit := cC.unit, addr := cC.addr, thread := cC.thread, started := cC.started, job := cC.job, mode := cC.mode, modeSens := cC.modeSens, phase := CmdPhase.active, words := coW6, status := cC.status, errRef := cC.errRef, slot := cC.slot, next := cC.next, cnt := cC.cnt, bytes := cC.bytes, dropped := cC.dropped, cold := cC.cold, open_ := cC.open_ : Cmd }
theorem hyps_CollectivesBegin :
((Plain sCoG1) ∧ (Begins sCoG1 (EUnit.coll 1) cC coBad (sCoG1.spanTouch (Who.coll 1) 1048576 64)) ∧ ((sCoG1.activeOf (EUnit.coll 1)).length < 8) ∧
      (∀ y ∈ sCoG1.activeOf (EUnit.coll 1), y.phase = CmdPhase.active → ((sCoG1.coll 1).ops.any fun o => o.cmd == y.id) = true) ∧ (∀ o ∈ (sCoG1.coll
      1).ops, o.cmd ≠ cC.id) ∧ (w_CollectivesBegin_1_0.op = (3, Instr.allreduce (1 : Fin 2)).1) ∧ (coOk w_CollectivesBegin_1_0 = false)) ∧
((Plain sCoG2) ∧ (Begins sCoG2 (EUnit.coll 1) cC coW2 (sCoG2.spanTouch (Who.coll 1) 1048576 64)) ∧ ((sCoG2.activeOf (EUnit.coll 1)).length < 8) ∧ (∀
      y ∈ sCoG2.activeOf (EUnit.coll 1), y.phase = CmdPhase.active → ((sCoG2.coll 1).ops.any fun o => o.cmd == y.id) = true) ∧ (∀ o ∈ (sCoG2.coll
      1).ops, o.cmd ≠ cC.id) ∧ (w_CollectivesBegin_2_0.op = (4, Instr.send (1 : Fin 2)).1) ∧ (coOk w_CollectivesBegin_2_0 = true) ∧
      (w_CollectivesBegin_2_0.dropped = 0 ∧ (w_CollectivesBegin_2_0.coLayout + 65536 - sCoG2.fget (blkCOLL 1) F.COLL.LAYOUT.CUR) % 65536 ≠ 0 ∨
      w_CollectivesBegin_2_0.dropped ≠ 0 ∧ (w_CollectivesBegin_2_0.coLayout = w_CollectivesBegin_2_0.dropped - 1 ∨ w_CollectivesBegin_2_0.coLayout =
      w_CollectivesBegin_2_0.dropped % 65536))) ∧
((Plain sCoG3) ∧ (Begins sCoG3 (EUnit.coll 1) cC coW3 (sCoG3.spanTouch (Who.coll 1) 1048576 64)) ∧ ((sCoG3.activeOf (EUnit.coll 1)).length < 8) ∧ (∀
      y ∈ sCoG3.activeOf (EUnit.coll 1), y.phase = CmdPhase.active → ((sCoG3.coll 1).ops.any fun o => o.cmd == y.id) = true) ∧ (∀ o ∈ (sCoG3.coll
      1).ops, o.cmd ≠ cC.id) ∧ (w_CollectivesBegin_3_0.op = (3, Instr.allreduce (1 : Fin 2)).1) ∧ (coOk w_CollectivesBegin_3_0 = true) ∧
      (w_CollectivesBegin_3_0.dropped = 0) ∧ ((w_CollectivesBegin_3_0.coLayout + 65536 - sCoG3.fget (blkCOLL 1) F.COLL.LAYOUT.CUR) % 65536 = 0) ∧
      ((sCoG3.coll 1).early = []) ∧ ((sCoG3.coll 1).aborts = []) ∧ (sCoG3.coStage 1 = true) ∧ (w_CollectivesBegin_3_0.op ≤ 3) ∧ (InStacks
      (w_CollectivesBegin_3_0.word 4) (64 + 2 * bits (sCoG3.viewNat (w_CollectivesBegin_3_0.word 4) 64) 16 16 * bits (sCoG3.viewNat
      (w_CollectivesBegin_3_0.word 4) 64) 48 8)) ∧ (groupOk (sCoG3.viewNat (w_CollectivesBegin_3_0.word 4) 64) = false ∨ bits (sCoG3.viewNat
      (w_CollectivesBegin_3_0.word 4) 64) 48 8 ≤ w_CollectivesBegin_3_0.coPhase)) ∧
((Plain sCoG4) ∧ (Begins sCoG4 (EUnit.coll 1) cC coW3 (sCoG4.spanTouch (Who.coll 1) 1048576 64)) ∧ ((sCoG4.activeOf (EUnit.coll 1)).length < 8) ∧ (∀
      y ∈ sCoG4.activeOf (EUnit.coll 1), y.phase = CmdPhase.active → ((sCoG4.coll 1).ops.any fun o => o.cmd == y.id) = true) ∧ (∀ o ∈ (sCoG4.coll
      1).ops, o.cmd ≠ cC.id) ∧ (w_CollectivesBegin_4_0.op = (3, Instr.allreduce (1 : Fin 2)).1) ∧ (coOk w_CollectivesBegin_4_0 = true) ∧
      (w_CollectivesBegin_4_0.dropped = 0) ∧ ((w_CollectivesBegin_4_0.coLayout + 65536 - sCoG4.fget (blkCOLL 1) F.COLL.LAYOUT.CUR) % 65536 = 0) ∧
      ((sCoG4.coll 1).early = []) ∧ ((sCoG4.coll 1).aborts = []) ∧ (sCoG4.coStage 1 = true) ∧ (w_CollectivesBegin_4_0.op ≤ 3) ∧ (InStacks
      (w_CollectivesBegin_4_0.word 4) (64 + 2 * bits (sCoG4.viewNat (w_CollectivesBegin_4_0.word 4) 64) 16 16 * bits (sCoG4.viewNat
      (w_CollectivesBegin_4_0.word 4) 64) 48 8)) ∧ (groupOk (sCoG4.viewNat (w_CollectivesBegin_4_0.word 4) 64) = true) ∧
      (w_CollectivesBegin_4_0.coPhase < bits (sCoG4.viewNat (w_CollectivesBegin_4_0.word 4) 64) 48 8) ∧ (List.filter (fun i =>
      sCoG4.coNumbers.contains ((List.map (fun i => bits (sCoG4.viewNat (w_CollectivesBegin_4_0.word 4 + 64) (2 * bits (sCoG4.viewNat
      (w_CollectivesBegin_4_0.word 4) 64) 16 16 * bits (sCoG4.viewNat (w_CollectivesBegin_4_0.word 4) 64) 48 8)) (16 * (bits (sCoG4.viewNat
      (w_CollectivesBegin_4_0.word 4) 64) 16 16 * w_CollectivesBegin_4_0.coPhase + i)) 16) (List.range (bits (sCoG4.viewNat
      (w_CollectivesBegin_4_0.word 4) 64) 16 16))).getD i 0)) (List.range (bits (sCoG4.viewNat (w_CollectivesBegin_4_0.word 4) 64) 16 16)) = [1]) ∧
      (∀ m ∈ List.map (fun i => bits (sCoG4.viewNat (w_CollectivesBegin_4_0.word 4 + 64) (2 * bits (sCoG4.viewNat (w_CollectivesBegin_4_0.word 4)
      64) 16 16 * bits (sCoG4.viewNat (w_CollectivesBegin_4_0.word 4) 64) 48 8)) (16 * (bits (sCoG4.viewNat (w_CollectivesBegin_4_0.word 4) 64) 16
      16 * w_CollectivesBegin_4_0.coPhase + i)) 16) (List.range (bits (sCoG4.viewNat (w_CollectivesBegin_4_0.word 4) 64) 16 16)), m ≠ (List.map (fun
      i => bits (sCoG4.viewNat (w_CollectivesBegin_4_0.word 4 + 64) (2 * bits (sCoG4.viewNat (w_CollectivesBegin_4_0.word 4) 64) 16 16 * bits
      (sCoG4.viewNat (w_CollectivesBegin_4_0.word 4) 64) 48 8)) (16 * (bits (sCoG4.viewNat (w_CollectivesBegin_4_0.word 4) 64) 16 16 *
      w_CollectivesBegin_4_0.coPhase + i)) 16) (List.range (bits (sCoG4.viewNat (w_CollectivesBegin_4_0.word 4) 64) 16 16))).getD 1 0 → (sCoG4.route
      m).valid = true ∧ (sCoG4.route m).list ≠ []) ∧ (InStacks (w_CollectivesBegin_4_0.word 1) (bits (sCoG4.viewNat (w_CollectivesBegin_4_0.word 4)
      64) 16 16 * w_CollectivesBegin_4_0.coCount * Machine.sizeOf w_CollectivesBegin_4_0.coIn)) ∧ (InStacks (w_CollectivesBegin_4_0.word 2) (bits
      (sCoG4.viewNat (w_CollectivesBegin_4_0.word 4) 64) 16 16 * w_CollectivesBegin_4_0.coCount * Machine.sizeOf w_CollectivesBegin_4_0.coOut))) ∧
((Plain sCoG5) ∧ (Begins sCoG5 (EUnit.coll 1) cC coW5 (sCoG5.spanTouch (Who.coll 1) 1048576 64)) ∧ ((sCoG5.activeOf (EUnit.coll 1)).length < 8) ∧ (∀
      y ∈ sCoG5.activeOf (EUnit.coll 1), y.phase = CmdPhase.active → ((sCoG5.coll 1).ops.any fun o => o.cmd == y.id) = true) ∧ (∀ o ∈ (sCoG5.coll
      1).ops, o.cmd ≠ cC.id) ∧ (w_CollectivesBegin_5_0.op = (4, Instr.send (1 : Fin 2)).1) ∧ (coOk w_CollectivesBegin_5_0 = true) ∧
      (w_CollectivesBegin_5_0.dropped = 0) ∧ ((w_CollectivesBegin_5_0.coLayout + 65536 - sCoG5.fget (blkCOLL 1) F.COLL.LAYOUT.CUR) % 65536 = 0) ∧
      ((sCoG5.coll 1).early = []) ∧ ((sCoG5.coll 1).aborts = []) ∧ (sCoG5.coStage 1 = true) ∧ (w_CollectivesBegin_5_0.op = 4)) ∧
((Plain sCoG6) ∧ (Begins sCoG6 (EUnit.coll 1) cC coW6 (sCoG6.spanTouch (Who.coll 1) 1048576 64)) ∧ ((sCoG6.activeOf (EUnit.coll 1)).length < 8) ∧ (∀
      y ∈ sCoG6.activeOf (EUnit.coll 1), y.phase = CmdPhase.active → ((sCoG6.coll 1).ops.any fun o => o.cmd == y.id) = true) ∧ (∀ o ∈ (sCoG6.coll
      1).ops, o.cmd ≠ cC.id) ∧ (w_CollectivesBegin_6_0.op = (5, Instr.recv (1 : Fin 2)).1) ∧ (coOk w_CollectivesBegin_6_0 = true) ∧
      (w_CollectivesBegin_6_0.dropped = 0) ∧ ((w_CollectivesBegin_6_0.coLayout + 65536 - sCoG6.fget (blkCOLL 1) F.COLL.LAYOUT.CUR) % 65536 = 0) ∧
      ((sCoG6.coll 1).early = []) ∧ ((sCoG6.coll 1).aborts = []) ∧ (sCoG6.coStage 1 = true) ∧ (w_CollectivesBegin_6_0.op = 5) ∧
      (sCoG6.numbers.contains sCoG6.devNum = true) ∧ (sCoG6.pickPort 1 w_CollectivesBegin_6_0.coPeer = none)) ∧
((Plain sCoG7) ∧ (Begins sCoG7 (EUnit.coll 1) cC coW6 (sCoG7.spanTouch (Who.coll 1) 1048576 64)) ∧ ((sCoG7.activeOf (EUnit.coll 1)).length < 8) ∧ (∀
      y ∈ sCoG7.activeOf (EUnit.coll 1), y.phase = CmdPhase.active → ((sCoG7.coll 1).ops.any fun o => o.cmd == y.id) = true) ∧ (∀ o ∈ (sCoG7.coll
      1).ops, o.cmd ≠ cC.id) ∧ (w_CollectivesBegin_7_0.op = (5, Instr.recv (1 : Fin 2)).1) ∧ (coOk w_CollectivesBegin_7_0 = true) ∧
      (w_CollectivesBegin_7_0.dropped = 0) ∧ ((w_CollectivesBegin_7_0.coLayout + 65536 - sCoG7.fget (blkCOLL 1) F.COLL.LAYOUT.CUR) % 65536 = 0) ∧
      ((sCoG7.coll 1).early = []) ∧ ((sCoG7.coll 1).aborts = []) ∧ (sCoG7.coStage 1 = true) ∧ (w_CollectivesBegin_7_0.op = 5) ∧
      (sCoG7.numbers.contains sCoG7.devNum = true) ∧ (sCoG7.pickPort 1 w_CollectivesBegin_7_0.coPeer = some (17, (Option.map (fun x => x.2)
      (sCoG7.pickPort 1 8)).getD sCoG7)) ∧ (sCoG7.tlTakes 17 = true) ∧ (sCoG7.devNum < 65536)) ∧
((Plain sCoG8) ∧ (sCoG8.regsOn = true) ∧ (bit (BitVec.toNat (131071 : Word)) 16 = true) ∧ (¬(sCoG8.fbit (blkCOLL 1) F.COLL.LAYOUT.DRAINING = false ∧
      bits (BitVec.toNat (131071 : Word)) 0 16 = (sCoG8.fget (blkCOLL 1) F.COLL.LAYOUT.CUR + 1) % 65536))) ∧
((Plain sCoG8) ∧ (sCoG8.regsOn = true) ∧ (bit (BitVec.toNat (65536 : Word)) 16 = true) ∧ (sCoG8.fbit (blkCOLL 1) F.COLL.LAYOUT.DRAINING = false ∧
      bits (BitVec.toNat (65536 : Word)) 0 16 = (sCoG8.fget (blkCOLL 1) F.COLL.LAYOUT.CUR + 1) % 65536) ∧ (∀ c ∈ sCoG8.cmds, c.unit ≠ EUnit.coll 1))
      ∧
((Plain sCoG7) ∧ (sCoG7.regsOn = true) ∧ (bit (BitVec.toNat (65536 : Word)) 16 = true) ∧ (sCoG7.fbit (blkCOLL 1) F.COLL.LAYOUT.DRAINING = false ∧
      bits (BitVec.toNat (65536 : Word)) 0 16 = (sCoG7.fget (blkCOLL 1) F.COLL.LAYOUT.CUR + 1) % 65536) ∧ (∃ c ∈ sCoG7.cmds, c.unit = EUnit.coll 1 ∧
      c.dropped ≠ sCoG7.fget (blkCOLL 1) F.COLL.LAYOUT.CUR + 1)) := 
  by and_intros <;> decide +kernel
theorem hyps_CollectiveMessages :
((Plain sMs1) ∧ (Arrives sMs1 9 0 2 (hdOf 2 2 5 8) (MsgInfo.coll (hdC 4 0)) blk1 (sMs1.takeRx 9 0 3)) ∧ (freeSlot (512 * sMs1.fget (blkCOLL (tlHub
      9)) F.COLL.STAGE.NBANK) (sMs1.coStaged (tlHub 9)) = some 0) ∧ (blk1 ≠ []) ∧ (blk1.length ≤ 1024) ∧ (∀ y ∈ blk1, y.poison = 0) ∧ (sMs1.coStage
      (tlHub 9) = true) ∧ (sMs1.stageAdm (Who.coll (tlHub 9)) (sMs1.coSlot (tlHub 9) 0) (64 * blk1.length) true = Adm.go) ∧ (sMs1.coFind (tlHub 9)
      (coKey (coDual (hdC 4 0).op) (hdrSrc (hdOf 2 2 5 8)) (hdC 4 0).gid) (hdC 4 0).seq = none) ∧ (sMs1.coOld (tlHub 9) (hdC 4 0).layout = false)) ∧
((Plain (sMs2 hdX)) ∧ (Arrives (sMs2 hdX) 9 0 2 (hdOf 2 2 5 8) (MsgInfo.coll hdX) blk1 ((sMs2 hdX).takeRx 9 0 3)) ∧ (freeSlot (512 * (sMs2 hdX).fget
      (blkCOLL (tlHub 9)) F.COLL.STAGE.NBANK) ((sMs2 hdX).coStaged (tlHub 9)) = some 0) ∧ (blk1 ≠ []) ∧ (blk1.length ≤ 1024) ∧ (∀ y ∈ blk1, y.poison
      = 0) ∧ ((sMs2 hdX).coStage (tlHub 9) = true) ∧ ((sMs2 hdX).stageAdm (Who.coll (tlHub 9)) ((sMs2 hdX).coSlot (tlHub 9) 0) (64 * blk1.length)
      true = Adm.go) ∧ ((sMs2 hdX).coFind (tlHub 9) (coKey (coDual hdX.op) (hdrSrc (hdOf 2 2 5 8)) hdX.gid) hdX.seq = some (co0 5)) ∧ ((sMs2
      hdX).coOp? (tlHub 9) (co0 5).cmd = some (co0 5)) ∧ ((sMs2 hdX).cmd? (co0 5).cmd = some (cCa 5)) ∧ ((cCa 5).phase = CmdPhase.active) ∧
      (coMatches (cCa 5) (co0 5) hdX = false)) ∧
((Plain (sMs2 (hdC 4 0))) ∧ (Arrives (sMs2 (hdC 4 0)) 9 0 2 (hdOf 2 2 5 8) (MsgInfo.coll (hdC 4 0)) blk1 ((sMs2 (hdC 4 0)).takeRx 9 0 3)) ∧
      (freeSlot (512 * (sMs2 (hdC 4 0)).fget (blkCOLL (tlHub 9)) F.COLL.STAGE.NBANK) ((sMs2 (hdC 4 0)).coStaged (tlHub 9)) = some 0) ∧ (blk1 ≠ []) ∧
      (blk1.length ≤ 1024) ∧ (∀ y ∈ blk1, y.poison = 0) ∧ ((sMs2 (hdC 4 0)).coStage (tlHub 9) = true) ∧ ((sMs2 (hdC 4 0)).stageAdm (Who.coll (tlHub
      9)) ((sMs2 (hdC 4 0)).coSlot (tlHub 9) 0) (64 * blk1.length) true = Adm.go) ∧ ((sMs2 (hdC 4 0)).coFind (tlHub 9) (coKey (coDual (hdC 4 0).op)
      (hdrSrc (hdOf 2 2 5 8)) (hdC 4 0).gid) (hdC 4 0).seq = some (co0 5)) ∧ ((sMs2 (hdC 4 0)).coOp? (tlHub 9) (co0 5).cmd = some (co0 5)) ∧ ((sMs2
      (hdC 4 0)).cmd? (co0 5).cmd = some (cCa 5)) ∧ ((cCa 5).phase = CmdPhase.active) ∧ (coMatches (cCa 5) (co0 5) (hdC 4 0) = true) ∧ ((cCa 5).op =
      5) ∧ ((co0 5).parts = []) ∧ ((sMs2 (hdC 4 0)).stageAdm (Who.coll (tlHub 9)) ((sMs2 (hdC 4 0)).coSlot (tlHub 9) 0) (64 * blk1.length) false =
      Adm.go) ∧ (((cCa 5).word 2 + (hdC 4 0).off) % 64 = 0) ∧ (InStacks ((cCa 5).word 2 + (hdC 4 0).off) (64 * blk1.length))) ∧
((Plain (sMs4 (hdR 0))) ∧ (Arrives (sMs4 (hdR 0)) 9 1 3 (hdOf 3 0 5 8) (MsgInfo.coll (hdR 0)) [] ((sMs4 (hdR 0)).takeRx 9 1 1)) ∧ ((sMs4 (hdR
      0)).coFind (tlHub 9) (coKey 4 (hdrSrc (hdOf 3 0 5 8)) (hdR 0).gid) (hdR 0).seq = some (co0 4)) ∧ ((sMs4 (hdR 0)).coOp? (tlHub 9) (co0 4).cmd =
      some (co0 4)) ∧ ((sMs4 (hdR 0)).cmd? (co0 4).cmd = some (cCa 4)) ∧ ((cCa 4).phase = CmdPhase.active) ∧ ((cCa 4).op = 4) ∧ ((hdR 0).count ≠
      (cCa 4).coCount ∨ (hdR 0).layout ≠ (cCa 4).coLayout)) ∧
((Plain (sMs4 (hdR 65535))) ∧ (Arrives (sMs4 (hdR 65535)) 9 1 3 (hdOf 3 0 5 8) (MsgInfo.coll (hdR 65535)) [] ((sMs4 (hdR 65535)).takeRx 9 1 1)) ∧
      ((sMs4 (hdR 65535)).coFind (tlHub 9) (coKey 4 (hdrSrc (hdOf 3 0 5 8)) (hdR 65535).gid) (hdR 65535).seq = some (co0 4)) ∧ ((sMs4 (hdR
      65535)).coOp? (tlHub 9) (co0 4).cmd = some (co0 4)) ∧ ((sMs4 (hdR 65535)).cmd? (co0 4).cmd = some (cCa 4)) ∧ ((cCa 4).phase = CmdPhase.active)
      ∧ ((cCa 4).op = 4) ∧ ((hdR 65535).count = (cCa 4).coCount) ∧ ((hdR 65535).layout = (cCa 4).coLayout) ∧ (InStacks ((cCa 4).word 1) (cCa
      4).coCount) ∧ ((sMs4 (hdR 65535)).pickPort (tlHub 9) ((co0 4).mem.getD 1 0) ≠ none)) ∧
((Arrives (sMs6 6 true) 9 1 7 (hdOf 7 0 5 8) (MsgInfo.coAbort 5 2 6 true) [] ((sMs6 6 true).takeRx 9 1 1)) ∧ ((sMs6 6 true).coFind (tlHub 9) (coKey
      (coDual 5) (hdrSrc (hdOf 7 0 5 8)) 2) 6 = some (co0 4)) ∧ ((sMs6 6 true).coLive (co0 4).cmd = true)) ∧
((Arrives (sMs6 7 true) 9 1 7 (hdOf 7 0 5 8) (MsgInfo.coAbort 5 2 7 true) [] ((sMs6 7 true).takeRx 9 1 1)) ∧ ((sMs6 7 true).coFind (tlHub 9) (coKey
      (coDual 5) (hdrSrc (hdOf 7 0 5 8)) 2) 7 = none) ∧ ((coKey (coDual 5) (hdrSrc (hdOf 7 0 5 8)) 2, 7, true) ∉ ((sMs6 7 true).coll (tlHub
      9)).aborts)) ∧
((sMs8.alive = true) ∧ (sMs8.cmd? 7 = some (cCa 4)) ∧ ((cCa 4).unit = EUnit.coll 1) ∧ ((cCa 4).phase = CmdPhase.active) ∧ (sMs8.coOp? 1 7 = some
      (co0 4)) ∧ ((co0 4).progAt + 65536 * sMs8.fget (blkCOLL 1) F.COLL.COLL_LIMIT.LIMIT ≤ sMs8.clk.arith)) := 
  by and_intros <;> decide +kernel
def w_SpillsRun_2_0 : Cmd := { id := cF.id, unit := cF.unit, addr := cF.addr, thread := cF.thread, started := cF.started, job := cF.job, mode := cF.mode, modeSens := cF.modeSens, phase := CmdPhase.active, words := flW 1 98, status := cF.status, errRef := cF.errRef, slot := cF.slot, next := cF.next, cnt := cF.cnt, bytes := cF.bytes, dropped := cF.dropped, cold := cF.cold, open_ := cF.open_ : Cmd }
def w_SpillsRun_3_0 : Cmd := { id := cF.id, unit := cF.unit, addr := cF.addr, thread := cF.thread, started := cF.started, job := cF.job, mode := cF.mode, modeSens := cF.modeSens, phase := CmdPhase.active, words := flW 2 2, status := cF.status, errRef := cF.errRef, slot := cF.slot, next := cF.next, cnt := cF.cnt, bytes := cF.bytes, dropped := cF.dropped, cold := cF.cold, open_ := cF.open_ : Cmd }
def w_SpillsRun_4_0 : Cmd := { id := cF.id, unit := cF.unit, addr := cF.addr, thread := cF.thread, started := cF.started, job := cF.job, mode := cF.mode, modeSens := cF.modeSens, phase := CmdPhase.active, words := flW 1 97, status := cF.status, errRef := cF.errRef, slot := cF.slot, next := cF.next, cnt := cF.cnt, bytes := cF.bytes, dropped := cF.dropped, cold := cF.cold, open_ := cF.open_ : Cmd }
def w_SpillsRun_5_0 : Cmd := { id := cF.id, unit := cF.unit, addr := cF.addr, thread := cF.thread, started := cF.started, job := cF.job, mode := cF.mode, modeSens := cF.modeSens, phase := CmdPhase.active, words := flW 3 2, status := cF.status, errRef := cF.errRef, slot := cF.slot, next := cF.next, cnt := cF.cnt, bytes := cF.bytes, dropped := cF.dropped, cold := cF.cold, open_ := cF.open_ : Cmd }
theorem hyps_SpillsRun :
((Plain sFa) ∧ (Begins sFa (EUnit.flash 1) cF (flW 1 2) (sFa.spanTouch (Who.flash 1) 1048576 64)) ∧ ((sFa.activeOf (EUnit.flash 1)).length < 64) ∧
      (sFa.fmState 1 = 4 ∨ sFa.fmState 1 = 5)) ∧
((Plain sFb) ∧ (Begins sFb (EUnit.flash 1) cF (flW 1 98) (sFb.spanTouch (Who.flash 1) 1048576 64)) ∧ ((sFb.activeOf (EUnit.flash 1)).length < 64) ∧
      (sFb.fmUp 1 = true) ∧ (w_SpillsRun_2_0.op = (1, Instr.read (1 : Fin 2)).1) ∧ (sFb.spillOk 1 w_SpillsRun_2_0 = false)) ∧
((Plain sFc) ∧ (Begins sFc (EUnit.flash 1) cF (flW 2 2) (sFc.spanTouch (Who.flash 1) 1048576 64)) ∧ ((sFc.activeOf (EUnit.flash 1)).length < 64) ∧
      (sFc.fmUp 1 = true) ∧ (w_SpillsRun_3_0.op = (2, Instr.write (1 : Fin 2)).1) ∧ (sFc.spillOk 1 w_SpillsRun_3_0 = true) ∧ (sFc.fmState 1 = 3) ∧
      (w_SpillsRun_3_0.op ≠ 1)) ∧
((Plain sFd) ∧ (Begins sFd (EUnit.flash 1) cF (flW 1 97) (sFd.spanTouch (Who.flash 1) 1048576 64)) ∧ ((sFd.activeOf (EUnit.flash 1)).length < 64) ∧
      (sFd.fmUp 1 = true) ∧ (w_SpillsRun_4_0.op = (1, Instr.read (1 : Fin 2)).1) ∧ (sFd.spillOk 1 w_SpillsRun_4_0 = true) ∧ (sFd.fmState 1 = 2 ∨
      w_SpillsRun_4_0.op = 1) ∧ (w_SpillsRun_4_0.op ≠ 3)) ∧
((Plain sFt) ∧ (Begins sFt (EUnit.flash 1) cF (flW 3 2) (sFt.spanTouch (Who.flash 1) 1048576 64)) ∧ ((sFt.activeOf (EUnit.flash 1)).length < 64) ∧
      (sFt.fmUp 1 = true) ∧ (w_SpillsRun_5_0.op = (3, Instr.trim (1 : Fin 2)).1) ∧ (sFt.spillOk 1 w_SpillsRun_5_0 = true) ∧ (sFt.fmState 1 = 2 ∨
      w_SpillsRun_5_0.op = 1) ∧ (w_SpillsRun_5_0.op = 3)) ∧
((Plain sFr0) ∧ (sFr0.cmd? 7 = some (cFa 1 2)) ∧ ((cFa 1 2).unit = EUnit.flash 1) ∧ ((cFa 1 2).phase = CmdPhase.active) ∧ ((cFa 1 2).op = 1) ∧ ((cFa
      1 2).open_.contains 1 = true) ∧ (sFr0.handleOk 1 ((cFa 1 2).fHandle + 1) = true) ∧ (InStacks ((cFa 1 2).fAddr + 1 * (cFa 1 2).fBytes) (cFa 1
      2).fBytes) ∧ (((cFa 1 2).fAddr + 1 * (cFa 1 2).fBytes) % 64 = 0) ∧ (Sparse.get none (sFr0.flash 1).map (((cFa 1 2).fHandle + 1) % 2 ^ 30) =
      none)) ∧
((Plain sFr1) ∧ (sFr1.cmd? 7 = some (cFa 1 2)) ∧ ((cFa 1 2).unit = EUnit.flash 1) ∧ ((cFa 1 2).phase = CmdPhase.active) ∧ ((cFa 1 2).op = 1) ∧ ((cFa
      1 2).open_.contains 1 = true) ∧ (sFr1.handleOk 1 ((cFa 1 2).fHandle + 1) = true) ∧ (InStacks ((cFa 1 2).fAddr + 1 * (cFa 1 2).fBytes) (cFa 1
      2).fBytes) ∧ (((cFa 1 2).fAddr + 1 * (cFa 1 2).fBytes) % 64 = 0) ∧ (Sparse.get none (sFr1.flash 1).map (((cFa 1 2).fHandle + 1) % 2 ^ 30) =
      some { tgt := 8, blk := 1, page := 2, hours := 50, img := 0, wseq := 0 : FPage }) ∧ (sFr1.tgtOk 1 { tgt := 8, blk := 1, page := 2, hours := 50, img := 0, wseq := 0 : FPage }.tgt
      = false)) ∧
((Plain sFr2) ∧ (sFr2.cmd? 7 = some (cFa 1 2)) ∧ ((cFa 1 2).unit = EUnit.flash 1) ∧ ((cFa 1 2).phase = CmdPhase.active) ∧ ((cFa 1 2).op = 1) ∧ ((cFa
      1 2).open_.contains 1 = true) ∧ (sFr2.handleOk 1 ((cFa 1 2).fHandle + 1) = true) ∧ (InStacks ((cFa 1 2).fAddr + 1 * (cFa 1 2).fBytes) (cFa 1
      2).fBytes) ∧ (((cFa 1 2).fAddr + 1 * (cFa 1 2).fBytes) % 64 = 0) ∧ (Sparse.get none (sFr2.flash 1).map (((cFa 1 2).fHandle + 1) % 2 ^ 30) =
      some { tgt := 2, blk := 1, page := 2, hours := 50, img := 0, wseq := 0 : FPage }) ∧ (sFr2.tgtOk 1 { tgt := 2, blk := 1, page := 2, hours := 50, img := 0, wseq := 0 : FPage }.tgt
      = true) ∧ (sFr2.viewNat (sFr2.fget (blkFM 1) F.FM.MAP_BASE.BASE * 4096 + 8 * (((cFa 1 2).fHandle + 1) % 2 ^ 30)) 8 = { tgt := 2, blk := 1, page := 2, hours := 50, img := 0, wseq := 0 : FPage }.img)
      ∧ (∀ r ∈ List.replicate 16 (FlashCw.hard 3), cwIsBad r = false)) ∧
((Plain sFw) ∧ (sFw.cmd? 7 = some (cFa 2 2)) ∧ ((cFa 2 2).unit = EUnit.flash 1) ∧ ((cFa 2 2).phase = CmdPhase.active) ∧ ((cFa 2 2).op = 2) ∧ ((cFa 2
      2).open_.contains 1 = true) ∧ (sFw.turnTgt 1 = some 9) ∧ (2 < (sFw.flash 1).freeBlks 9) ∧ ((sFw.flash 1).openBlk 9 = some 2) ∧ (InStacks ((cFa
      2 2).fAddr + 1 * 65536) 65536)) ∧
((Plain sFw) ∧ (sFw.cmd? 7 = some (cFa 2 2)) ∧ ((cFa 2 2).unit = EUnit.flash 1) ∧ ((cFa 2 2).phase = CmdPhase.active) ∧ ((cFa 2 2).op = 2) ∧ ((cFa 2
      2).open_.contains 1 = true) ∧ (sFw.turnTgt 1 = some 9) ∧ (2 < (sFw.flash 1).freeBlks 9) ∧ ((sFw.flash 1).openBlk 9 = some 2) ∧ (InStacks ((cFa
      2 2).fAddr + 1 * 65536) 65536)) := 
  by and_intros <;> decide +kernel
theorem hyps_FlashUpkeep :
((sG0.background 1 9 = true) ∧ ((sG0.flash 1).freeBlks 9 < sG0.fget (blkFM 1) F.FM.WEAR_CTL.GC_LOW) ∧ (leastBy (fun e => ((sG0.flash 1).valid 9
      e).length * 2 ^ 40 + ((sG0.flash 1).blk 9 e).erases) (List.filter (fun e => ((sG0.flash 1).blk 9 e).st == FbSt.full) (List.range (sG0.flash
      1).blocks)) = some 1) ∧ ((sG0.flash 1).valid 9 1 = [])) ∧
((sG1.background 1 9 = true) ∧ ((sG1.flash 1).freeBlks 9 < sG1.fget (blkFM 1) F.FM.WEAR_CTL.GC_LOW) ∧ (leastBy (fun e => ((sG1.flash 1).valid 9
      e).length * 2 ^ 40 + ((sG1.flash 1).blk 9 e).erases) (List.filter (fun e => ((sG1.flash 1).blk 9 e).st == FbSt.full) (List.range (sG1.flash
      1).blocks)) = some 1) ∧ ((sG1.flash 1).valid 9 1 = [3]) ∧ (sG1.turnTgt 1 = some 9) ∧ ((sG1.flash 1).openBlk 9 = some 2)) ∧
((sLv.background 1 9 = true) ∧ ([0, 1, 2, 3] = List.filter (fun e => ((sLv.flash 1).blk 9 e).st != FbSt.bad) (List.range (sLv.flash 1).blocks)) ∧
      (leastBy (fun e => ((sLv.flash 1).blk 9 e).erases) [0, 1, 2, 3] = some 1) ∧ (((sLv.flash 1).blk 9 1).st = FbSt.full) ∧ (((sLv.flash 1).blk 9
      1).erases + sLv.fget (blkFM 1) F.FM.WEAR_CTL.WEAR_SPREAD < List.foldl max 0 (List.map (fun e => ((sLv.flash 1).blk 9 e).erases) [0, 1, 2, 3]))
      ∧ ((sLv.flash 1).valid 9 1 = [])) ∧
    ((sEr0.alive = true) ∧ (((sEr0.flash 1).blk 9 1).st = FbSt.erasing)) ∧
    ((sEr0.alive = true) ∧ (((sEr0.flash 1).blk 9 1).st = FbSt.erasing)) ∧
((sSc0.alive = true) ∧ (sSc0.fmUp 1 = true) ∧ ((sSc0.flash 1).scrub.isSome = true ∨ (sSc0.flash 1).first = true ∨ (sSc0.flash 1).passAt ≤ sSc0.hours
      1) ∧ (List.find? (fun e => decide ((sSc0.flash 1).scrub.getD 0 ≤ e.1)) (sSc0.flash 1).map = none)) ∧
((sSc1.alive = true) ∧ (sSc1.fmUp 1 = true) ∧ ((sSc1.flash 1).scrub.isSome = true ∨ (sSc1.flash 1).first = true ∨ (sSc1.flash 1).passAt ≤ sSc1.hours
      1) ∧ (List.find? (fun e => decide ((sSc1.flash 1).scrub.getD 0 ≤ e.1)) (sSc1.flash 1).map = some (4, some { tgt := 2, blk := 1, page := 2, hours := 50, img := 0, wseq := 0 : FPage }))
      ∧ (sSc1.chanWanted 1 ({ tgt := 2, blk := 1, page := 2, hours := 50, img := 0, wseq := 0 : FPage }.tgt % 8) = false) ∧ (sSc1.tgtOk 1 { tgt := 2, blk := 1, page := 2, hours := 50, img := 0, wseq := 0 : FPage }.tgt
      = true) ∧ (∀ r ∈ List.replicate 16 (FlashCw.hard 40), cwIsBad r = false) ∧ (((List.take 16 (List.replicate 16 (FlashCw.hard 40))).any fun r =>
      cwIsRetry r || cwIsSoft r || decide (sSc1.fget (blkFM 1) F.FM.SCRUB_CTL.REFRESH_BITS < cwCorrected r)) = false) ∧ (decide ({ tgt := 2, blk := 1, page := 2, hours := 50, img := 0, wseq := 0 : FPage }.hours
      + sSc1.fget (blkFM 1) F.FM.SCRUB_CTL.RET_HOURS < sSc1.hours 1) = false)) ∧
((sSc1.alive = true) ∧ (sSc1.fmUp 1 = true) ∧ ((sSc1.flash 1).scrub.isSome = true ∨ (sSc1.flash 1).first = true ∨ (sSc1.flash 1).passAt ≤ sSc1.hours
      1) ∧ (List.find? (fun e => decide ((sSc1.flash 1).scrub.getD 0 ≤ e.1)) (sSc1.flash 1).map = some (4, some { tgt := 2, blk := 1, page := 2, hours := 50, img := 0, wseq := 0 : FPage }))
      ∧ (sSc1.chanWanted 1 ({ tgt := 2, blk := 1, page := 2, hours := 50, img := 0, wseq := 0 : FPage }.tgt % 8) = false) ∧ (sSc1.tgtOk 1 { tgt := 2, blk := 1, page := 2, hours := 50, img := 0, wseq := 0 : FPage }.tgt
      = true) ∧ (∀ r ∈ List.replicate 15 (FlashCw.hard 40) ++ [FlashCw.hard 41], cwIsBad r = false) ∧ (((List.take 16 (List.replicate 15
      (FlashCw.hard 40) ++ [FlashCw.hard 41])).any fun r => cwIsRetry r || cwIsSoft r || decide (sSc1.fget (blkFM 1) F.FM.SCRUB_CTL.REFRESH_BITS <
      cwCorrected r)) = true ∨ decide ({ tgt := 2, blk := 1, page := 2, hours := 50, img := 0, wseq := 0 : FPage }.hours + sSc1.fget (blkFM 1)
      F.FM.SCRUB_CTL.RET_HOURS < sSc1.hours 1) = true) ∧ (sSc1.turnTgt 1 = some 9) ∧ ((sSc1.flash 1).openBlk 9 = some 2)) ∧
    (sG1.tgtOk 1 9 = true) ∧
    ((sG1.alive = true) ∧ (2 ≤ sG1.fmState 1) ∧ (sG1.fmState 1 ≠ 5)) ∧
    ((sFm1.alive = true) ∧ (sFm1.fmState 1 = 1)) ∧
    ((sFm1z.alive = true) ∧ (sFm1z.fmState 1 = 1) ∧ (sFm1z.lpages 1 = 0) ∧ ((1 : BitVec 32) ≠ (0 : BitVec 32))) := 
  by and_intros <;> decide +kernel
theorem hyps_CellarCommands :
    ((flat.fwOrOwner Requester.firmware 2 = true) ∧ (flat.bankRefuses 2 55 (BitVec.toNat (bw 5 0 1 3)) = true)) ∧
    ((flat.fwOrOwner Requester.firmware 2 = true) ∧ (flat.bankRefuses 2 55 (BitVec.toNat (bw 4 3 1 0)) = false)) ∧
((sTr.alive = true) ∧ (sTr.bankTr 2 55 = some { kind := 4, id := 3, mode := 3, power := 0, zero := true : BankTr }) ∧ ({ kind := 4, id := 3, mode := 3, power := 0, zero := true : BankTr }.kind
      < 8) ∧ ({ kind := 4, id := 3, mode := 3, power := 0, zero := true : BankTr }.id < 16) ∧ ({ kind := 4, id := 3, mode := 3, power := 0, zero := true : BankTr }.mode
      < 4) ∧ ({ kind := 4, id := 3, mode := 3, power := 0, zero := true : BankTr }.power < 4)) ∧
    ((State.reset.cacheOn 2 = true) ∧ (State.reset.fbit (blkCELLAR 2) F.CELLAR.CACHE_STATUS.DISABLING = false)) ∧
(sCd.fbit (blkCELLAR 2) F.CELLAR.CACHE_STATUS.DISABLING = true ∨ sCd.cacheOn 2 = false ∧ (sCd.cacheBanks 2 = [] ∨ ∃ i ∈ sCd.cacheBanks 2, (fun s i f
      => s.bankOwn 2 i f) sCd i F.CELLAR.BANK_STATUS.INV = 0)) ∧
((flat.cacheOn 2 = false) ∧ (flat.fbit (blkCELLAR 2) F.CELLAR.CACHE_STATUS.DISABLING = false) ∧ (flat.cacheBanks 2 ≠ []) ∧ (∀ i ∈ flat.cacheBanks 2,
      (fun s i f => s.bankOwn 2 i f) flat i F.CELLAR.BANK_STATUS.INV ≠ 0)) ∧
    ((State.reset.cacheOn 2 = true) ∧ (State.reset.fbit (blkCELLAR 2) F.CELLAR.CACHE_STATUS.DISABLING = false)) ∧
((sCdL.alive = true) ∧ (sCdL.fbit (blkCELLAR 2) F.CELLAR.CACHE_STATUS.DISABLING = true) ∧ (sCdL.fbit (blkCELLAR 2) F.CELLAR.RANGE_STATUS.BUSY =
      false)) ∧
((sWb.alive = true) ∧ (List.find? (fun x => x.q == 2 && x.line == ln0) sWb.wbacks = some (wb0 false)) ∧ ((List.any sWb.pcs fun e => e.2.queue.any
      fun r => r.for_ == PcFor.wb 2 ln0) = false)) ∧
(¬(State.reset.fbit (blkCELLAR 2) F.CELLAR.RANGE_STATUS.BUSY = false ∧ (false = true ∨ 256 * State.reset.fget (blkCELLAR 2) F.CELLAR.RANGE_LEN.LEN ≠
      0 ∧ 2 * 618475290624 ≤ 256 * State.reset.fget (blkCELLAR 2) F.CELLAR.RANGE_START.ADDR ∧ 256 * State.reset.fget (blkCELLAR 2)
      F.CELLAR.RANGE_START.ADDR + 256 * State.reset.fget (blkCELLAR 2) F.CELLAR.RANGE_LEN.LEN ≤ (2 + 1) * 618475290624))) ∧
((sRg0.fbit (blkCELLAR 2) F.CELLAR.RANGE_STATUS.BUSY = false ∧ (false = true ∨ 256 * sRg0.fget (blkCELLAR 2) F.CELLAR.RANGE_LEN.LEN ≠ 0 ∧ 2 *
      618475290624 ≤ 256 * sRg0.fget (blkCELLAR 2) F.CELLAR.RANGE_START.ADDR ∧ 256 * sRg0.fget (blkCELLAR 2) F.CELLAR.RANGE_START.ADDR + 256 *
      sRg0.fget (blkCELLAR 2) F.CELLAR.RANGE_LEN.LEN ≤ (2 + 1) * 618475290624)) ∧ (sRg0.cmem.upset = []) ∧ (sRg0.linesOf 2 = [(wayK, cl true)]) ∧
      (false = true ∨ 256 * sRg0.fget (blkCELLAR 2) F.CELLAR.RANGE_START.ADDR ≤ 256 * ((wayK, cl true).2.line - 1) ∧ 256 * ((wayK, cl true).2.line -
      1) < 256 * sRg0.fget (blkCELLAR 2) F.CELLAR.RANGE_START.ADDR + 256 * sRg0.fget (blkCELLAR 2) F.CELLAR.RANGE_LEN.LEN)) ∧
    ((sRbu.alive = true) ∧ (sRbu.fbit (blkCELLAR 2) F.CELLAR.RANGE_STATUS.BUSY = true) ∧ ((sRbu.wbacks.any fun x => x.q == 2 && x.range) = false)) ∧
    ((55 < 58) ∧ ((State.reset.march 2).isSome = true ∨ State.reset.marchable 2 55 = false)) ∧
    ((55 < 58) ∧ (sMt.march 2 = none) ∧ (sMt.marchable 2 55 = true)) ∧
((sMd1.alive = true) ∧ (sMd1.march 2 = some { bank := 55, preserve := false : March }) ∧ ({ bank := 55, preserve := false : March }.bank < 58)) := 
  by and_intros <;> decide +kernel
theorem hyps_StackControllers :
    ((sQa.chOpen 13 15 = true) ∧ ((sQa.pcSt 13 15 1).queue ≠ [])) ∧
((sF1.chOpen 13 15 = true) ∧ (sF1.qState (13 / 6) ≠ 5) ∧ ((sF1.pcSt 13 15 1).flight = [kR 1 264 false 3, kR 9 0 false 3]) ∧ ((kR 1 264 false 3).for_
      = PcFor.req 1) ∧ ((kR 1 264 false 3).found = []) ∧ (sF1.req? 1 = some (hq ReqOp.ld 264 8 4))) ∧
    ((sF2.chOpen 13 15 = true) ∧ (sF2.qState (13 / 6) ≠ 5) ∧ ((sF2.pcSt 13 15 1).flight = [rFi, kR 9 0 false 3]) ∧ (rFi.for_ = PcFor.fill 1 ln0)) ∧
    (sRef.alive = true) ∧
((sLn1.alive = true) ∧ (sLn1.fget (blkSTACK 13) F.STACK.STACK_CTL.LANE_LIMIT < Sparse.get 0 (sLn1.stackSt 13).laneN (128 * 15 + 64 * 1 + 35)) ∧
      (sLn1.fget (blkSTACK 13) F.STACK.CH_STATUS.FAILING (chIx 15) ≠ 128 + 64 * 1 + 35)) ∧
    (sCa0.alive = true) ∧
    ((sF1.alive = true) ∧ (15 ∉ (sF1.stackSt 13).retrain)) ∧
    ((sRt.alive = true) ∧ ((fun s => s.fbit (blkSTACK 13) F.STACK.CH_STATUS.FAILED (chIx 15)) sRt = false)) ∧
    ((sRt.alive = true) ∧ ((fun s => s.fbit (blkSTACK 13) F.STACK.CH_STATUS.FAILED (chIx 15)) sRt = false)) ∧
    ((sTgB.alive = true) ∧ (sTgB.fbit (blkSTACK 13) F.STACK.TG_STATUS.BUSY (chIx 15) = true)) ∧
    ((sLw.alive = true) ∧ ((sLw.stackSt 13).win ≠ sLw.now / 1024)) ∧
((sSc.fbit (blkSTACK 13) F.STACK.STACK_CTL.SCRUB_ENABLE = true) ∧ (sSc.qUp (13 / 6) = true) ∧ ((fun s => s.fget (blkSTACK 13)
      F.STACK.STACK_STATUS.STATE) sSc = 1) ∧ (sSc.chOpen 13 ((sSc.stackSt 13).scrub % 16) = true) ∧ ((sSc.pcSt 13 ((sSc.stackSt 13).scrub % 16)
      ((sSc.stackSt 13).scrub / 16 % 2)).queue = [])) ∧
(State.reset.owned (13 / 6) = true ∨ State.reset.cacheOn (13 / 6) = true ∨ (fun s => s.fget (blkSTACK 13) F.STACK.STACK_STATUS.STATE) State.reset =
      4) ∧
    (¬(flat.owned (13 / 6) = true ∨ flat.cacheOn (13 / 6) = true ∨ (fun s => s.fget (blkSTACK 13) F.STACK.STACK_STATUS.STATE) flat = 4)) := 
  by and_intros <;> decide +kernel
theorem hyps_ErrorsAndSensors :
((sErq2.loggerUp = true) ∧ (Sparse.get [] sErq2.err.queues (blkCELLAR 2) = [er 2 48 (blkCELLAR 2), er 1 1 2]) ∧ ((fun s => s.fget blkSILPAOT
      F.SILPAOT.LOG_HEAD.SEQ) sErq2 < 2 ^ 32)) ∧
    (sHot.pow.boot ≠ Boot.held) ∧
    (sHot.pow.boot ≠ Boot.held) := 
  by and_intros <;> decide +kernel
theorem hyps_ColdStart :
    ((sBusyAll.pow.boot ≠ Boot.held) ∧ (13 ≠ 12)) ∧
    (sBusyAll.pow.boot ≠ Boot.held) ∧
    (sBusyAll.pow.boot ≠ Boot.held) ∧
    (sBusyAll.pow.boot ≠ Boot.held) ∧
    (sBusyAll.pow.boot = Boot.running ∨ sBusyAll.pow.boot = Boot.warm) ∧
    (sHeld1.pow.boot = Boot.held) ∧
    (sRel1.pow.boot = Boot.released) ∧
    (sLed1.pow.boot = Boot.ledger) ∧
    (sFw1.pow.boot = Boot.firmware) ∧
    (sTrn2.pow.boot = Boot.training) ∧
    (sQrt1.pow.boot = Boot.quarters ∨ sQrt1.pow.boot = Boot.warm) ∧
    (sPrf1.pow.boot = Boot.profile) := 
  by and_intros <;> decide +kernel
theorem hyps_ResetsRun :
    ((sWork.pow.boot = Boot.running) ∧ (sWork.clk.mgmtOnly = false)) ∧
((sWdog1.pow.mgmtReset = false) ∧ (sWdog1.pow.boot = Boot.running) ∧ ((sWdog1.cmds.map (fun x => x.id)).Nodup) ∧ (sWdog1.fget blkHCTL
      F.HCTL.MGMT_WD.LIMIT ≠ 0) ∧ (sWdog1.fget blkHCTL F.HCTL.MGMT_WD.LIMIT * 1048576 * 5 ≤ sWdog1.pow.wdN * 4)) ∧
    ((sStb.fwOrOwner Requester.firmware 2 = true) ∧ (2 ≤ sStb.qState 2)) ∧
    ((sWork.fwOrOwner Requester.firmware 2 = true) ∧ (sWork.qState 2 < 2) ∧ (sWork.pow.boot = Boot.running)) ∧
    ((sStb.fwOrOwner Requester.firmware 2 = true) ∧ ((32768 : BitVec 16) ≠ (0 : BitVec 16)) ∧ (2 ≤ sStb.qState 2)) ∧
((sWork.fwOrOwner Requester.firmware 2 = true) ∧ ((32769 : BitVec 16) ≠ (0 : BitVec 16)) ∧ (sWork.qState 2 < 2) ∧ (sWork.pow.boot = Boot.running) ∧
      (sWork.pow.qreset.getLsbD 2 = false)) ∧
    ((sQr.alive = true) ∧ (sQr.pow.qreset.getLsbD 2 = true) ∧ (∀ x ∈ sQr.jobs, sQr.jobIn 2 x = false)) ∧
((sCr.alive = true) ∧ (sCr.qUp 2 = true) ∧ (∃ cl < 64, (fun cl => cl / 16 == 2 && sCr.pow.creset.getLsbD cl) cl = true) ∧ (∀ cl < 64, (fun cl => cl
      / 16 == 2 && sCr.pow.creset.getLsbD cl) cl = true → sCr.clusterClear cl = true)) := 
  by and_intros <;> decide +kernel
theorem hyps_PowerStates :
    ((sPwA.now % 14000 = 0) ∧ (sPwA.thrAt ≠ sPwA.now + 1) ∧ (sPwA.pow.boot ≠ Boot.held) ∧ (sPwA.clk.mgmtOnly = false)) ∧
    (sPwA.pow.alertN = true) ∧
((sIdl.alive = true) ∧ (sIdl.qUp (47 / 16) = true) ∧ (sIdl.fbit (blkQCTL (47 / 16)) F.QCTL.Q_CTL.CL_OFF_EN = true) ∧ (sIdl.fget (blkQCTL (47 / 16))
      F.QCTL.IDLE_LIMIT.LIMIT ≠ 0) ∧ (sIdl.clusterOff 47 = false) ∧ (sIdl.clusterIdle 47 = true) ∧ (Sparse.get 0 sIdl.pow.idleAt 47 ≠ 0) ∧
      (Sparse.get 0 sIdl.pow.idleAt 47 + sIdl.fget (blkQCTL (47 / 16)) F.QCTL.IDLE_LIMIT.LIMIT * 65536 ≤ sIdl.clk.arith + 1) ∧
      (sIdl.pow.creset.getLsbD 47 = false)) ∧
    ((sOff.alive = true) ∧ (sOff.qUp (47 / 16) = true) ∧ (sOff.clusterOff 47 = true) ∧ ((sOff.wantsCluster 47 || sOff.reachesCluster 47) = true)) ∧
((isHostOrFw (Requester.port (1 : Fin 2)) = true) ∧ (¬(sOwn2.owned 2 = false ∧ sOwn2.qUp 2 = true ∧ sOwn2.quarterEmpty 2 = true ∧
      sOwn2.pow.qreset.getLsbD 2 = false))) ∧
((isHostOrFw (Requester.port (1 : Fin 2)) = true) ∧ (flat.owned 2 = false ∧ flat.qUp 2 = true ∧ flat.quarterEmpty 2 = true ∧ flat.pow.qreset.getLsbD
      2 = false)) ∧
    ((isHostOrFw (Requester.port (0 : Fin 2)) = true) ∧ (sStb.qState 2 = 2 ∨ sStb.qState 2 = 3)) ∧
    ((sStb.alive = true) ∧ (sStb.qState 2 = 2) ∧ (sStb.cacheOn 2 = false)) ∧
    ((sStx.alive = true) ∧ (sStx.qState 2 = 4)) ∧
    (∀ r < 64, (sUp.ring 1 r).held = []) := 
  by and_intros <;> decide +kernel
theorem hyps_SignedRequests :
    (sRqB.fbit blkSILPAOT F.SILPAOT.REQ_STATUS.BUSY (16 * 1) = true) ∧
    (flat.fbit blkSILPAOT F.SILPAOT.REQ_STATUS.BUSY (16 * 1) = false) ∧
((Plain sTq2) ∧ (sTq2.pow.mgmtReset = false) ∧ (sTq2.trust.reqs = tq :: rst2) ∧ (tq.port < 2) ∧ (tq.addr % 64 = 0) ∧ (InStacks tq.addr 192) ∧ ({ v := sTq2.viewNat tq.addr 192 : SReq }.kind
      = (2, Instr.raiseFloor true).1)) := 
  by and_intros <;> decide +kernel
theorem hyps_Attestation :
    ((sAtM.pow.boot = Boot.running) ∧ ((sAtM.port 1).link = true) ∧ (sAtM.pow.mgmtReset = true)) ∧
    ((sAt0.pow.boot = Boot.running) ∧ ((sAt0.port 1).link = true) ∧ (sAt0.pow.mgmtReset = false)) ∧
    ((sAt0.pow.boot = Boot.running) ∧ ((sAt0.port 1).link = true) ∧ (sAt0.pow.mgmtReset = false) ∧ ((sAt0.spdm 1).stage < 1)) ∧
    ((sAt1.pow.boot = Boot.running) ∧ ((sAt1.port 1).link = true) ∧ (sAt1.pow.mgmtReset = false) ∧ (1 ≤ (sAt1.spdm 1).stage)) ∧
    ((sAt1.pow.boot = Boot.running) ∧ ((sAt1.port 1).link = true) ∧ (sAt1.pow.mgmtReset = false) ∧ ((sAt1.spdm 1).stage < 2)) ∧
    ((sAt2.pow.boot = Boot.running) ∧ ((sAt2.port 1).link = true) ∧ (sAt2.pow.mgmtReset = false) ∧ (2 ≤ (sAt2.spdm 1).stage)) ∧
    ((sAt3.pow.boot = Boot.running) ∧ ((sAt3.port 1).link = true) ∧ (sAt3.pow.mgmtReset = false) ∧ (2 ≤ (sAt3.spdm 1).stage)) ∧
    ((sAt2.pow.boot = Boot.running) ∧ ((sAt2.port 1).link = true) ∧ (sAt2.pow.mgmtReset = false) ∧ ((sAt2.spdm 1).stage < 3)) ∧
    ((sAt3.pow.boot = Boot.running) ∧ ((sAt3.port 1).link = true) ∧ (sAt3.pow.mgmtReset = false) ∧ (3 ≤ (sAt3.spdm 1).stage)) ∧
    ((sAt3.pow.boot = Boot.running) ∧ ((sAt3.port 1).link = true) ∧ (sAt3.pow.mgmtReset = false) ∧ (3 ≤ (sAt3.spdm 1).stage)) ∧
    ((sAt3.pow.boot = Boot.running) ∧ ((sAt3.port 1).link = true) ∧ (sAt3.pow.mgmtReset = false) ∧ (3 ≤ (sAt3.spdm 1).stage)) ∧
((sAt3.pow.boot = Boot.running) ∧ ((sAt3.port 1).link = true) ∧ (sAt3.pow.mgmtReset = false) ∧ (3 ≤ (sAt3.spdm 1).stage) ∧ ((254 : BitVec 8) = (0 :
      BitVec 8) ∨ 6 < BitVec.toNat (254 : BitVec 8) ∧ (254 : BitVec 8) ≠ (255 : BitVec 8))) ∧
((sAt3.pow.boot = Boot.running) ∧ ((sAt3.port 1).link = true) ∧ (sAt3.pow.mgmtReset = false) ∧ (3 ≤ (sAt3.spdm 1).stage) ∧ 1 ≤ (6#8).toNat ∧
      (6#8).toNat ≤ 6) ∧
((sAtE.pow.boot = Boot.running) ∧ ((sAtE.port 1).link = true) ∧ (sAtE.pow.mgmtReset = false) ∧ (3 ≤ (sAtE.spdm 1).stage) ∧ (true = true) ∧
      (sAtE.trust.erased = true)) := 
  by and_intros <;> decide +kernel
theorem hyps_StepRunsFront :
    (sPend.pending = [Instr.flitHop 3 0 [], Instr.flitHop 4 0 []]) ∧
    ((sHeld1.pending = []) ∧ (sHeld1.pow.boot = Boot.held)) ∧
((flat.pending = []) ∧ (flat.pow.boot ≠ Boot.held) ∧ (flat.clk.mgmtOnly = false) ∧ (flat.gtc.adj = 0) ∧ ((flat.port 0).inq = []) ∧ ((flat.port
      1).inq = [])) := 
  by and_intros <;> decide +kernel
theorem hyps_ResetState :
    ((4095 % 256 ≠ blkSYNC 0) ∧ (4095 < 4096)) ∧
    (3 < 4) := 
  by and_intros <;> decide +kernel

/-! ### Ill-formed commands: one for each check that WellFormed makes -/

theorem test_illFormed_accesses :
    (Instr.registerWrite .firmware 0 3 0).wf = false ∧ (Instr.registerWrite .firmware 0 1 256).wf = false ∧
    (Instr.cancel 0 2 0).wf = false ∧ (Instr.cancel 0 4 0x100000000).wf = false ∧ (Instr.bar4ApertureAccess 0 false (.bar4 0) 513 0).wf = false ∧
    (Instr.bar4ApertureAccess 0 true (.bar4 0) 1 256).wf = false ∧ (Instr.submissionBlockReturn 0 0 [] false).wf = false ∧
    (Instr.hostReadCompletion 0 (2 ^ 4096) false).wf = false ∧ (Instr.run ⟨2, 0, 0⟩).wf = false ∧ (Instr.run ⟨0, 64, 0⟩).wf = false := by
  decide +kernel
theorem test_illFormed_codewords :
    (Instr.flitHop 0 (2 ^ 36) []).wf = false ∧ (Instr.flitHop 0 0 [0, 0, 0, 0, 0]).wf = false ∧ (Instr.flitHop 0 0 [2 ^ 36]).wf = false ∧
    (Instr.arrayQueueHead 0 0 (2 ^ 36) false).wf = false ∧ (Instr.illegalInstr t0 0x0480A000).wf = false ∧
    (Instr.writebackAck 0 (2 ^ 42)).wf = false ∧ (Instr.retrainDone 0 0 false (List.replicate 75 (0, 0))).wf = false := by decide +kernel
theorem test_illFormed_messages :
    (Instr.ringHello 0 0 0 0 0 10).wf = false ∧ MsgInfo.ok (.seg (2 ^ 32) 0 0 0 0) = false ∧ MsgInfo.ok (.kvReq false (2 ^ 40) 0 0) = false ∧
    (Instr.frameReceived 0 { wf 0 with credits := [0, 0] } 0).wf = false ∧ (Instr.frameReceived 0 { wf 0 with fseq := 65536 } 0).wf = false ∧
    (Instr.frameReceived 0 { fIn true 0 with blks := [(3, ⟨true, 0, 0, .none⟩)] } 0).wf = false ∧
    MsgInfo.ok (.coll { hdC 1 0 with seq := 2 ^ 32 }) = false ∧ MsgInfo.ok (.coAbort 0 (2 ^ 16) 0 0) = false ∧
    WireBlk.ok ⟨false, 0, 0, .coll (hdC 1 0)⟩ = false ∧ WireFrame.ok { fIn true 0 with errs := [1792] } = false ∧
    (Instr.sqTail 0 0 ⟨true, 0, 0, 0⟩).wf = false ∧ (Instr.cqHead 0 0 ⟨true, 0, 4, 2 ^ 32⟩).wf = false ∧ (Instr.kvAck 0 4).wf = false ∧
    (Instr.collReady 0 65536 0 0 0).wf = false ∧ (Instr.kvData 0 true (2 ^ 40) 0).wf = false ∧ (Instr.ringSeg 0 (2 ^ 32) 0 0 0 0).wf = false := by
  decide +kernel
theorem test_illFormed_flash :
    (Instr.flashPageReadDone 0 0 0 []).wf = false ∧ (Instr.format 0 .firmware [3, 3]).wf = false ∧ (Instr.flashMapRebuilt 0 1 3 0 0).wf = false ∧
    (Instr.stacksTrained [.channel 1 2, .channel 1 2] []).wf = false := by decide +kernel

/-! ### Values the spec gives -/

/-- What a step leaves. -/
def nxt (o : Host.Outcome State Fault Refusal) : State :=
  match o with
  | .next s => s
  | _ => State.reset

/-- The check value of R425. -/
theorem test_crc32c_check : crc32c ((List.range 9).map (fun i => BitVec.ofNat 8 (0x31 + i))) = 0xE3069283 := by decide +kernel
/-- The worked example of "Stack interleaving" (R26). -/
theorem test_stackLoc_example : stackLoc 0x0120060C5140 = ⟨13, 2, 0, 0x81140⟩ ∧ stackAddrOf 13 2 0 0x81140 = 0x0120060C5140 := by decide +kernel
/-- Its row in the bank, from the worked example of chapter 13 (R299): bank group 0, bank 1, SID 0, row 8. -/
theorem test_bankRow_example : (bankRow 0x0120060C5140).2 = 8 := by decide +kernel
/-- The worked example of R117: −3.0 at index 2 and 3.0 at index 4 are kept, three values dropped; with K = 1 index 2 wins, four dropped. -/
theorem test_keepK_example :
    keepK 1 2 [0, 0x3F40, 0xC040, 0x8000, 0x4040, 0x3F00, 0, 0xBE00] = ([(2, 0xC040), (4, 0x4040)], 3) ∧
    keepK 1 1 [0, 0x3F40, 0xC040, 0x8000, 0x4040, 0x3F00, 0, 0xBE00] = ([(2, 0xC040)], 4) := by decide +kernel
/-- Lengths of the worked example of chapter 5. -/
theorem test_tile_lengths : csrMeta 900 = 1952 ∧ k8Len 1 2 = 155712 ∧ denseLen 1 = 524288 := by decide +kernel
/-- R42 by the ports that have trained. -/
theorem test_partition :
    sUp.partition none = (0, 15) ∧ ({ sUp with ports := [(0, pUp), (1, pUp)] }).partition none = (3, 12) := by decide +kernel
/-- A step of a thread whose registers are `alu`. -/
def ran (i : Instr) : State := nxt (exec i (cpu alu i))
/-- R64: wrap, high halves, a shift by the low 6 bits. -/
theorem test_scalar_values :
    ((ran (.add t0 15 5 1 2)).thread 0).getX 5 = 0xFFFFFFFFFFFFFFF7 ∧
    ((ran (.mulhs t0 15 5 1 2)).thread 0).getX 5 = 0xFFFFFFFFFFFFFFFF ∧
    ((ran (.mulhu t0 15 5 1 2)).thread 0).getX 5 = 6 ∧
    ((ran (.shl t0 15 5 1 3)).thread 0).getX 5 = 0x70 ∧
    ((ran (.sra t0 15 5 2 3)).thread 0).getX 5 = 0xFFFFFFFFFFFFFFFF ∧
    ((ran (.add t0 15 0 1 2)).thread 0).getX 0 = 0 := by decide +kernel
/-- FP32 arithmetic: 1.0 + 2⁻²⁴ is a tie to even, 3.0 · 0.5 + 1.0 = 2.5; the largest finite number doubled is infinite. -/
theorem test_fp32_values :
    add32 .rne 0x3F800000 0x33800000 = 0x3F800000 ∧ fma32 .rne 0x40400000 0x3F000000 0x3F800000 = 0x40200000 ∧
    add32 .rne 0x7F7FFFFF 0x7F7FFFFF = 0x7F800000 := by decide +kernel
/-- The clock of R23 and an empty queue: the step is one ARITH cycle (log entry 23). -/
theorem test_step_idle : (nxt (step flat)).clk.arith = 1 := by decide +kernel
/-- A step runs the command in front of the queue (an edge of the signal PWR_ALERT_N, R397). -/
theorem test_step_front :
    (nxt (step { flat with pending := [.pwrAlertNLow, .pwrAlertNHigh] })).pow.alertN = false ∧
    (nxt (step { flat with pending := [.pwrAlertNLow, .pwrAlertNHigh] })).pending = [.pwrAlertNHigh] := by decide +kernel
/-- Reset meets the invariants. -/
theorem test_reset_memories : State.reset.memsOk = true := by decide +kernel
theorem test_reset_ledger : LedgerOk State.reset := fun _ _ _ _ => Nat.zero_le _
/-- The hypotheses of the invariants' statements are met: the state after reset, whose step is a next state. -/
theorem hyps_invariants : State.reset.memsOk = true ∧ LedgerOk State.reset ∧ ∃ s', step State.reset = .next s' := by
  refine ⟨test_reset_memories, test_reset_ledger, ?_⟩
  have h : (step State.reset matches .next _) = true := by decide +kernel
  revert h
  cases step State.reset <;> simp

end Sys2Proof.Tests
end

/-! Starting a task (R48, R52, R155): the registers that the start leaves, the effect on the state, and O6. -/

namespace Sys2Proof.Machine

/-- A write of a register leaves the fields that say how the thread stands. -/
@[simp] theorem Thread.setXn_fields (th : Thread) (r v : Nat) :
    (th.setXn r v).st = th.st ∧ (th.setXn r v).pc = th.pc ∧ (th.setXn r v).p = th.p := by
  unfold Thread.setXn
  rw [Thread.setX_frame]
  exact ⟨rfl, rfl, rfl⟩

theorem Thread.getX_setXn (th : Thread) (r v : Nat) (x : BitVec 5) :
    (th.setXn r v).getX x = if x = BitVec.ofNat 5 r ∧ BitVec.ofNat 5 r ≠ 0 then BitVec.ofNat 64 v else th.getX x :=
  Thread.getX_setX th _ x _

/-- Registers hold nothing from an earlier task (R48): a thread's first state reads zero in each. -/
@[simp] theorem Thread.getX_init (x : BitVec 5) : Thread.init.getX x = 0 := by
  by_cases hx : x = 0
  · rw [hx, Thread.getX_zero]
  · rw [Thread.getX_ne _ _ hx]
    simp [Thread.init]

/-- A thread whose predicates are those of `Thread.init` reads P0 alone as 1. -/
theorem Thread.getP_of_p_init (th : Thread) (h : th.p = Thread.init.p) (p : BitVec 3) : th.getP p = decide (p = 0) := by
  by_cases hp : p = 0
  · rw [hp, Thread.getP_zero, decide_eq_true rfl]
  · rw [Thread.getP_ne _ _ hp, decide_eq_false hp]
    simp [h, Thread.init]

/-- R48, the scalar registers: X1, X2 and X3 take their values, every other reads zero. -/
theorem State.getX_startThread (s : State) (e : Entry) (x : BitVec 5) :
    (s.startThread e).getX x =
      if x = 3 then BitVec.ofNat 64 e.trec.argw
      else if x = 2 then BitVec.ofNat 64 ((s.job? e.job).elim 0 Job.arg)
      else if x = 1 then BitVec.ofNat 64 e.addr
      else 0 := by
  have hregs : (s.startThread e).getX x =
      (((Thread.init.setXn 1 e.addr).setXn 2 ((s.job? e.job).elim 0 Job.arg)).setXn 3 e.trec.argw).getX x := by
    unfold State.startThread
    cases s.job? e.job <;> rfl
  rw [hregs]
  simp [Thread.getX_setXn]

/-- R48, the rest: the thread is READY at the task's entry address, its predicates P1 to P7 clear, for the task's job. -/
theorem State.startThread_fields (s : State) (e : Entry) :
    (s.startThread e).st = .ready ∧ (s.startThread e).pc = BitVec.ofNat 64 e.trec.entry ∧
    (s.startThread e).job = e.job ∧ ∀ p, (s.startThread e).getP p = decide (p = 0) := by
  refine ⟨?_, ?_, rfl, Thread.getP_of_p_init _ ?_⟩ <;> simp [State.startThread]

/-- Freeing an entry is seen in that entry alone. -/
@[simp] theorem State.freeEntry_reads (s : State) (ek : Nat) :
    (∀ j, (s.freeEntry ek).thread j = s.thread j) ∧ (∀ j, (s.freeEntry ek).core j = s.core j) ∧
    (∀ j, (s.freeEntry ek).entry j = if j = ek then (s.entry ek).freed else s.entry j) ∧
    (s.freeEntry ek).mem = s.mem := by
  simp [State.freeEntry]

/-- All that the start of a task does: the thread set, NEXT moved into RUN, the entry freed, two counters raised (R170). -/
theorem State.startTask_eq (s : State) (core ek k : Nat) :
    ∃ (c : Core) (b : Nat) (f : Fld) (i : Nat), c.run = (s.core core).next ∧ c.next = none ∧
      s.startTask core ek k =
        ((((s.setThread k (s.startThread (s.entry ek))).setCore core c).freeEntry ek).bump b F.TSCHED.TASKS_STARTED.COUNT).bump b f i := by
  unfold State.startTask
  by_cases hcls : (s.entry ek).trec.cls = 0
  · exact ⟨_, _, _, _, rfl, rfl, if_pos hcls⟩
  · exact ⟨_, _, _, _, rfl, rfl, if_neg hcls⟩

/-- The start of a task as it is read afterwards: the thread, the entry, the core's two slots, and memory as it was. -/
theorem State.startTask_reads (s : State) (core ek k : Nat) :
    (∀ j, (s.startTask core ek k).thread j = if j = k then s.startThread (s.entry ek) else s.thread j) ∧
    (∀ j, (s.startTask core ek k).entry j = if j = ek then (s.entry ek).freed else s.entry j) ∧
    ((s.startTask core ek k).core core).run = (s.core core).next ∧ ((s.startTask core ek k).core core).next = none ∧
    (s.startTask core ek k).mem = s.mem := by
  obtain ⟨c, b, f, i, hrun, hnext, heq⟩ := State.startTask_eq s core ek k
  simp [heq, hrun, hnext]

/-- A device in service with a task in RUN and a FREE thread starts that task on that thread. -/
theorem execTaskStart_starts (core : Fin 4096) (e i : Nat) (s : State) (ha : s.alive = true)
    (hr : (s.core core.val).run = some e) (hf : s.freeThread core.val = some i) :
    exec (.taskStart core) s = .next (s.startTask core.val e (core.val * 64 + i)) := by
  change execTaskStart core s = _
  unfold execTaskStart
  rw [hr, hf]
  simp [ha]

/-- Settles O6: the start is `State.startTask`, whose thread is `State.startThread`; each clause is read off the two. -/
theorem taskStarts : Obligations.TaskStarts := by
  unfold Obligations.TaskStarts
  intro core e i s ha hr hf k r
  obtain ⟨hthread, hentry, hrun, hnext, hmem⟩ := State.startTask_reads s core.val e k
  obtain ⟨hst, hpc, hjob, hpred⟩ := State.startThread_fields s (s.entry e)
  have hk : (s.startTask core.val e k).thread k = s.startThread (s.entry e) := by rw [hthread, if_pos rfl]
  refine ⟨s.startTask core.val e k, execTaskStart_starts core e i s ha hr hf, ?_⟩
  simp only [hk, State.getX_startThread]
  refine ⟨hst, hpc, rfl, fun j hj => ?_, rfl, fun x h1 h2 h3 => ?_, hpred, hjob, ?_, hrun, hnext, fun j hj => ?_, hmem⟩
  · simp [hj]
  · rw [if_neg h3, if_neg h2, if_neg h1]
  · simp [hentry]
  · simp [hthread, hj]

end Sys2Proof.Machine

/-! The sync tables (R179-R189): what the three instructions send, what an operation does at its object, and O17. -/

namespace Sys2Proof.Machine

/-! ### Messages: what sending one changes -/

theorem State.send_eq (s : State) (id : Nat) (cls : Cls) (src : Iface) (dst : Node) :
    ∃ F, s.send id cls src dst = { s with fabric := F } := by
  unfold State.send
  split
  · exact ⟨s.fabric, rfl⟩
  · exact ⟨_, rfl⟩

/-- An operation on its way is one message more, numbered by the fabric. -/
theorem State.sendSync_eq (s : State) (who : SyncWho) (obj : Nat) (op : SyncOp) :
    ∃ F, s.sendSync who obj op =
      { s with fabric := F, syncMsgs := s.syncMsgs ++ [⟨s.fabric.nextId, who, obj, op, none⟩] } := by
  obtain ⟨F, hF⟩ := s.takeSeq.2.send_eq s.fabric.nextId .sync (s.whoIface who) (.quarter (obj / 65536))
  refine ⟨F, ?_⟩
  unfold State.sendSync State.sendMsg
  simp only [State.takeSeq] at hF ⊢
  rw [hF]

/-- A wake is one message more to the waiter. -/
theorem State.wake_eq (s : State) (k : Nat) (w : SyncWho) (status cause : Nat) :
    ∃ F, s.wake k w status cause =
      { s with fabric := F, wakes := s.wakes ++ [⟨s.fabric.nextId, w, status, cause, false⟩] } := by
  obtain ⟨F, hF⟩ := s.takeSeq.2.send_eq s.fabric.nextId .sync (blockIface (blkSYNC (objQ k))) (s.whoIface w).node
  refine ⟨F, ?_⟩
  unfold State.wake State.sendWake State.sendMsg
  simp only [State.takeSeq] at hF ⊢
  rw [hF]

/-- A wake without its flit's number. -/
def Wake.brief (w : Wake) : SyncWho × Nat × Nat × Bool := (w.who, w.status, w.cause, w.sig)
/-- What is on its way to waiters, in the order of sending. -/
def State.sent (s : State) : List (SyncWho × Nat × Nat × Bool) := s.wakes.map Wake.brief

/-- Waking a list of waiters sends to each in turn and changes nothing else. -/
theorem State.wakeAll_eq (s : State) (k : Nat) (l : List Waiter) (status cause : Nat) :
    ∃ F W, s.wakeAll k l status cause = { s with fabric := F, wakes := W } ∧
      W.map Wake.brief = s.sent ++ l.map (fun w => (w.who, status, cause, false)) := by
  induction l generalizing s with
  | nil => exact ⟨s.fabric, s.wakes, rfl, by simp [State.sent]⟩
  | cons w l ih =>
    obtain ⟨F, hF⟩ := s.wake_eq k w.who status cause
    obtain ⟨F', W', heq, hW⟩ := ih (s.wake k w.who status cause)
    refine ⟨F', W', heq.trans ?_, hW.trans ?_⟩
    · rw [hF]
    · simp [State.sent, hF, Wake.brief]

/-! ### A granting pass (R185) -/

theorem grantFrom_append (l : List Waiter) (c : Nat) : l = (grantFrom l c).2.2 ++ (grantFrom l c).1 := by
  induction l generalizing c with
  | nil => rfl
  | cons w l ih =>
    unfold grantFrom
    split
    · exact congrArg (w :: ·) (ih _)
    · rfl

/-- The count is neither made nor lost: what is left and what was granted make up what was there. -/
theorem grantFrom_sum (l : List Waiter) (c : Nat) : (grantFrom l c).2.1 + ((grantFrom l c).2.2.map (·.value)).sum = c := by
  induction l generalizing c with
  | nil => rfl
  | cons w l ih =>
    unfold grantFrom
    split
    · have := ih (c - w.value)
      simp only [List.map_cons, List.sum_cons]
      omega
    · simp

/-- The waiter left at the head asks for more than is left. -/
theorem grantFrom_head (l : List Waiter) (c : Nat) : ∀ w ∈ (grantFrom l c).1.head?, (grantFrom l c).2.1 < w.value := by
  induction l generalizing c with
  | nil => simp [grantFrom]
  | cons w l ih =>
    unfold grantFrom
    split
    · exact ih _
    · next h => simpa using h

/-- A granting pass: its object, the wakes of those granted, and at most the time that ring contexts learn (R146). -/
theorem State.grantPass_eq (s : State) (k : Nat) :
    ∃ F W C, s.grantPass k =
      { s.setObj k { s.obj k with waiters := (grantFrom (s.obj k).waiters (s.obj k).count).1,
                                  count := (grantFrom (s.obj k).waiters (s.obj k).count).2.1, grant := false } with
        fabric := F, wakes := W, ctxs := C } ∧
      W.map Wake.brief = s.sent ++ (grantFrom (s.obj k).waiters (s.obj k).count).2.2.map (fun w => (w.who, 0, 0, false)) := by
  obtain ⟨F, W, hF, hW⟩ := (s.setObj k { s.obj k with
    waiters := (grantFrom (s.obj k).waiters (s.obj k).count).1,
    count := (grantFrom (s.obj k).waiters (s.obj k).count).2.1, grant := false }).wakeAll_eq k
      (grantFrom (s.obj k).waiters (s.obj k).count).2.2 0 0
  unfold State.grantPass
  simp only [hF]
  split
  · exact ⟨F, W, _, rfl, hW⟩
  · exact ⟨F, W, s.ctxs, rfl, hW⟩

/-! ### An object that becomes FAULTED (R189) -/

/-- The objects and the wakes are as they were. -/
def State.SameTables (s s' : State) : Prop := s'.objs = s.objs ∧ s'.wakes = s.wakes

theorem State.SameTables.trans {s s' s'' : State} (h : s.SameTables s') (h' : s'.SameTables s'') : s.SameTables s'' :=
  ⟨h'.1.trans h.1, h'.2.trans h.2⟩

theorem State.devEvent_sameTables (s : State) (p cause : Nat) : s.SameTables (s.devEvent p cause) := ⟨rfl, rfl⟩

theorem State.syncPorts_sameTables (s : State) (q : Nat) : s.SameTables (s.syncPorts q) := by
  unfold State.syncPorts
  split
  · exact s.devEvent_sameTables 0 0
  · split
    · exact s.devEvent_sameTables 1 0
    · exact (s.devEvent_sameTables 0 0).trans ((s.devEvent 0 0).devEvent_sameTables 1 0)

theorem State.report_sameTables (s : State) (cls code block who job addr pc info : Nat) :
    s.SameTables (s.report cls code block who job addr pc info) := by
  unfold State.report State.reportAs
  simp only []
  split
  · exact ⟨rfl, rfl⟩
  · split
    · exact ⟨rfl, rfl⟩
    · exact ⟨rfl, rfl⟩

/-- The second half of a fault: FAULT_LAST and the count, the report, and the ports told at once where no record will be made. -/
def State.noteFault (s : State) (k cause : Nat) : State :=
  let b := blkSYNC (objQ k)
  let s := (s.syncLast k cause).bump b F.SYNC.FAULT_COUNT.COUNT
  let t := s.report 2 0xA7 b 0 0 0 0 (k % 65536 + cause * 65536)
  if s.reportFits 0xA7 b then t else t.syncPorts (objQ k)

/-- The first half: the object marked, its queue emptied and woken. -/
theorem State.faultObj_eq (s : State) (k cause : Nat) :
    s.faultObj k cause = ((s.setObj k { s.obj k with faulted := true, cause := cause, waiters := [], held := [] }).wakeAll k
      ((s.obj k).waiters ++ (s.obj k).held) 1 cause).noteFault k cause := rfl

theorem State.noteFault_sameTables (s : State) (k cause : Nat) : s.SameTables (s.noteFault k cause) := by
  have hcount : s.SameTables ((s.syncLast k cause).bump (blkSYNC (objQ k)) F.SYNC.FAULT_COUNT.COUNT) := ⟨rfl, rfl⟩
  have hreport := hcount.trans (State.report_sameTables _ 2 0xA7 (blkSYNC (objQ k)) 0 0 0 0 (k % 65536 + cause * 65536))
  unfold State.noteFault
  simp only []
  split
  · exact hreport
  · exact hreport.trans (State.syncPorts_sameTables _ _)

/-- The object keeps its count and loses its queue; all its waiters are woken with status 1 and the cause. -/
theorem State.faultObj_tables (s : State) (k cause : Nat) :
    (s.faultObj k cause).obj k = { s.obj k with faulted := true, cause := cause, waiters := [], held := [] } ∧
    (s.faultObj k cause).sent = s.sent ++ ((s.obj k).waiters ++ (s.obj k).held).map (fun w => (w.who, 1, cause, false)) := by
  obtain ⟨F, W, hF, hW⟩ := (s.setObj k { s.obj k with faulted := true, cause := cause, waiters := [], held := [] }).wakeAll_eq k
    ((s.obj k).waiters ++ (s.obj k).held) 1 cause
  obtain ⟨hobjs, hwakes⟩ := ((s.setObj k { s.obj k with faulted := true, cause := cause, waiters := [], held := [] }).wakeAll k
    ((s.obj k).waiters ++ (s.obj k).held) 1 cause).noteFault_sameTables k cause
  rw [hF] at hobjs hwakes
  rw [State.faultObj_eq, hF]
  constructor
  · rw [State.obj, hobjs]
    exact (State.obj_setObj s k _ k).trans (if_pos rfl)
  · rw [State.sent, hwakes]
    exact hW

/-! ### Operations of threads at their objects (R183-R188) -/

/-- The state without the message at place `i`. -/
def State.withoutMsg (s : State) (i : Nat) : State := { s with syncMsgs := s.syncMsgs.eraseIdx i }

/-- What an operation that is due does is `doSync` on the state without its message. -/
theorem execSyncOperation_due (i : Nat) (m : SyncMsg) (s : State) (hm : s.syncMsgs[i]? = some m) (ha : s.alive = true)
    (hq : s.qUp (objQ m.obj) = true) (hf : s.tableFrozen (objQ m.obj) = false) (hn : s.syncNext m = true)
    (hc : (s.obj m.obj).chain = false) :
    exec (.syncOperation i) s = .next ((s.withoutMsg i).doSync m) := by
  have h5 : s.qState (objQ m.obj) ≠ 5 := by
    intro h
    simp [State.qUp, h] at hq
  change execSyncOperation i s = _
  simp [execSyncOperation, hm, ha, hn, hf, hc, hq, h5, State.withoutMsg]

/-- A thread's signal is not answered. -/
theorem State.doSync_sig (s : State) (m : SyncMsg) (th : Nat) (v : Int) (gen : Bool) (hw : m.who = .thread th) (ho : m.op = .sig v gen) :
    s.doSync m = (s.doSig m.obj v gen).1 := by
  simp [State.doSync, ho, hw, SyncWho.isThread, State.answerSig]

theorem State.doSync_wait (s : State) (m : SyncMsg) (th w : Nat) (hw : m.who = .thread th) (ho : m.op = .wait w) :
    s.doSync m = s.doWait m.obj ⟨.thread th, w, false, s.clk.arith, s.gtc.count⟩ := by
  simp [State.doSync, ho, hw, SyncWho.isThread, State.waiter, State.now]

theorem State.doSync_bar (s : State) (m : SyncMsg) (th : Nat) (gen : Bool) (hw : m.who = .thread th) (ho : m.op = .bar gen) :
    s.doSync m = s.doBar m.obj gen ⟨.thread th, 0, true, s.clk.arith, s.gtc.count⟩ := by
  simp [State.doSync, ho, hw, State.waiter, State.now]

section Counter
variable (s : State) (k : Nat) (ht : (s.obj k).type = 1) (hf : (s.obj k).faulted = false)
include ht hf

/-- A sum that fits: the waiters `l` at the head of the queue are granted and woken, and the count left is the sum less theirs. -/
theorem State.doSig_fits (v : Int) (gen : Bool) (h0 : 0 ≤ ((s.obj k).count : Int) + v) (h1 : ((s.obj k).count : Int) + v ≤ 0xFFFFFFFF) :
    ∃ l, (s.obj k).waiters = l ++ ((s.doSig k v gen).1.obj k).waiters ∧
      ((s.doSig k v gen).1.obj k).count + (l.map (·.value)).sum = (((s.obj k).count : Int) + v).toNat ∧
      (∀ w ∈ ((s.doSig k v gen).1.obj k).waiters.head?, ((s.doSig k v gen).1.obj k).count < w.value) ∧
      ((s.doSig k v gen).1.obj k).faulted = false ∧ (s.doSig k v gen).1.syncMsgs = s.syncMsgs ∧
      (s.doSig k v gen).1.sent = s.sent ++ l.map (fun w => (w.who, 0, 0, false)) ∧
      (∀ j, j ≠ k → (s.doSig k v gen).1.obj j = s.obj j) ∧ (s.doSig k v gen).1.mem = s.mem := by
  obtain ⟨n, hn⟩ : ∃ n, n = (((s.obj k).count : Int) + v).toNat := ⟨_, rfl⟩
  have heq : (s.doSig k v gen).1 = (s.setObj k { s.obj k with count := n }).grantPass k := by
    simp [State.doSig, ht, hf, not_lt.mpr h0, not_lt.mpr h1, hn]
  obtain ⟨F, W, C, hF, hW⟩ := (s.setObj k { s.obj k with count := n }).grantPass_eq k
  rw [State.obj_setObj, if_pos rfl] at hF hW
  rw [heq, hF, ← hn]
  have hobj : ∀ (x y : Obj) j, ({ (s.setObj k x).setObj k y with fabric := F, wakes := W, ctxs := C } : State).obj j =
      if j = k then y else s.obj j := by
    intro x y j
    refine (State.obj_setObj _ k y j).trans ?_
    split
    · rfl
    · next hj => rw [State.obj_setObj, if_neg hj]
  refine ⟨(grantFrom (s.obj k).waiters n).2.2, ?_⟩
  simp only [hobj, if_true]
  exact ⟨grantFrom_append _ _, grantFrom_sum _ _, grantFrom_head _ _, hf, rfl, hW, fun j hj => if_neg hj, rfl⟩

/-- A sum that leaves 32 bits faults the object with the cause of its side; the count stays. -/
theorem State.doSig_leaves (v : Int) (gen : Bool)
    (h : ((s.obj k).count : Int) + v < 0 ∨ 0xFFFFFFFF < ((s.obj k).count : Int) + v) :
    (s.doSig k v gen).1.obj k = { s.obj k with
      faulted := true, cause := if ((s.obj k).count : Int) + v < 0 then 1 else 2, waiters := [], held := [] } ∧
    (s.doSig k v gen).1.sent = s.sent ++ ((s.obj k).waiters ++ (s.obj k).held).map
      (fun w => (w.who, 1, if ((s.obj k).count : Int) + v < 0 then 1 else 2, false)) := by
  have heq : (s.doSig k v gen).1 = s.faultObj k (if ((s.obj k).count : Int) + v < 0 then 1 else 2) := by
    by_cases hlow : ((s.obj k).count : Int) + v < 0
    · simp [State.doSig, ht, hf, hlow]
    · simp [State.doSig, ht, hf, hlow, h.resolve_left hlow]
  rw [heq]
  exact s.faultObj_tables k _

/-- A wait that the count satisfies, behind nobody, takes its value and is woken. -/
theorem State.doWait_takes (w : Waiter) (hw : w.value ≠ 0) (he : (s.obj k).waiters = []) (hle : w.value ≤ (s.obj k).count) :
    (s.doWait k w).obj k = { s.obj k with count := (s.obj k).count - w.value } ∧
    (s.doWait k w).sent = s.sent ++ [(w.who, 0, 0, false)] := by
  have heq : s.doWait k w =
      ((s.setObj k { s.obj k with count := (s.obj k).count - w.value }).wake k w.who 0 0).lowered k := by
    simp [State.doWait, ht, hf, hw, he, hle]
  obtain ⟨F, hF⟩ := (s.setObj k { s.obj k with count := (s.obj k).count - w.value }).wake_eq k w.who 0 0
  rw [heq, hF]
  constructor
  · exact (State.obj_setObj s k _ k).trans (if_pos rfl)
  · simp [State.sent, State.lowered, Wake.brief]

/-- Any other wait joins the queue. -/
theorem State.doWait_queues (w : Waiter) (hw : w.value ≠ 0) (h : (s.obj k).waiters ≠ [] ∨ (s.obj k).count < w.value) :
    s.doWait k w = s.setObj k { s.obj k with waiters := (s.obj k).waiters ++ [w] } := by
  have hn : ¬((s.obj k).waiters.isEmpty = true ∧ w.value ≤ (s.obj k).count) := by
    rintro ⟨he, hle⟩
    exact h.elim (fun hne => hne (List.isEmpty_iff.mp he)) (fun hlt => absurd hle (not_le.mpr hlt))
  simp only [State.doWait, ht, hf, hw, if_true, if_neg hn, Bool.false_eq_true, if_false]

end Counter

/-- A generation that completes: flipped, the early arrivers its own, the waiters woken. -/
theorem State.complete_tables (s : State) (k : Nat) :
    (s.complete k).obj k = { s.obj k with
      arrived := (s.obj k).next, next := 0, gen := !(s.obj k).gen, waiters := (s.obj k).held, held := []
      chain := (s.obj k).next == (s.obj k).parts } ∧
    (s.complete k).sent = s.sent ++ (s.obj k).waiters.map (fun w => (w.who, 0, 0, false)) := by
  obtain ⟨F, W, hF, hW⟩ := (s.setObj k { s.obj k with
    arrived := (s.obj k).next, next := 0, gen := !(s.obj k).gen, waiters := (s.obj k).held, held := []
    chain := (s.obj k).next == (s.obj k).parts }).wakeAll_eq k (s.obj k).waiters 0 0
  unfold State.complete
  simp only [hF]
  exact ⟨(State.obj_setObj s k _ k).trans (if_pos rfl), hW⟩

section Barrier
variable (s : State) (k : Nat) (w : Waiter) (ht : (s.obj k).type = 3) (hf : (s.obj k).faulted = false)
include ht hf

/-- An arrival that others have still to follow: counted, its thread a waiter, nobody woken. -/
theorem State.doBar_waits (h : (s.obj k).arrived + 1 < (s.obj k).parts) :
    (s.doBar k (s.obj k).gen w).obj k =
      { s.obj k with arrived := (s.obj k).arrived + 1, waiters := (s.obj k).waiters ++ [w] } ∧
    (s.doBar k (s.obj k).gen w).wakes = s.wakes := by
  simp [State.doBar, State.arrive, ht, hf, h.ne]

/-- The arrival that completes a generation: flipped, and all its waiters woken, the last to arrive among them. -/
theorem State.doBar_completes (h : (s.obj k).arrived + 1 = (s.obj k).parts) :
    (s.doBar k (s.obj k).gen w).obj k = { s.obj k with
      arrived := (s.obj k).next, next := 0, gen := !(s.obj k).gen, waiters := (s.obj k).held, held := []
      chain := (s.obj k).next == (s.obj k).parts } ∧
    (s.doBar k (s.obj k).gen w).sent = s.sent ++ ((s.obj k).waiters ++ [w]).map (fun w => (w.who, 0, 0, false)) := by
  have heq : s.doBar k (s.obj k).gen w =
      (s.setObj k { s.obj k with arrived := (s.obj k).arrived + 1, waiters := (s.obj k).waiters ++ [w] }).complete k := by
    simp [State.doBar, State.arrive, ht, hf, h]
  have htables := (s.setObj k { s.obj k with
    arrived := (s.obj k).arrived + 1, waiters := (s.obj k).waiters ++ [w] }).complete_tables k
  rw [State.obj_setObj, if_pos rfl] at htables
  rw [heq]
  exact htables

end Barrier

/-! ### The three instructions (R179, R180, R184) -/

/-- One operation of `t`, alone, has left for its object. -/
def SyncSent (s s' : State) (t : Tid) (obj : Nat) (op : SyncOp) : Prop :=
  s'.syncMsgs = s.syncMsgs ++ [⟨s.fabric.nextId, .thread t.key, obj, op, none⟩] ∧
  s' = { s with threads := s'.threads, cores := s'.cores, syncMsgs := s'.syncMsgs, fabric := s'.fabric } ∧
  ∀ j, j ≠ t.key → s'.thread j = s.thread j

theorem syncSent_of_issue (s : State) (t : Tid) (obj : Nat) (op : SyncOp) :
    SyncSent s ((s.markIssue t).sendSync (.thread t.key) obj op) t obj op ∧
    ((s.markIssue t).sendSync (.thread t.key) obj op).thread t.key = { s.thread t.key with parkedAt := s.clk.arith } := by
  obtain ⟨F, hF⟩ := (s.markIssue t).sendSync_eq (.thread t.key) obj op
  have hth : ∀ j, ((s.markIssue t).sendSync (.thread t.key) obj op).thread j = (s.markIssue t).thread j := by
    intro j
    rw [hF]
    rfl
  refine ⟨⟨?_, ?_, fun j hj => ?_⟩, ?_⟩
  · rw [hF]
    rfl
  · rw [hF]
    rfl
  · rw [hth, State.thread_markIssue, if_neg hj]
  · rw [hth, State.thread_markIssue, if_pos rfl]

theorem SyncSent.setThread {s s' : State} {t : Tid} {obj : Nat} {op : SyncOp} (h : SyncSent s s' t obj op) (x : Thread) :
    SyncSent s (s'.setThread t.key x) t obj op := by
  obtain ⟨hmsgs, hframe, hthreads⟩ := h
  refine ⟨hmsgs, ?_, fun j hj => ?_⟩
  · exact congrArg (fun z : State => { z with threads := (s'.setThread t.key x).threads }) hframe
  · rw [State.thread_setThread, if_neg hj, hthreads j hj]

theorem SyncSent.pcNext {s s' : State} {t : Tid} {obj : Nat} {op : SyncOp} (h : SyncSent s s' t obj op) :
    SyncSent s (s'.pcNext t.key) t obj op := h.setThread _

theorem SyncSent.park {s s' : State} {t : Tid} {obj : Nat} {op : SyncOp} (h : SyncSent s s' t obj op) (p : Park) :
    SyncSent s (s'.park t.key p) t obj op := h.setThread _

/-- The issue leaves the job of the thread, so that its references stay well formed. -/
theorem State.refOk_markIssue (s : State) (t : Tid) (a : Nat) : (s.markIssue t).refOk t.key a = s.refOk t.key a := by
  have hjob : ((s.markIssue t).thread t.key).job = (s.thread t.key).job := by rw [State.thread_markIssue, if_pos rfl]
  simp only [State.refOk, hjob]
  rfl

/-- The issue changes no register, so that the operands are those of the thread before it. -/
theorem State.getX_markIssue (s : State) (t : Tid) (r : BitVec 5) :
    ((s.markIssue t).thread t.key).getX r = (s.thread t.key).getX r := by
  rw [State.thread_markIssue, if_pos rfl]
  rfl

theorem State.syncSig_ok (s : State) (k a v : Nat) (hr : s.refOk k a = true) (hv : sextInt 32 v = sextInt 64 v) :
    s.syncSig k a v = (s.sendSync (.thread k) (a % 2 ^ 18) (.sig (sextInt 64 v) (bit a 18))).pcNext k := by
  simp [State.syncSig, hr, hv, objOf]

theorem State.syncWait_ok (s : State) (k rd a w : Nat) (hr : s.refOk k a = true) (hw : w < 2 ^ 32) :
    s.syncWait k rd a w = ((s.sendSync (.thread k) (a % 2 ^ 18) (.wait w)).pcNext k).park k (.sync (a % 2 ^ 18) rd) := by
  simp only [State.syncWait, hr, hw, objOf, decide_true, Bool.and_self, if_true]

theorem State.syncBar_ok (s : State) (k rd a : Nat) (hr : s.refOk k a = true) :
    s.syncBar k rd a = ((s.sendSync (.thread k) (a % 2 ^ 18) (.bar (bit a 18))).pcNext k).park k (.sync a rd) := by
  simp only [State.syncBar, hr, objOf, if_true]

section Instructions
variable (t : Tid) (g : BitVec 4) (xd xa xb : BitVec 5) (s : State)

theorem execSyncSig_sends (hr : s.refOk t.key ((s.thread t.key).getX xa).toNat = true) (hi : Issues s t (.syncSig t g xa xb) g)
    (hv : sextInt 32 ((s.thread t.key).getX xb).toNat = sextInt 64 ((s.thread t.key).getX xb).toNat) (hu : s.unacked t.key = false) :
    exec (.syncSig t g xa xb) s =
      .next (((s.markIssue t).sendSync (.thread t.key) (((s.thread t.key).getX xa).toNat % 2 ^ 18)
        (.sig (sextInt 64 ((s.thread t.key).getX xb).toNat) (bit ((s.thread t.key).getX xa).toNat 18))).pcNext t.key) := by
  obtain ⟨hf, hc, hg⟩ := hi
  have hu' : (s.markIssue t).unacked t.key = false := hu
  change execSyncSig t g xa xb s = _
  unfold execSyncSig
  rw [State.instr_issues s _ t g _ hf hc hg]
  simp only [hu', Bool.false_eq_true, if_false, Option.getD_some, State.getX_markIssue]
  rw [State.syncSig_ok _ _ _ _ ((s.refOk_markIssue t _).trans hr) hv]

/-- R180: a signal is a release; with earlier writes on their way it has its slot and is held. -/
theorem execSyncSig_held (hi : Issues s t (.syncSig t g xa xb) g) (hu : s.unacked t.key = true) :
    exec (.syncSig t g xa xb) s =
      .next ((s.markIssue t).setThread t.key { s.thread t.key with st := .held, parkedAt := s.clk.arith }) := by
  obtain ⟨hf, hc, hg⟩ := hi
  have hu' : (s.markIssue t).unacked t.key = true := hu
  change execSyncSig t g xa xb s = _
  unfold execSyncSig
  rw [State.instr_issues s _ t g _ hf hc hg]
  simp only [hu', if_true, Option.getD_none, State.thread_markIssue]

theorem execSyncWait_sends (hr : s.refOk t.key ((s.thread t.key).getX xa).toNat = true) (hi : Issues s t (.syncWait t g xd xa xb) g)
    (hw : ((s.thread t.key).getX xb).toNat < 2 ^ 32) :
    exec (.syncWait t g xd xa xb) s =
      .next ((((s.markIssue t).sendSync (.thread t.key) (((s.thread t.key).getX xa).toNat % 2 ^ 18)
        (.wait ((s.thread t.key).getX xb).toNat)).pcNext t.key).park t.key
        (.sync (((s.thread t.key).getX xa).toNat % 2 ^ 18) xd.toNat)) := by
  obtain ⟨hf, hc, hg⟩ := hi
  change execSyncWait t g xd xa xb s = _
  unfold execSyncWait
  rw [State.instr_issues s _ t g _ hf hc hg]
  simp only [Option.getD_some, State.getX_markIssue]
  rw [State.syncWait_ok _ _ _ _ _ ((s.refOk_markIssue t _).trans hr) hw]

theorem execSyncBar_sends (hr : s.refOk t.key ((s.thread t.key).getX xa).toNat = true) (hi : Issues s t (.syncBar t g xd xa) g)
    (hu : s.unacked t.key = false) :
    exec (.syncBar t g xd xa) s =
      .next ((((s.markIssue t).sendSync (.thread t.key) (((s.thread t.key).getX xa).toNat % 2 ^ 18)
        (.bar (bit ((s.thread t.key).getX xa).toNat 18))).pcNext t.key).park t.key
        (.sync ((s.thread t.key).getX xa).toNat xd.toNat)) := by
  obtain ⟨hf, hc, hg⟩ := hi
  have hu' : (s.markIssue t).unacked t.key = false := hu
  change execSyncBar t g xd xa s = _
  unfold execSyncBar
  rw [State.instr_issues s _ t g _ hf hc hg]
  simp only [hu', Bool.false_eq_true, if_false, Option.getD_some, State.getX_markIssue]
  rw [State.syncBar_ok _ _ _ _ ((s.refOk_markIssue t _).trans hr)]

end Instructions

/-- SIG's effect: its operation sent, the thread at its next instruction. -/
theorem syncSent_pcNext (s : State) (t : Tid) (obj : Nat) (op : SyncOp) :
    SyncSent s (((s.markIssue t).sendSync (.thread t.key) obj op).pcNext t.key) t obj op ∧
    (((s.markIssue t).sendSync (.thread t.key) obj op).pcNext t.key).thread t.key =
      { s.thread t.key with pc := (s.thread t.key).pc + 4, parkedAt := s.clk.arith } := by
  obtain ⟨hsent, hth⟩ := syncSent_of_issue s t obj op
  refine ⟨hsent.pcNext, ?_⟩
  rw [State.pcNext, State.thread_setThread, if_pos rfl, hth]

/-- Parking takes place in the cycle of the issue. -/
theorem SyncSent.thread_park {s s' : State} {t : Tid} {obj : Nat} {op : SyncOp} (h : SyncSent s s' t obj op) (p : Park) :
    (s'.park t.key p).thread t.key = { s'.thread t.key with st := .parked p, parkedAt := s.clk.arith } := by
  obtain ⟨-, hframe, -⟩ := h
  have hclk : s'.clk = s.clk := by rw [hframe]
  rw [State.park, State.thread_setThread, if_pos rfl, hclk]

/-- The effect of WAIT and BAR: the operation sent, the thread parked at its next instruction. -/
theorem syncSent_park (s : State) (t : Tid) (obj : Nat) (op : SyncOp) (p : Park) :
    SyncSent s ((((s.markIssue t).sendSync (.thread t.key) obj op).pcNext t.key).park t.key p) t obj op ∧
    ((((s.markIssue t).sendSync (.thread t.key) obj op).pcNext t.key).park t.key p).thread t.key =
      { s.thread t.key with st := .parked p, pc := (s.thread t.key).pc + 4, parkedAt := s.clk.arith } := by
  obtain ⟨hsent, hth⟩ := syncSent_pcNext s t obj op
  refine ⟨hsent.park p, ?_⟩
  rw [hsent.thread_park p, hth]

/-- A held thread's issue: the thread and its core alone. -/
theorem onlyThread_held (s : State) (t : Tid) (x : Thread) : OnlyThread s ((s.markIssue t).setThread t.key x) t := by
  refine ⟨rfl, fun j hj => ?_, ?_, fun c hc => ?_⟩
  · rw [State.thread_setThread, if_neg hj, State.thread_markIssue, if_neg hj]
  · simp [State.core_markIssue]
  · simp [State.core_markIssue, hc]

/-! ### O17 -/

/-- Settles O17: each instruction is its issue and one operation sent, and each operation that is due is the case of
`doSync` that its object's type and state choose. -/
theorem syncOperations : Obligations.SyncOperations := by
  unfold Obligations.SyncOperations
  constructor
  · intro t g xd xa xb s k th a v sent hr
    refine ⟨fun hi hv hu => ?_, fun hi hu => ?_, fun hi hw => ?_, fun hi hu => ?_⟩
    · exact ⟨_, execSyncSig_sends t g xa xb s hr hi hv hu, syncSent_pcNext s t _ _⟩
    · refine ⟨_, execSyncSig_held t g xa xb s hi hu, onlyThread_held s t _, ?_⟩
      rw [State.thread_setThread, if_pos rfl]
    · exact ⟨_, execSyncWait_sends t g xd xa xb s hr hi hw, syncSent_park s t _ _ _⟩
    · exact ⟨_, execSyncBar_sends t g xd xa s hr hi hu, syncSent_park s t _ _ _⟩
  · intro i th m s o brief hm hwho ha hq hfz hn hch hf
    have hexec := execSyncOperation_due i m s hm ha hq hfz hn hch
    refine ⟨fun v gen hop ht h0 h1 => ?sigFits, fun v gen hop ht h => ?sigLeaves, fun w hop ht hw he hle => ?waitTakes,
      fun w hop ht hw h => ?waitQueues, fun hop ht h => ?barWaits, fun hop ht h => ?barCompletes⟩
    case sigFits =>
      rw [State.doSync_sig _ m th v gen hwho hop] at hexec
      obtain ⟨l, htables⟩ := (s.withoutMsg i).doSig_fits m.obj ht hf v gen h0 h1
      exact ⟨_, l, hexec, htables⟩
    case sigLeaves =>
      rw [State.doSync_sig _ m th v gen hwho hop] at hexec
      obtain ⟨hobj, hsent⟩ := (s.withoutMsg i).doSig_leaves m.obj ht hf v gen h
      exact ⟨_, hexec, (congrArg Obj.faulted hobj :), (congrArg Obj.count hobj :), (congrArg Obj.cause hobj :),
        (congrArg Obj.waiters hobj :), hsent⟩
    case waitTakes =>
      rw [State.doSync_wait _ m th w hwho hop] at hexec
      obtain ⟨hobj, hsent⟩ := (s.withoutMsg i).doWait_takes m.obj ht hf ⟨.thread th, w, false, s.clk.arith, s.gtc.count⟩ hw he hle
      exact ⟨_, hexec, (congrArg Obj.count hobj :), hsent⟩
    case waitQueues =>
      rw [State.doSync_wait _ m th w hwho hop, State.doWait_queues (s.withoutMsg i) m.obj ht hf ⟨_, w, _, _, _⟩ hw h] at hexec
      exact ⟨_, hexec, (State.obj_setObj _ _ _ _).trans (if_pos rfl), rfl⟩
    case barWaits =>
      rw [State.doSync_bar _ m th _ hwho hop] at hexec
      obtain ⟨hobj, hwakes⟩ := (s.withoutMsg i).doBar_waits m.obj ⟨.thread th, 0, true, s.clk.arith, s.gtc.count⟩ ht hf h
      exact ⟨_, hexec, (congrArg Obj.arrived hobj :), (congrArg Obj.gen hobj :), hwakes⟩
    case barCompletes =>
      rw [State.doSync_bar _ m th _ hwho hop] at hexec
      obtain ⟨hobj, hsent⟩ := (s.withoutMsg i).doBar_completes m.obj ⟨.thread th, 0, true, s.clk.arith, s.gtc.count⟩ ht hf h
      refine ⟨_, hexec, (congrArg Obj.gen hobj :), (congrArg Obj.arrived hobj :), (congrArg Obj.waiters hobj :), ?_⟩
      exact (congrArg ((SyncWho.thread th, 0, 0, false) ∈ ·) hsent).mpr (by simp)

end Sys2Proof.Machine

/-! The mode protocol (R193-R196): who may write its registers (R5, R42), what each command does to the fields of the
block MODE, and O20. -/

namespace Sys2Proof.Machine

/-! ### Fields of MODE -/

theorem State.fget_fset_ne (s : State) (b : Nat) (f : Fld) (v i b' : Nat) (f' : Fld) (i' : Nat) (h : fkey b' f' i' ≠ fkey b f i) :
    (s.fset b f v i).fget b' f' i' = s.fget b' f' i' := by
  rw [State.fget_fset, if_neg h]

@[simp] theorem State.fget_mode1_same (s : State) (f : Fld) (v : Nat) : (s.mode1 f v).fget blkMODE f = v % 2 ^ f.w :=
  State.fget_fset_same s blkMODE f v 0

theorem State.fget_mode1_ne (s : State) (f g : Fld) (v : Nat) (h : fkey blkMODE g 0 ≠ fkey blkMODE f 0) :
    (s.mode1 f v).fget blkMODE g = s.fget blkMODE g :=
  State.fget_fset_ne s blkMODE f v 0 blkMODE g 0 h

theorem State.inTransition_iff (s : State) : s.inTransition = true ↔ s.fget blkMODE F.MODE.MODE_STATUS.TRANSITION ≠ 0 :=
  bne_iff_ne

theorem State.inTransition_eq_false_iff (s : State) : s.inTransition = false ↔ s.fget blkMODE F.MODE.MODE_STATUS.TRANSITION = 0 :=
  bne_eq_false_iff_eq

/-- A field holds what was written of it, where the value is already cut to the field's width. -/
theorem bits_mod (v lo w : Nat) : bits v lo w % 2 ^ w = v / 2 ^ lo % 2 ^ w := by
  rw [bits, Nat.mod_mod, Nat.shiftRight_eq_div_pow]

/-! ### Who may write (R5, R42) -/

/-- The requesters that R195 lets write MODE_NEXT and MODE_CMD: firmware, or a port while the other one owns no quarter. -/
def State.MayMode (s : State) (rq : Requester) : Prop :=
  rq = .firmware ∨ ∃ p : Fin 2, rq = .port p ∧ ∀ q : Fin 4, s.owns (1 - p.val) q.val = false

/-- The offsets of the two registers that MODE guards. -/
def guardedMode (off : Nat) : Prop := off = F.MODE.MODE_NEXT.ROUND.reg ∨ off = F.MODE.MODE_CMD.COMMIT.reg

theorem State.mayWrite_mode (s : State) (rq : Requester) (off : Nat) (hoff : guardedMode off) :
    s.mayWrite rq blkMODE off = match rq with
      | .firmware => true
      | .port p => !(List.range 4).any (fun q => s.owns (1 - p.val) q)
      | _ => false := by
  obtain rfl | rfl := hoff
  · rfl
  · rfl

theorem State.mayWrite_mode_iff (s : State) (rq : Requester) (off : Nat) (hoff : guardedMode off) :
    s.mayWrite rq blkMODE off = true ↔ s.MayMode rq := by
  rw [State.mayWrite_mode s rq off hoff]
  cases rq with
  | firmware => simp [State.MayMode]
  | port p => simp [State.MayMode, Fin.forall_iff]
  | thread t => simp [State.MayMode]
  | engine => simp [State.MayMode]

/-- MODE stands outside the quarters, so that it is always in service. -/
theorem State.regGuard_mode (s : State) (rq : Requester) (off : Nat) (body : State → State) (hoff : guardedMode off) (h : s.MayMode rq) :
    s.regGuard rq blkMODE off body = body s := by
  unfold State.regGuard
  rw [if_pos ((s.mayWrite_mode_iff rq off hoff).mpr h)]
  rfl

theorem State.regGuard_mode_refused (s : State) (rq : Requester) (off : Nat) (body : State → State) (hoff : guardedMode off)
    (h : ¬s.MayMode rq) : s.regGuard rq blkMODE off body = s.regError blkMODE off true 1 := by
  unfold State.regGuard
  rw [if_neg (fun hw => h ((s.mayWrite_mode_iff rq off hoff).mp hw))]

theorem exec_modeNextWrite (s : State) (rq : Requester) (v : Word) (h : s.MayMode rq) :
    exec (.modeNextWrite rq v) s = .next (s.modeNextWrite v.toNat) :=
  congrArg _ (s.regGuard_mode rq _ _ (.inl rfl) h)

theorem exec_commit (s : State) (rq : Requester) (h : s.MayMode rq) : exec (.commit rq) s = .next s.modeCommit :=
  congrArg _ (s.regGuard_mode rq _ _ (.inr rfl) h)

theorem exec_modeAbort (s : State) (rq : Requester) (h : s.MayMode rq) : exec (.modeAbort rq) s = .next s.modeAbort :=
  congrArg _ (s.regGuard_mode rq _ _ (.inr rfl) h)

/-- The three commands of a requester that may not write are each one register-access error at the register's offset. -/
theorem exec_mode_refused (s : State) (rq : Requester) (v : Word) (h : ¬s.MayMode rq) (e : Instr × Nat)
    (he : e ∈ [(.modeNextWrite rq v, F.MODE.MODE_NEXT.ROUND.reg), (.commit rq, F.MODE.MODE_CMD.COMMIT.reg),
      (.modeAbort rq, F.MODE.MODE_CMD.ABORT.reg)]) :
    guardedMode e.2 ∧ exec e.1 s = .next (s.regError blkMODE e.2 true 1) := by
  simp only [List.mem_cons, List.not_mem_nil, or_false] at he
  obtain rfl | rfl | rfl := he
  · exact ⟨.inl rfl, congrArg _ (s.regGuard_mode_refused rq _ _ (.inl rfl) h)⟩
  · exact ⟨.inr rfl, congrArg _ (s.regGuard_mode_refused rq _ _ (.inr rfl) h)⟩
  · exact ⟨.inr rfl, congrArg _ (s.regGuard_mode_refused rq _ _ (.inr rfl) h)⟩

/-! ### Register-access errors (R5, R379) -/

theorem State.fget_fset_other_bits (s : State) (b : Nat) (f g : Fld) (v i : Nat) (hreg : g.reg = f.reg) (hlo : g.lo ≠ f.lo) :
    (s.fset b f v i).fget b g i = s.fget b g i := by
  apply State.fget_fset_ne
  unfold fkey
  omega

/-- What a register-access error leaves in the log of its block: one more error, and the offset, direction and kind of the access. -/
theorem State.regError_log (s : State) (n off kind : Nat) (write : Bool) :
    (s.regError n off write kind).fget blkSILPAOT F.SILPAOT.BLK_LOG.REG_ACCESS (8 * n) =
      min (s.fget blkSILPAOT F.SILPAOT.BLK_LOG.REG_ACCESS (8 * n) + 1) 0xFFFFFFFF ∧
    (s.regError n off write kind).fget blkSILPAOT F.SILPAOT.BLK_LOG.LAST_OFFSET (8 * n) = off % 2 ^ 20 ∧
    (s.regError n off write kind).fget blkSILPAOT F.SILPAOT.BLK_LOG.LAST_WRITE (8 * n) = b2n write ∧
    (s.regError n off write kind).fget blkSILPAOT F.SILPAOT.BLK_LOG.LAST_KIND (8 * n) = kind % 2 := by
  have hb : b2n write % 2 ^ 1 = b2n write := by cases write <;> rfl
  unfold State.regError
  simp (disch := decide) only [State.fget_fset_other_bits, State.fget_fset_same, State.fget_bump_same]
  exact ⟨rfl, rfl, hb, rfl⟩

/-- The log lies in another block, below the fields of MODE. -/
theorem State.fget_mode_regError (s : State) (f : Fld) (off kind : Nat) (write : Bool) :
    (s.regError blkMODE off write kind).fget blkMODE f = s.fget blkMODE f := by
  have hlog : ∀ (s : State) (g : Fld) (v : Nat), g.reg = 0xc0000 → g.lo < 64 →
      (s.fset blkSILPAOT g v (8 * blkMODE)).fget blkMODE f = s.fget blkMODE f := by
    intro s g v hreg hlo
    apply State.fget_fset_ne
    simp only [fkey, blkMODE, blkSILPAOT, hreg]
    omega
  unfold State.regError State.bump
  simp (disch := decide) only [hlog]

/-! ### Staging (R194) -/

theorem State.modeNextWrite_stages (s : State) (v : Nat) (h : s.inTransition = false) :
    (s.modeNextWrite v).fget blkMODE F.MODE.MODE_NEXT.ROUND = v % 4 ∧
    (s.modeNextWrite v).fget blkMODE F.MODE.MODE_NEXT.DETERMINISTIC = v / 4 % 2 ∧
    (s.modeNextWrite v).fget blkMODE F.MODE.MODE_NEXT.SPARSE_DENSE_THRESH = v / 16 % 128 ∧
    s.modeNextWrite v = { s with regs := (s.modeNextWrite v).regs } := by
  have heq : s.modeNextWrite v = ((s.mode1 F.MODE.MODE_NEXT.ROUND (bits v 0 2)).mode1 F.MODE.MODE_NEXT.DETERMINISTIC
      (bits v 2 1)).mode1 F.MODE.MODE_NEXT.SPARSE_DENSE_THRESH (bits v 4 7) := by simp [State.modeNextWrite, h]
  rw [heq]
  refine ⟨?_, ?_, ?_, rfl⟩
  · simp (disch := decide) only [State.fget_mode1_same, State.fget_mode1_ne]
    exact (bits_mod v 0 2).trans (by simp)
  · simp (disch := decide) only [State.fget_mode1_same, State.fget_mode1_ne]
    exact bits_mod v 2 1
  · simp (disch := decide) only [State.fget_mode1_same]
    exact bits_mod v 4 7

/-- STAGE_REJECT alone is written: every field of MODE at another place reads as before. -/
theorem State.stageReject_fget (s : State) (f : Fld) (h : fkey blkMODE f 0 ≠ fkey blkMODE F.MODE.MODE_STATUS.STAGE_REJECT 0) :
    s.stageReject.fget blkMODE f = s.fget blkMODE f :=
  State.fget_mode1_ne s _ f 1 h

theorem State.modeNextWrite_rejects (s : State) (v : Nat) (h : s.inTransition = true) : s.modeNextWrite v = s.stageReject := by
  simp [State.modeNextWrite, h]

/-! ### Commit (R195) -/

/-- Of the state, what goes through `g` is left alone by a fold each of whose steps leaves it. -/
theorem foldl_keeps {σ α β : Type} (g : σ → β) (f : σ → α → σ) (h : ∀ s a, g (f s a) = g s) (l : List α) (s : σ) :
    g (l.foldl f s) = g s := by
  induction l generalizing s with
  | nil => rfl
  | cons a l ih => rw [List.foldl_cons, ih, h]

/-- Records that go back from the slots touch neither a register field nor a thread. -/
theorem State.returnSens_keeps (s : State) : s.returnSens.regs = s.regs ∧ s.returnSens.threads = s.threads := by
  unfold State.returnSens
  constructor
  · exact foldl_keeps State.regs _ (by intros; rfl) _ s
  · exact foldl_keeps State.threads _ (by intros; rfl) _ s

theorem State.fget_returnSens (s : State) (f : Fld) : s.returnSens.fget blkMODE f = s.fget blkMODE f := by
  simp only [State.fget, s.returnSens_keeps.1]

theorem State.modeCommit_opens (s : State) (h : s.inTransition = false) :
    s.modeCommit.inTransition = true ∧
    s.modeCommit.fget blkMODE F.MODE.MODE_STATUS.TARGET = (s.fget blkMODE F.MODE.MODE_EPOCH.EPOCH + 1) % 2 ^ 32 ∧
    s.modeCommit.fget blkMODE F.MODE.MODE_STATUS.PENDING = 0x3F ∧
    s.modeCommit.fget blkMODE F.MODE.MODE_EPOCH.EPOCH = s.fget blkMODE F.MODE.MODE_EPOCH.EPOCH ∧
    s.modeCommit.threads = s.threads := by
  have heq : s.modeCommit = (((s.mode1 F.MODE.MODE_STATUS.TRANSITION 1).mode1 F.MODE.MODE_STATUS.TARGET
      ((s.fget blkMODE F.MODE.MODE_EPOCH.EPOCH + 1) % 2 ^ 32)).mode1 F.MODE.MODE_STATUS.PENDING 0x3F).returnSens := by
    simp [State.modeCommit, h]
  rw [heq, State.inTransition_iff]
  simp (disch := decide) only [State.fget_returnSens, State.fget_mode1_same, State.fget_mode1_ne]
  exact ⟨by decide, Nat.mod_mod _ _, rfl, trivial, (State.returnSens_keeps _).2⟩

/-! ### Abort (Table 8.8) -/

theorem State.modeAbort_open (s : State) (h : s.inTransition = true) : s.modeAbort = { s with modeAb := s.ctrl + 1 } := by
  simp [State.modeAbort, h]

/-- An ABORT whose CTRL cycle is over ends the transition; the epoch stays. -/
theorem State.tickMode_aborts (z : State) (h0 : z.modeAb ≠ 0) (h : z.modeAb < z.ctrl + 1) :
    z.tickMode.inTransition = false ∧ z.tickMode.fget blkMODE F.MODE.MODE_STATUS.PENDING = 0 ∧
    z.tickMode.fget blkMODE F.MODE.MODE_EPOCH.EPOCH = z.fget blkMODE F.MODE.MODE_EPOCH.EPOCH := by
  have hget : ∀ f, z.tickMode.fget blkMODE f =
      ((z.mode1 F.MODE.MODE_STATUS.TRANSITION 0).mode1 F.MODE.MODE_STATUS.PENDING 0).fget blkMODE f := by
    intro f
    unfold State.tickMode
    rw [if_pos ⟨h0, h⟩]
    rfl
  rw [State.inTransition_eq_false_iff]
  simp (disch := decide) only [hget, State.fget_mode1_same, State.fget_mode1_ne]
  exact ⟨rfl, rfl, trivial⟩

theorem State.modeAbort_late (s : State) (h : s.inTransition = false) (hat : s.modeAt = s.ctrl + 1) :
    s.modeAbort = s.mode1 F.MODE.MODE_STATUS.ABORT_LATE 1 := by
  simp [State.modeAbort, h, hat]

/-- The current mode is that of the fields of MODE_CURRENT: a write of a field elsewhere in MODE leaves it. -/
theorem State.modeNow_mode1 (s : State) (f : Fld) (v : Nat) (h : f.reg ≠ F.MODE.MODE_CURRENT.ROUND.reg) (hlo : f.lo < 64) :
    (s.mode1 f v).modeNow = s.modeNow := by
  have hcur : ∀ g : Fld, g.reg = F.MODE.MODE_CURRENT.ROUND.reg → g.lo < 64 → (s.mode1 f v).fget blkMODE g = s.fget blkMODE g := by
    intro g hreg hg
    apply State.fget_mode1_ne
    unfold fkey
    omega
  unfold State.modeNow
  rw [hcur F.MODE.MODE_CURRENT.ROUND rfl (by decide), hcur F.MODE.MODE_CURRENT.DETERMINISTIC rfl (by decide),
    hcur F.MODE.MODE_CURRENT.SPARSE_DENSE_THRESH rfl (by decide)]

/-! ### Acknowledgements (R195, steps 3 and 4) -/

theorem exec_modeAck (s : State) (u : Fin 6) (ha : s.alive = true) (hm : s.mayAck u.val = true) :
    exec (.modeAck u) s = .next (s.modeAcked u.val) := by
  change execModeAck u s = _
  simp [execModeAck, ha, hm]

/-- An acknowledgement that leaves others pending clears its own bit. -/
theorem State.modeAcked_waits (s : State) (u : Nat) (ht : s.inTransition = true)
    (hb : bit (s.fget blkMODE F.MODE.MODE_STATUS.PENDING) u = true) (hp : s.fget blkMODE F.MODE.MODE_STATUS.PENDING ≠ 2 ^ u) :
    s.modeAcked u = s.mode1 F.MODE.MODE_STATUS.PENDING (s.fget blkMODE F.MODE.MODE_STATUS.PENDING - 2 ^ u) := by
  have hle : 2 ^ u ≤ s.fget blkMODE F.MODE.MODE_STATUS.PENDING := Nat.ge_two_pow_of_testBit hb
  have hne : s.fget blkMODE F.MODE.MODE_STATUS.PENDING - 2 ^ u ≠ 0 := by omega
  simp [State.modeAcked, ht, hb, hne]

/-- MODE_NEXT taken into MODE_CURRENT. -/
def State.modeTaken (s : State) : State :=
  ((s.mode1 F.MODE.MODE_CURRENT.ROUND (s.fget blkMODE F.MODE.MODE_NEXT.ROUND)).mode1 F.MODE.MODE_CURRENT.DETERMINISTIC
    (s.fget blkMODE F.MODE.MODE_NEXT.DETERMINISTIC)).mode1 F.MODE.MODE_CURRENT.SPARSE_DENSE_THRESH
    (s.fget blkMODE F.MODE.MODE_NEXT.SPARSE_DENSE_THRESH)
/-- The fields that the last acknowledgement writes: the mode taken, the target made the epoch, no transition. -/
def State.modeSwitched (s : State) : State :=
  (s.modeTaken.mode1 F.MODE.MODE_EPOCH.EPOCH (s.modeTaken.fget blkMODE F.MODE.MODE_STATUS.TARGET)).mode1
    F.MODE.MODE_STATUS.TRANSITION 0

theorem State.modeSwitched_fields (s : State) :
    s.modeSwitched.fget blkMODE F.MODE.MODE_STATUS.TRANSITION = 0 ∧
    s.modeSwitched.fget blkMODE F.MODE.MODE_EPOCH.EPOCH = s.fget blkMODE F.MODE.MODE_STATUS.TARGET % 2 ^ 32 ∧
    s.modeSwitched.fget blkMODE F.MODE.MODE_CURRENT.ROUND = s.fget blkMODE F.MODE.MODE_NEXT.ROUND % 4 ∧
    s.modeSwitched.fget blkMODE F.MODE.MODE_CURRENT.DETERMINISTIC = s.fget blkMODE F.MODE.MODE_NEXT.DETERMINISTIC % 2 ∧
    s.modeSwitched.fget blkMODE F.MODE.MODE_CURRENT.SPARSE_DENSE_THRESH =
      s.fget blkMODE F.MODE.MODE_NEXT.SPARSE_DENSE_THRESH % 128 := by
  unfold State.modeSwitched State.modeTaken
  simp (disch := decide) only [State.fget_mode1_same, State.fget_mode1_ne]
  exact ⟨rfl, rfl, rfl, rfl, rfl⟩

/-- The registers after the last acknowledgement: the switch, and an ABORT of the same CTRL cycle comes too late (Table 8.8). -/
theorem State.modeAcked_last_regs (s : State) (u : Nat) (ht : s.inTransition = true)
    (hp : s.fget blkMODE F.MODE.MODE_STATUS.PENDING = 2 ^ u) :
    (s.modeAcked u).regs = (if s.modeAb = 0 then (s.mode1 F.MODE.MODE_STATUS.PENDING 0).modeSwitched
      else (s.mode1 F.MODE.MODE_STATUS.PENDING 0).modeSwitched.mode1 F.MODE.MODE_STATUS.ABORT_LATE 1).regs := by
  have hb : bit (2 ^ u) u = true := Nat.testBit_two_pow_self
  unfold State.modeAcked
  simp only [hp, ht, hb, Nat.sub_self, Bool.not_true, Bool.or_self, Bool.false_eq_true, ne_eq, not_true_eq_false, if_false]
  rfl

theorem State.modeAcked_commits (s : State) (u : Nat) (ht : s.inTransition = true)
    (hp : s.fget blkMODE F.MODE.MODE_STATUS.PENDING = 2 ^ u) :
    (s.modeAcked u).inTransition = false ∧
    (s.modeAcked u).fget blkMODE F.MODE.MODE_EPOCH.EPOCH = s.fget blkMODE F.MODE.MODE_STATUS.TARGET % 2 ^ 32 ∧
    (s.modeAcked u).fget blkMODE F.MODE.MODE_CURRENT.ROUND = s.fget blkMODE F.MODE.MODE_NEXT.ROUND % 4 ∧
    (s.modeAcked u).fget blkMODE F.MODE.MODE_CURRENT.DETERMINISTIC = s.fget blkMODE F.MODE.MODE_NEXT.DETERMINISTIC % 2 ∧
    (s.modeAcked u).fget blkMODE F.MODE.MODE_CURRENT.SPARSE_DENSE_THRESH =
      s.fget blkMODE F.MODE.MODE_NEXT.SPARSE_DENSE_THRESH % 128 ∧
    (s.modeAb ≠ 0 → (s.modeAcked u).fget blkMODE F.MODE.MODE_STATUS.ABORT_LATE = 1) := by
  obtain ⟨htr, hep, hro, hde, hth⟩ := (s.mode1 F.MODE.MODE_STATUS.PENDING 0).modeSwitched_fields
  have hget : ∀ f, (s.modeAcked u).fget blkMODE f = (if s.modeAb = 0 then (s.mode1 F.MODE.MODE_STATUS.PENDING 0).modeSwitched
      else (s.mode1 F.MODE.MODE_STATUS.PENDING 0).modeSwitched.mode1 F.MODE.MODE_STATUS.ABORT_LATE 1).fget blkMODE f := by
    intro f
    simp only [State.fget, s.modeAcked_last_regs u ht hp]
  rw [State.inTransition_eq_false_iff]
  simp (disch := decide) only [State.fget_mode1_ne] at hep hro hde hth
  by_cases hab : s.modeAb = 0
  · simp only [hget, if_pos hab]
    exact ⟨htr, hep, hro, hde, hth, fun h => absurd hab h⟩
  · simp (disch := decide) only [hget, if_neg hab, State.fget_mode1_same, State.fget_mode1_ne]
    exact ⟨htr, hep, hro, hde, hth, fun _ => rfl⟩

/-! ### O20 -/

/-- Settles O20: a requester that may write reaches the register's own action, whose lemma above gives the fields; any other
meets the register-access error. -/
theorem modeProtocol : Obligations.ModeProtocol := by
  unfold Obligations.ModeProtocol
  intro rq v s m may
  refine ⟨fun hw ht => ⟨_, exec_modeNextWrite s rq v hw, s.modeNextWrite_stages v.toNat ht⟩, fun hw ht => ?nextRejected,
    fun hw ht => ⟨_, exec_commit s rq hw, s.modeCommit_opens ht⟩, fun hw ht => ?abortOpen, fun hw ht hat => ?abortLate,
    fun e he hw => ?refused, fun u ha hm ht => ?ack⟩
  case nextRejected =>
    refine ⟨s.stageReject, (exec_modeNextWrite s rq v hw).trans (congrArg _ (s.modeNextWrite_rejects v.toNat ht)), ?_, ?_, ?_, ?_, rfl⟩
    · exact s.fget_mode1_same F.MODE.MODE_STATUS.STAGE_REJECT 1
    · exact s.stageReject_fget _ (by decide)
    · exact s.stageReject_fget _ (by decide)
    · exact s.stageReject_fget _ (by decide)
  case abortOpen =>
    refine ⟨_, (exec_modeAbort s rq hw).trans (congrArg _ (s.modeAbort_open ht)), rfl, fun z hz hlt => ?_⟩
    have hz : z.modeAb = s.ctrl + 1 := hz
    exact z.tickMode_aborts (by omega) (by omega)
  case abortLate =>
    refine ⟨_, (exec_modeAbort s rq hw).trans (congrArg _ (s.modeAbort_late ht hat)), ?_, ?_, rfl⟩
    · exact s.fget_mode1_same F.MODE.MODE_STATUS.ABORT_LATE 1
    · exact s.modeNow_mode1 _ _ (by decide) (by decide)
  case refused =>
    obtain ⟨hoff, hexec⟩ := exec_mode_refused s rq v hw e he
    obtain ⟨hcount, hlast, hwrite, hkind⟩ := s.regError_log blkMODE e.2 1 true
    have hlt : e.2 < 2 ^ 20 := by obtain h | h := hoff <;> rw [h] <;> decide
    have hkeep := fun f => s.fget_mode_regError f e.2 1 true
    exact ⟨_, hexec, rfl, hkeep _, hkeep _, hkeep _, congrArg (· != 0) (hkeep _), hkeep _, hcount,
      hlast.trans (Nat.mod_eq_of_lt hlt), hwrite, hkind⟩
  case ack =>
    intro p hb
    have hexec := exec_modeAck s u ha hm
    refine ⟨fun hp => ⟨_, hexec.trans (congrArg _ (s.modeAcked_waits u.val ht hb hp)), ?_, ?_⟩,
      fun hp => ⟨_, hexec, s.modeAcked_commits u.val ht hp⟩⟩
    · exact s.fget_mode1_same F.MODE.MODE_STATUS.PENDING _
    · exact s.modeNow_mode1 _ _ (by decide) (by decide)

end Sys2Proof.Machine
